-- ==== Sys2Proof/Word.lean ====
section
/-!
DEFINITION. The plain value types of the model: bytes and the words the spec numbers bit by bit, and the
saturating addition its counters use (R12, R15 of spec/00_scope.md).
-/
namespace Sys2Proof

/-- One byte of data, as the spec's tables number it. -/
abbrev Byte := BitVec 8

/-- A 32-bit register or command dword. -/
abbrev Word32 := BitVec 32

/-- A 64-bit word. -/
abbrev Word64 := BitVec 64

/-- A counter `w` bits wide that holds its maximum once it is reached. -/
def satAdd (w a b : Nat) : Nat := min (a + b) (2 ^ w - 1)

/-- The number a bit stands for. -/
def bit (b : Bool) : Nat := if b then 1 else 0

end Sys2Proof
end

