-- ==== Sys2Proof/Machine/Bits.lean ====
section
/-!
DEFINITION. Bit fields, byte order and the two sparse containers of the model: tables keyed by a number, and
byte memories in one canonical form. Little-endian throughout (R8 of spec/00_scope.md).
-/
namespace Sys2Proof.Machine

/-- Bits `[lo + len - 1 : lo]` of a number. -/
def field (v lo len : Nat) : Nat := (v >>> lo) % 2 ^ len

/-- Bit `i` of a number. -/
def bitAt (v i : Nat) : Bool := field v i 1 == 1

/-- A number as `n` bytes, least significant first (R8). -/
def le : Nat → Nat → List Byte
  | 0, _ => []
  | n + 1, v => BitVec.ofNat 8 v :: le n (v / 256)

/-- The number that bytes stand for, least significant first (R8). -/
def fromLe : List Byte → Nat
  | [] => 0
  | b :: bs => b.toNat + 256 * fromLe bs

/-- `n` bytes of a buffer from offset `o`; a byte past its end reads as zero. -/
def sliceBytes (d : List Byte) (o n : Nat) : List Byte :=
  let t := (d.drop o).take n
  t ++ List.replicate (n - t.length) 0

/-- The little-endian number in `n` bytes of a buffer from offset `o`. -/
def leAt (d : List Byte) (o n : Nat) : Nat := fromLe ((d.drop o).take n)

/-- A buffer padded with zeros, or cut, to `n` bytes. -/
def padTo (n : Nat) (d : List Byte) : List Byte := sliceBytes d 0 n

/-- A two's complement reading of the low `w` bits. -/
def signed (w v : Nat) : Int :=
  let u := v % 2 ^ w
  if u < 2 ^ (w - 1) then (u : Int) else (u : Int) - 2 ^ w

/-- The low `w` bits of an integer in two's complement. -/
def unsigned (w : Nat) (v : Int) : Nat := (v % (2 ^ w : Int)).toNat

/-- Division rounded up. -/
def ceilDiv (a b : Nat) : Nat := (a + b - 1) / b

/-! ### Tables keyed by a number, keys strictly rising -/

/-- A sparse table: what it does not list has the value its reader names. -/
abbrev Tbl (α : Type) := List (Nat × α)

/-- The entry under a key. -/
def tget? {α : Type} : Tbl α → Nat → Option α
  | [], _ => none
  | (k', v) :: m, k => if k' = k then some v else tget? m k

/-- The entry under a key, or `d`. -/
def tgetD {α : Type} (m : Tbl α) (k : Nat) (d : α) : α := (tget? m k).getD d

/-- Write an entry, keeping the keys rising. -/
def tset {α : Type} : Tbl α → Nat → α → Tbl α
  | [], k, v => [(k, v)]
  | (k', v') :: m, k, v =>
    if k < k' then (k, v) :: (k', v') :: m
    else if k = k' then (k, v) :: m
    else (k', v') :: tset m k v

/-- Remove an entry. -/
def terase {α : Type} (m : Tbl α) (k : Nat) : Tbl α := m.filter (fun p => p.1 != k)

/-- Change one entry, starting from `d` where none is listed. -/
def tmod {α : Type} (m : Tbl α) (k : Nat) (d : α) (f : α → α) : Tbl α := tset m k (f (tgetD m k d))

/-- Change an entry only where one is listed. -/
def tupd {α : Type} (m : Tbl α) (k : Nat) (f : α → α) : Tbl α :=
  m.map (fun p => if p.1 = k then (p.1, f p.2) else p)

/-- Change every listed entry. -/
def tmapv {α : Type} (m : Tbl α) (f : Nat → α → α) : Tbl α := m.map (fun p => (p.1, f p.1 p.2))

/-! ### Byte memories -/

/-- A byte memory: what it does not list reads as 0. -/
abbrev Cells := List (Nat × BitVec 8)

/-- One byte. -/
def cget (m : Cells) (a : Nat) : Byte := (tget? m a).getD 0

/-- Write one byte, keeping the form: rising addresses, no listed zero. -/
def cset : Cells → Nat → Byte → Cells
  | [], a, v => if v = 0 then [] else [(a, v)]
  | (a', v') :: m, a, v =>
    if a < a' then (if v = 0 then (a', v') :: m else (a, v) :: (a', v') :: m)
    else if a = a' then (if v = 0 then m else (a, v) :: m)
    else (a', v') :: cset m a v

/-- Consecutive bytes from an address. -/
def cgetBytes (m : Cells) (a : Nat) : Nat → List Byte
  | 0 => []
  | n + 1 => cget m a :: cgetBytes m (a + 1) n

/-- Write consecutive bytes from an address. -/
def csetBytes (m : Cells) (a : Nat) : List Byte → Cells
  | [] => m
  | b :: bs => csetBytes (cset m a b) (a + 1) bs

/-- The little-endian number in `n` bytes. -/
def cgetLe (m : Cells) (a n : Nat) : Nat := fromLe (cgetBytes m a n)

/-- The canonical form from address `lo` up: rising addresses and no listed zero. -/
def cellsFrom : Nat → Cells → Bool
  | _, [] => true
  | lo, (a, v) :: m => decide (lo ≤ a) && (v != 0) && cellsFrom (a + 1) m

/-- The canonical form of a byte memory. -/
def cellsWf (m : Cells) : Bool := cellsFrom 0 m

/-! ### Small list helpers -/

/-- The first `n` entries from index `i`. -/
def window {α : Type} (l : List α) (i n : Nat) : List α := (l.drop i).take n

/-- Sum of a list of numbers. -/
def sumNat (l : List Nat) : Nat := l.foldl (· + ·) 0

/-- Insert into a list kept in the order of `lt`, before equal entries. -/
def insertBy {α : Type} (lt : α → α → Bool) (x : α) : List α → List α
  | [] => [x]
  | y :: ys => if lt y x then y :: insertBy lt x ys else x :: y :: ys

/-- A stable sort by insertion: equal entries keep their order. -/
def sortBy {α : Type} (lt : α → α → Bool) (l : List α) : List α := l.foldr (insertBy lt) []

/-- Without repeats, the first of each kept. -/
def dedupNat (l : List Nat) : List Nat := l.foldl (fun a x => if a.contains x then a else a ++ [x]) []

/-- Pairs without repeats, the first of each kept. -/
def dedupPages (l : List (Nat × Nat)) : List (Nat × Nat) := l.foldl (fun a x => if a.contains x then a else a ++ [x]) []

/-- The largest of a list, or 0. -/
def maxNat (l : List Nat) : Nat := l.foldl max 0

end Sys2Proof.Machine
end

