-- ==== Sys2Proof/Machine/Parts/Log.lean ====
section
/-!
DEFINITION. The event log: records, stages, the last-gasp registers, the D0 queue and the records of earlier
power-ups (spec/15_faults_and_replay.md, R424 to R428; spec/24_status_and_events.md, R637 to R643).
-/
namespace Sys2Proof.Machine

/-- One event record (R637): the full sequence number and the cause's powered time in ns. -/
structure EventRec where
  code : Nat
  tenant : Nat
  seq : Nat
  timeNs : Nat
  data : List Byte
  deriving DecidableEq, Repr

/-- One last-gasp register (R427): the record written there, and whether the twin acknowledged it. -/
structure GaspReg where
  record : Option EventRec := none
  acked : Bool := false
  deriving DecidableEq, Repr

/-- The event log (R424 to R428, R637 to R643). -/
structure EventLog where
  /-- 1 ring, 2 relocated, 3 last gasp (R424). -/
  stage : Nat := 1
  nextSeq : Nat := 0
  /-- Records of this power-up in the current Tier C region, oldest first, at most 131,072 (R641). -/
  ring : List EventRec := []
  /-- How many of `ring`'s leading records are already in the flash log area. -/
  persisted : Nat := 0
  /-- The ring region can be read (false once Tier C is lost). -/
  regionReadable : Bool := true
  /-- Persisted records by boot count, oldest power-up first (R641). -/
  flash : List (Nat × EventRec) := []
  lastPersistNs : Nat := 0
  /-- Records of this power-up were lost (Table Event 5, byte 5 bit 0). -/
  recordsLost : Bool := false
  overwritten : Nat := 0
  /-- Boot counts of earlier power-ups that lost records (Table Event 5, byte 5 bit 0). -/
  lostBoots : List Nat := []
  gasp : Tbl GaspReg := []
  lgWidx : Nat := 0
  lgLost : Nat := 0
  /-- Events raised while D4 is off (R479), oldest first. -/
  d0Queue : List EventRec := []
  /-- Records received from the twin (R426). -/
  fromTwin : List EventRec := []
  /-- Records sent to the twin and not yet acknowledged (R426). -/
  toTwin : List EventRec := []
  wrq : Bool := false
  deriving DecidableEq, Repr

end Sys2Proof.Machine
end

