-- ==== Sys2Proof/Machine/Parts/Frame.lean ====
section
/-!
DEFINITION. The Meridian frame, the Orrery with its contract classes, and Lodestar
(spec/02_meridian_frame.md, spec/03_contracts_and_the_orrery.md, spec/04_lodestar_and_powered_time.md).
-/
namespace Sys2Proof.Machine

/-- The Meridian block and the tick's delivery (R25 to R62). -/
structure Meridian where
  /-- Ticks are being issued: frame 0 has begun (R26). -/
  running : Bool := false
  frame : Nat := 0
  bootCount : Nat := 0
  /-- Current period, encoded as feature C0h PERIOD (R55). -/
  period : Nat := 2
  /-- Pending period and tick b (R58). -/
  pend : Option (Nat × Nat) := none
  /-- The pending change is one that the twin or the foreman made (R61). -/
  pendPeer : Bool := false
  /-- A period that the twin or the foreman changed to while this module was lost, and the frame at whose tick its link was first
  seen up since (R61). -/
  owed : Option (Nat × Option Nat) := none
  /-- Powered time of the latest tick, in fs so that slews of fractions of a ns add up (R25). -/
  tickFs : Nat := 0
  /-- Domains that have been sent the tick request and have not acknowledged it (R28). -/
  waiting : List Nat := []
  /-- Domains for which TICK_ACK_LATE was raised at this tick (R29), and their number at the tick before. -/
  lateNow : List Nat := []
  lateClosed : Nat := 0
  /-- Where the work of the latest tick stands, by the steps of `State.tickWork`: 0 it is done. -/
  step : Nat := 0
  ackLate : BitVec 11 := 0
  ackLateCnt : Nat := 0
  admitOpen : Bool := false
  backlog : Nat := 0
  peak : Nat := 0
  wrq : Bool := false
  deriving DecidableEq, Repr

/-- A contract class (Table Orrery 1). -/
structure ClassDef where
  cfMax : Nat
  lpdMax : Nat
  candMax : Nat
  paramMax : Nat
  deriving DecidableEq, Repr

/-- A core binding (Table Orrery 4). -/
structure Binding where
  core : Nat
  image : Nat
  deriving DecidableEq, Repr

/-- A quantity of each capacity kind (R68): core-frames in sixteenths, MB, lodes per drift, kB in and out. -/
structure Charges where
  cf : Nat := 0
  th : Nat := 0
  lpd : Nat := 0
  hin : Nat := 0
  hout : Nat := 0
  deriving DecidableEq, Repr

/-- An entry (Table Orrery 5). -/
structure Entry where
  frame : Nat
  tenant : Nat
  cls : Nat
  slots : Nat
  budget : Charges
  clusters : Nat
  deriving DecidableEq, Repr

/-- An Orrery table (Tables Orrery 3 to 5). -/
structure OrreryTable where
  period : Nat := 2
  cycle : Nat := 1
  bindings : List Binding := []
  entries : List Entry := []
  crc : Nat := 0
  deriving DecidableEq, Repr

/-- What an entry still holds in the current frame (R80, R82). -/
structure Remaining where
  entry : Entry
  slots : Nat
  left : Charges
  deriving DecidableEq, Repr

/-- A class change that waits for its cycle boundary (R65). -/
structure ClassChange where
  tick : Nat
  tenant : Nat
  cls : Nat
  deff : Option ClassDef
  deriving DecidableEq, Repr

/-- The Orrery (R63 to R92). Classes are keyed by tenant * 16 + class. -/
structure Orrery where
  classes : Tbl ClassDef := []
  changes : List ClassChange := []
  active : OrreryTable := {}
  start : Nat := 0
  shadow : Option OrreryTable := none
  /-- Tick b at which a shadow table of the current period becomes active (R75). -/
  shadowAt : Option Nat := none
  remaining : List Remaining := []
  /-- Drift cores withheld from best-effort placement in this frame (R196). -/
  withheld : List Nat := []
  /-- Reserved core-frames per frame for switches: (first frame, frames, sixteenths) (R77, R78). -/
  reserved : List (Nat × Nat × Nat) := []
  demotedCnt : Nat := 0
  refusedCnt : Nat := 0
  wrq : Bool := false
  deriving DecidableEq, Repr

/-- A timing reference (Table Lodestar 1). -/
inductive Ref
  | int | ptm | pin | fab | twin
  deriving DecidableEq, Repr

/-- A reference's state (Table Lodestar 3). -/
inductive RefState
  | absent | qualifying | qualified | drifting | disqualified
  deriving DecidableEq, Repr

/-- What Lodestar keeps for one external reference (R96 to R99). Offsets are in 0.001 ppm. -/
structure RefInfo where
  state : RefState := .absent
  /-- The signal is present now. -/
  signal : Bool := false
  /-- The signal has been present since the window began. -/
  wholeWindow : Bool := false
  /-- Unadjusted offset of the last window. -/
  offset : Int := 0
  /-- Offsets of windows with the signal present throughout, newest first, at most 32. -/
  history : List Int := []
  /-- Windows since this reference was selected, newest first, at most 32 (R98). -/
  sinceSel : List Int := []
  /-- Consecutive windows within ±0.2 ppm, beyond ±0.5 ppm and beyond ±1.0 ppm (R97). -/
  inBand : Nat := 0
  beyondHalf : Nat := 0
  beyondOne : Nat := 0
  /-- Its source may not qualify it: it is itself selected there, or its period differs (R61, R94). -/
  barred : Bool := false
  /-- Consecutive failed PTM dialogs (Table Lodestar 1). -/
  failedDialogs : Nat := 0
  /-- Powered time of a mark, in ns: the latest one seen. -/
  lastMark : Option Nat := none
  /-- Powered time since which it has been QUALIFIED without a break (R107). -/
  qualifiedSince : Option Nat := none
  deriving DecidableEq, Repr

/-- The phases of a switch (R100 to R103). -/
inductive SwitchPhase
  | committed | leaving | joining
  deriving DecidableEq, Repr

/-- Why a switch begins (R100). -/
inductive SwitchCause
  | failure | planned | revert | manual | role
  deriving DecidableEq, Repr

/-- One survey entry (Table Lodestar 6). -/
structure SurveyEntry where
  offset : Int := 0
  frameOff : Int := 0
  delay : Nat := 0
  spread : Nat := 0
  member : Nat := 0
  valid : Bool := false
  stale : Bool := false
  boot : Nat := 0
  deriving DecidableEq, Repr

/-- A SURVEY that runs or waits: its command, whether it forms the constellation, and the members still to measure. -/
structure SurveyJob where
  fn : Nat := 0
  sqid : Nat := 0
  cid : Nat := 0
  buf : List (Nat × Nat) := []
  form : Bool := false
  /-- Firmware began it itself (R463, R542): it has no completion. -/
  own : Bool := false
  left : List Nat := []
  measured : Nat := 0
  /-- Routes that a FORM has computed, live from the tick after it ends. -/
  routes : Tbl Nat := []
  deriving DecidableEq, Repr

/-- Lodestar (R93 to R116). -/
structure Lodestar where
  sel : Ref := .int
  phase : SwitchPhase := .committed
  target : Option Ref := none
  firstCommit : Bool := false
  holdDegr : Bool := false
  /-- Windows INT has stayed within ±5 ppm since INT_FAULT. -/
  intBack : Nat := 0
  intOffset : Int := 0
  cmdRej : Bool := false
  wrq : Bool := false
  ptm : RefInfo := {}
  pin : RefInfo := {}
  fab : RefInfo := {}
  twin : RefInfo := {}
  /-- Feature C1h: the value last accepted and the value in force (R108). -/
  cfgAccepted : Word32 := 0x00600002
  cfg : Word32 := 0x00600002
  /-- A switch whose trigger has come and which begins at the next tick (R100). -/
  trigger : Option SwitchCause := none
  /-- The manual switch that waits for the next tick (Restoring, At the edges). -/
  manual : Option Ref := none
  /-- Ref the module is leaving, for SWITCH_RETARGET and HOLDOVER_EXPIRED. -/
  old : Ref := .int
  leavingSince : Nat := 0
  joiningFrames : Nat := 0
  /-- INT was selected by a manual switch (R107). -/
  intByManual : Bool := false
  /-- The last frequency correction, in 0.001 ppm (R101). -/
  correction : Int := 0
  switchCnt : Nat := 0
  /-- The frame that began the current window, the windows ended, and whether the latest tick ends one (R96). -/
  windowStart : Nat := 0
  windows : Nat := 0
  windowDue : Bool := false
  /-- Powered time at which the selected reference was committed (R107). -/
  selSince : Nat := 0
  /-- Timestamp feature (R111): the value set, in ms, and the powered time of the Set, in ns. -/
  timestamp : Option (Nat × Nat) := none
  survey : Tbl SurveyEntry := []
  /-- Surveys that run one after the other, the first of them now (R113, R462). -/
  surveys : List SurveyJob := []
  /-- Phase error last reported in LOD_PHASE_ERR, in fs. -/
  phaseErrFs : Int := 0
  deriving DecidableEq, Repr

end Sys2Proof.Machine
end

