-- ==== Sys2Proof/Machine/Parts/HostLink.lean ====
section
/-!
DEFINITION. The host link: controllers, queues, completions, namespaces, compute namespaces and the host
memory the module has written (spec/05_host_link.md).
-/
namespace Sys2Proof.Machine

/-- The NVMe statuses the module returns (Table Event 2; others of NVMe Base 2.0c by R636). -/
inductive NvmeStatus
  | success | invalidField | invalidOpcode | invalidLogPage | featureNotChangeable | featureNotSaveable
  | commandSequence | dataTransfer | unrecoveredRead | writeProtected | sanitizeInProgress
  | anaInaccessible | anaTransition | alreadyAttached | attachmentLimit | nsIdUnavailable
  | imageDownload | invalidImage | invalidSlot | maxTimeViolation | internalError | abortRequested
  | nsNotAttached | nsInsufficientCapacity | invalidFormat | controllerListInvalid | invalidNamespace | lbaOutOfRange | sanitizeFailed
  | guardCheck | appTagCheck | refTagCheck
  deriving DecidableEq, Repr

/-- A completion queue entry (R173). -/
structure Cqe where
  sqid : Nat
  cid : Nat
  status : NvmeStatus
  dw0 : Nat := 0
  dw1 : Nat := 0
  deriving DecidableEq, Repr

/-- A CQE that waits for room in its completion queue (R49); the packet it answers, if any. -/
structure HeldCqe where
  cqe : Cqe
  packet : Option Nat
  deriving DecidableEq, Repr

/-- A completion queue: entries posted and not yet consumed, and those held back. -/
structure Cq where
  depth : Nat := 65536
  posted : List Cqe := []
  held : List HeldCqe := []
  deriving DecidableEq, Repr

/-- An SQE a doorbell has made visible and that has not been taken (R125). -/
structure VisibleSqe where
  arrival : Nat
  packet : Bool
  backlog : Nat
  doorbellNs : Nat
  deriving DecidableEq, Repr

/-- A submission queue: its completion queue and the SQEs waiting, oldest first. -/
structure Sq where
  cqid : Nat := 0
  visible : List VisibleSqe := []
  deriving DecidableEq, Repr

/-- One NVMe controller (R119, R128, R139 to R141); queues keyed by queue number. -/
structure Controller where
  /-- CC.EN, CSTS.RDY, CSTS.CFS. -/
  enabled : Bool := false
  ready : Bool := false
  cfs : Bool := false
  /-- CSTS.SHST: 0 normal, 1 in progress, 2 complete. -/
  shst : Nat := 0
  /-- log2 of the memory page size (CC.MPS). -/
  pageBits : Nat := 12
  sqs : Tbl Sq := []
  cqs : Tbl Cq := []
  /-- Fetching of SQEs is stopped. -/
  stopped : Bool := false
  /-- Feature 06h WCE (R128). -/
  wce : Bool := true
  /-- Outstanding Asynchronous Event Requests: (sqid, cid). -/
  aers : List (Nat × Nat) := []
  /-- A vendor-specific event awaits a read of C0h (R640). -/
  eventUnread : Bool := false
  takeoverCq : Option Nat := none
  /-- Answers of taken-over packets that wait for a takeover CQ. -/
  noCqCount : Nat := 0
  /-- Powered ns at which a command or packet of the function last ceased to be outstanding (R622). -/
  busyAt : Option Nat := none
  deriving DecidableEq, Repr

/-- What a logical sector holds: its data and metadata, zeros by map, or a lost map entry (R368, R386). -/
inductive SectorState
  | data (bytes : List Byte) (md : List Byte)
  | lost
  deriving DecidableEq, Repr

/-- A logical block of a write or deallocation that is not yet durable (R128, R395): what it then holds, none for zeros
by map, and whether the checkpoint in progress covers it. -/
structure VolatileWrite where
  lba : Nat
  sector : Option SectorState
  marked : Bool := false
  deriving DecidableEq, Repr

/-- A namespace (R120 to R124). Blocks are keyed by LBA; an unlisted LBA is mapped to zeros. -/
structure Namespace where
  nsid : Nat
  size : Nat
  lbaf : Nat := 0
  /-- Protection information type: 0, 1 or 3 (R122). -/
  pi : Nat := 0
  /-- Hold-up class: false A, true J (R121). -/
  classJ : Bool := false
  pair : Bool := false
  fn : Option Nat := none
  blocks : Tbl SectorState := []
  /-- The blocks as a power loss now would leave them at the least. -/
  durable : Tbl SectorState := []
  volatile : List VolatileWrite := []
  /-- The cut: rises with each change of the map (R414). -/
  cut : Nat := 0
  deriving DecidableEq, Repr

/-- A memory range of a range set (Table Host 7). -/
structure MemRange where
  handle : Nat
  offset : Nat
  length : Nat
  deriving DecidableEq, Repr

/-- A program slot of a compute namespace (R134). -/
structure ProgSlot where
  handle : Nat
  active : Bool := false
  deriving DecidableEq, Repr

/-- A function's compute and memory namespace (R134). -/
structure ComputeNs where
  slots : Tbl ProgSlot := []
  rangeSets : Tbl (List MemRange) := []
  deriving DecidableEq, Repr

/-- The host link (R117 to R141). Controllers keyed by function: 0 PF, n VF n. -/
structure HostLink where
  up : Bool := false
  /-- Raw link rate in GT/s times width; x16 at 64 GT/s is 1024. -/
  rateGt : Nat := 64
  width : Nat := 16
  /-- HIN and HOUT are scaled from the next tick (R117 edges): numerator over 1024. -/
  scale : Nat := 1024
  flit : Bool := true
  /-- The link IDE stream is Secure; the key slots programmed: key set × 6 + sub-stream × 2 + direction (R599). -/
  ideSecure : Bool := false
  ideKeys : List Nat := []
  vfEnabled : List Nat := []
  controllers : Tbl Controller := []
  nextArrival : Nat := 0
  namespaces : Tbl Namespace := []
  compute : Tbl ComputeNs := []
  anaCount : Nat := 0
  training : Bool := false
  /-- The latest configuration request was answered with Request Retry Status (R533). -/
  configRetried : Option Bool := none
  /-- The dwords that the latest read of a BAR2 returned (R555). -/
  readData : List Nat := []
  /-- Host memory as far as the module has written it. -/
  mem : Tbl Byte := []
  /-- TLPs sent with EP set: addresses of their 64-byte units (R136). -/
  poisonedSent : List Nat := []
  deriving DecidableEq, Repr

end Sys2Proof.Machine
end

