-- ==== Sys2Proof/Machine/Parts/Objects.lean ====
section
/-!
DEFINITION. Objects and their contents, the Stope map and the Cage, and the Catalogue
(spec/06_work_packets.md R155 to R159; spec/07, 08, 09; spec/12_tiers_stope_and_cage.md; spec/13).
-/
namespace Sys2Proof.Machine

/-- A filled slot of a seam: the vector ID, its code, the code's group scales and its re-rank record. -/
structure SeamSlot where
  id : Nat
  code : List Nat
  scales : List Nat := []
  rerank : List Nat := []
  deriving DecidableEq, Repr

/-- An index object's geometry and contents (Tables Seam 1 and 3). Slots keyed by seam * 65536 + slot. -/
structure IndexBody where
  dim : Nat
  metric : Nat
  code : Nat
  m : Nat := 0
  cfmt : Nat
  rfmt : Nat := 0
  replicas : Nat := 0
  nlist : Nat
  seamCap : Nat
  /-- One FP16 scale for each 32 dimensions of an INT8 table. -/
  cscales : List Nat := []
  /-- Stored centroid elements, one list a centroid. -/
  centroids : List (List Nat) := []
  /-- PQ4: for each subspace its 16 entries of BF16 elements. -/
  codebooks : List (List (List Nat)) := []
  slots : Tbl SeamSlot := []
  /-- Slots emptied by a committed delete, with the packets admitted before it (R177). -/
  emptied : List (Nat × List Nat) := []
  deriving DecidableEq, Repr

/-- One (layer, head, block) of a KV object: stored key and value elements token by token, scales, summary. -/
structure KvTile where
  closed : Bool := false
  k : List (List Nat) := []
  v : List (List Nat) := []
  /-- Key scales token by token, group by group; value scales token group by token group, by dimension. -/
  kScale : List (List Nat) := []
  vScale : List (List Nat) := []
  hi : List Nat := []
  lo : List Nat := []
  deriving DecidableEq, Repr

/-- A KV object's geometry and contents (Tables Attend 1 and 2). Tiles keyed by (layer * 64 + head) * 16384 + block. -/
structure KvBody where
  layers : Nat
  heads : Nat
  qpk : Nat
  dim : Nat
  kfmt : Nat
  vfmt : Nat
  group : Nat
  sfmt : Nat
  hotSinks : Nat
  hotRecent : Nat
  maxTokens : Nat
  lens : Tbl Nat := []
  tiles : Tbl KvTile := []
  deriving DecidableEq, Repr

/-- The kinds of object (spec/06_work_packets.md, Objects and handles). -/
inductive ObjBody
  | index (b : IndexBody)
  | kv (b : KvBody)
  | model | program | buffer | recordView
  deriving DecidableEq, Repr

/-- The placement classes (Table Tiers 2). -/
inductive PlaceClass
  | pinnedH | hot | paged | stream
  deriving DecidableEq, Repr

/-- An object (R155 to R159, R314). Byte contents are those of its offset space. -/
structure Object where
  handle : Nat
  body : ObjBody
  version : Nat := 1
  cls : PlaceClass := .paged
  size : Nat := 0
  /-- First lode of its window range (R314). -/
  base : Nat := 0
  /-- Lodes its range covers: offset space, then the components outside it. -/
  lodes : Nat := 0
  bytes : Cells := []
  /-- Created with ZEROED: every byte reads zero from the start. -/
  zeroed : Bool := false
  /-- 64-byte units written since creation, by unit number (R338). -/
  units : List Nat := []
  /-- Units whose Tier F sector cannot be read: unit to the sector's locator of kind 0x2 (R375, R410). -/
  badUnits : Tbl Nat := []
  /-- Lodes with a Tier F copy: lode number to (drift, lode slot) (R369). -/
  tierF : Tbl (Nat × Nat) := []
  /-- Its reservation did not fit at start-up: it is neither charged nor paged in (R537). -/
  uncharged : Bool := false
  /-- A model or program that has been streamed into Tier S or named by an Orrery table (R249, R288). -/
  frozen : Bool := false
  /-- The packet that is deleting it (R158), and the packet or write that is changing it (R157, R363). -/
  deletingBy : Option Nat := none
  changingBy : Option Nat := none
  /-- Deleted at a commit; kept for the packets admitted before it (R158). -/
  dead : Bool := false
  keepFor : List Nat := []
  /-- Fixed Tier H components outside the offset space, in lodes (R175, R210). -/
  fixedLodes : Nat := 0
  deriving DecidableEq, Repr

/-- The states of a Stope map entry (Table Tiers 5). -/
inductive LodeState
  | scrubbed | zeroed | dirty | transit | resident | firmware | retired | job
  deriving DecidableEq, Repr

/-- A Stope map entry (Table Tiers 5). -/
structure LodeEntry where
  wlode : Nat := 0
  state : LodeState := .dirty
  dirty : Bool := false
  pin : Nat := 0
  cls : PlaceClass := .pinnedH
  ref : Bool := false
  pool : Bool := false
  tenant : Nat := 0
  jobs : Nat := 0
  /-- Last frame through which it is held; none for 0. -/
  hold : Option Nat := none
  /-- An overdraft lode (R327). -/
  overdraft : Bool := false
  /-- Powered time of the miss that pages it in, and the kind of page-in that PAGE records (Table Tally 5). -/
  missNs : Nat := 0
  pageKind : Nat := 0
  /-- Units of it that carry a poison mark: unit number to the locator of the Tier F sector it was staged from (kind
  0x2), or 0 (R410, R418). -/
  poison : Tbl Nat := []
  /-- Bytes that stewards have stored in it while it holds a lode of an object, by place in the lode (R335, R350). -/
  stored : Tbl Byte := []
  deriving DecidableEq, Repr

/-- A clock (R326): its lodes in order of entry and the index of the hand. -/
structure Clock where
  lodes : List Nat := []
  hand : Nat := 0
  deriving DecidableEq, Repr

/-- The Stope and the Cage (R321 to R344). The map lists only entries that differ from reset. -/
structure Cage where
  prepared : Bool := false
  h2 : Bool := false
  /-- HECC_CFG.LEVEL and STP_POOL as written: they apply from the next cold reset (class S). -/
  h2Next : Bool := false
  poolSize : Nat := 0x40000
  poolNext : Nat := 0x40000
  tailings : Nat := 1024
  map : Tbl LodeEntry := []
  /-- Hash heads that are not empty: chain to first lode (R331); NEXT by lode. -/
  heads : Tbl Nat := []
  nexts : Tbl Nat := []
  /-- Translation cache: window lode to Tier H lode, newest first, at most 16,384 (R332). -/
  tcache : List (Nat × Nat) := []
  /-- One clock per tenant (0 to 63) and the pool's (64). -/
  clocks : Tbl Clock := []
  quotas : Tbl Nat := []
  /-- Accepted quotas that wait for the next tick: tenant to (value, frame of the write). -/
  quotaPending : Tbl (Nat × Nat) := []
  /-- Lodes of packet annexes in the pool (R401). -/
  annexLodes : Nat := 0
  /-- Pool lodes reserved by packet key. -/
  reserved : Tbl Nat := []
  /-- Retained lodes (R415): lode and the packet keys that need it. -/
  retained : List (Nat × List Nat) := []
  /-- Lodes on which accesses wait: window lode numbers to page in (R334). -/
  wanted : List Nat := []
  overdraftFrame : Tbl Nat := []
  quotaHighFrame : List Nat := []
  poolWaitFrame : Bool := false
  qrej : Bool := false
  wrq : Bool := false
  missCnt : Nat := 0
  unplannedCnt : Nat := 0
  overdraftCnt : Nat := 0
  ceCnt : Nat := 0
  ueCnt : Nat := 0
  retiredCnt : Nat := 0
  /-- C2h per tenant: LP_CLASS and QWARN (R319). -/
  lpClass : Tbl Nat := []
  qwarn : Tbl Nat := []
  /-- C2h as last accepted: it governs from the next tick (class L). -/
  c2 : Tbl (Nat × Nat) := []
  deriving DecidableEq, Repr

/-- All objects of the module, keyed by object number (R155, R159). -/
structure Objects where
  live : Tbl Object := []
  nextNumber : Nat := 1
  /-- Memory Writes in flight: object numbers (R363). -/
  writing : List Nat := []
  deriving DecidableEq, Repr

/-- The state of a line in the L2 (R346). -/
inductive LineState
  | invalid | shared | modified | owned
  deriving DecidableEq, Repr

/-- A Tier H line as the Catalogue keeps it (R346), with the copy that is current when not Shared. -/
structure Line where
  state : LineState := .invalid
  sharers : BitVec 16 := 0
  data : List Byte := []
  /-- Marks of its eight 64-bit words; a marked Tier H unit marks them all. -/
  poison : BitVec 8 := 0
  deriving DecidableEq, Repr

/-- A store a steward has issued and not made visible (R354). -/
structure PendingStore where
  addr : Nat
  bytes : List Byte
  deriving DecidableEq, Repr

/-- One steward core's memory side. -/
structure Steward where
  started : Bool := false
  stores : List PendingStore := []
  /-- What its latest load returned, and whether a mark came with it. -/
  loaded : List Byte := []
  loadMarked : Bool := false
  deriving DecidableEq, Repr

/-- The Catalogue and the steward ring (R345 to R364). Lines keyed by device address / 64. -/
structure Coherence where
  lines : Tbl Line := []
  /-- Tier C lines held by steward L1s: line to sharers, Modified owner if any (R347). -/
  ring : Tbl Line := []
  stewards : Tbl Steward := []
  /-- Tier H and Tier C bytes as the tiers hold them, by device address, and their marks by unit or word. -/
  tierH : Cells := []
  tierC : Cells := []
  hWritten : List Nat := []
  hPoison : List Nat := []
  cPoison : List Nat := []
  snoopHit : Nat := 0
  writeback : Nat := 0
  ringSnoop : Nat := 0
  poisonWb : Nat := 0
  wrq : Bool := false
  deriving DecidableEq, Repr

end Sys2Proof.Machine
end

