-- ==== Sys2Proof/Machine/Parts/Packets.lean ====
section
/-!
DEFINITION. Work packets, their shift records and their answers (spec/06_work_packets.md;
spec/15_faults_and_replay.md, R401 to R417).
-/
namespace Sys2Proof.Machine

/-- The work packet header (Table Packet 2). -/
structure Header where
  opcode : Nat := 0
  version : Nat := 0
  flags : Nat := 0
  cls : Nat := 0
  packetId : Nat := 0
  paramAddr : Nat := 0
  paramLen : Nat := 0
  answerLen : Nat := 0
  answerAddr : Nat := 0
  primary : Nat := 0
  secondary : Nat := 0
  costCap : Nat := 0
  notBefore : Nat := 0
  deriving DecidableEq, Repr

/-- The answer statuses (Table Packet 10). -/
inductive AnsStatus
  | done | refusedMalformed | refusedOpcode | refusedObject | refusedBudget | refusedState | refusedCap
  | failedPoison | failedReplays | failedUnit | failedMedia | aborted | abortedReset
  deriving DecidableEq, Repr

/-- Where a packet stands (Table Packet 11, Table Fault 2 STATE). -/
inductive Phase
  /-- Receipt point passed, not admitted (STATE 0x00). -/
  | received
  /-- Admitted or demoted, waiting for placement (STATE 0x01). -/
  | admitted
  /-- Placed (STATE 0x02). -/
  | running
  /-- Its work is done, its payload is staged (STATE 0x02). -/
  | finished
  /-- Faulted, awaiting the decision or its replay (STATE 0x03). -/
  | replaying
  /-- Answered (STATE 0x04); retired at the next tick. -/
  | answered
  deriving DecidableEq, Repr

/-- The fault events (Table Ruhaic 8, Table Fault 4). -/
inductive FaultEvent
  | poison | illegalBundle | outOfWindow | watchdog | unitLoss
  deriving DecidableEq, Repr

/-- A fault of the current run (R408, R409). -/
structure FaultInfo where
  event : FaultEvent
  locator : Nat
  /-- The poison came from a namespace sector whose map entry is lost (Table Fault 4, row 2). -/
  lostEntry : Bool := false
  /-- The unit lost, for row 4. -/
  unit : Nat := 0
  /-- The frame in which the fault fell; it is decided at a later tick. -/
  frame : Nat := 0
  deriving DecidableEq, Repr

/-- What a job's plan fixes (R44, R45, R195, R229, R244, R255): the work items it takes, the cores it needs, and what the
answer reports of it. -/
structure Plan where
  /-- The first work item fits in the caps. -/
  fits : Bool := true
  /-- Items planned, by the opcode's own numbering (seams; KV head * 65536 + block; a count of sectors, items or
  records). -/
  items : List Nat := []
  rerank : Bool := false
  /-- Drift on which each planned seam is read, and the lodes it stages: window lode numbers. -/
  drifts : List Nat := []
  lodes : List Nat := []
  /-- Drift cores held, shaft cores wanted, and the image they must be bound to. -/
  driftCores : List Nat := []
  shaft : Nat := 0
  image : Nat := 0
  cost : Nat := 0
  energy : Nat := 0
  trunc : Bool := false
  deriving DecidableEq, Repr

/-- A packet with a receipt point: its shift record, annex and what its run has produced. -/
structure Packet where
  /-- Its place in receipt-point order. -/
  key : Nat
  fn : Nat := 0
  sqid : Nat := 0
  cqid : Nat := 0
  cid : Nat := 0
  tenant : Nat := 0
  hdr : Header := {}
  param : List Byte := []
  /-- The runs (address, bytes) of host memory that its answer region takes (R143, R144). -/
  region : List (Nat × Nat) := []
  receiptNs : Nat := 0
  boot : Nat := 0
  backlog : Nat := 0
  phase : Phase := .received
  /-- The not-before frame (R34). -/
  notBefore : Nat := 0
  admitFrame : Option Nat := none
  placeNs : Nat := 0
  /-- Runs under its tenant's contract: CONTRACTED set and not DEMOTED. -/
  contracted : Bool := false
  demoted : Bool := false
  late : Bool := false
  breached : Bool := false
  heldCounted : Bool := false
  replays : Nat := 0
  truncated : Bool := false
  satd : Bool := false
  takenOver : Bool := false
  partialAns : Bool := false
  charges : Charges := {}
  clusters : Nat := 0
  cost : Nat := 0
  energy : Nat := 0
  cores : List Nat := []
  /-- The plan of the first placement, which every later run keeps (R416). -/
  plan : Option Plan := none
  /-- What the run changes: objects as the commit leaves them, and the numbers it deletes (R156). -/
  changes : List Object := []
  deletes : List Nat := []
  /-- The object it creates, whose number, range and reservations it holds from its receipt point (R163, R314, R315); the
  object that it moves to PINNED_H or HOT (R318). -/
  create : Option Object := none
  grow : Option Nat := none
  /-- Handles (or 0xFFFF_0000_0000_0000 + NSID) with the version or cut seen (R414). -/
  inputs : List (Nat × Nat) := []
  /-- The input objects as of the admission tick (R156, R415). -/
  snap : List Object := []
  /-- The namespaces it reads as of the admission tick: NSID to their blocks (R127, R415). -/
  views : Tbl (Tbl SectorState) := []
  /-- Payload staging of a program: bytes written, and marked 64-byte units (Table Ruhaic 5, window 0x4). -/
  staging : Cells := []
  stagingPoison : List Nat := []
  payload : List Byte := []
  /-- Status decided for the answer. -/
  status : AnsStatus := .done
  fault : Option FaultInfo := none
  lastPoisonLoc : Option Nat := none
  lastLoc : Nat := 0
  abortAsked : Bool := false
  /-- Frame and powered time at which the CQE was posted. -/
  deliverFrame : Option Nat := none
  recordWritten : Bool := false
  cqeHeld : Bool := false
  cqeNs : Nat := 0
  mirrored : Bool := false
  /-- Held for the twin (ORIGIN 1). -/
  forTwin : Bool := false
  annexBytes : Nat := 0
  /-- Lodes this run took as job lodes. -/
  jobLodes : List Nat := []
  /-- Sectors a SIFT has wholly evaluated, per drift, as recorded at the latest tick, and as they stand (R247); records of a
  SEAM BUILD LOAD up to its latest checkpoint, under 0 (R207). -/
  progress : Tbl Nat := []
  evaluated : Tbl Nat := []
  /-- Compute-command runs answer by their CQE alone (R135): the object and offset that take the payload. -/
  viaExecute : Bool := false
  out : Option (Nat × Nat) := none
  /-- A shard's run of a sub-packet: its result goes to the foreman (R468, R469). -/
  sub : Bool := false
  /-- A write to its answer region failed (R145). -/
  writeFailed : Bool := false
  /-- Window lodes of its PINNED_H and HOT inputs that were resident at admission (R336). -/
  residentAtAdmit : List Nat := []
  /-- Scale block captured at admission (R311). -/
  scales : List Byte := []
  deriving DecidableEq, Repr

/-- What a message of the twin asks this module to apply (R444, R445, R453). -/
inductive MirrorOp
  /-- A write, Write Zeroes or deallocation: what each block then holds, whether it is handled as FUA. -/
  | write (nsid lba : Nat) (sectors : List (Option SectorState)) (fua : Bool)
  /-- A region of a pair namespace copied at resync. -/
  | region (nsid region : Nat) (blocks : Tbl SectorState)
  /-- An object created or changed, whole, at its new version; or deleted. -/
  | object (o : Object)
  | remove (handle : Nat)
  deriving DecidableEq, Repr

/-- An ABORT WORK that waits for the packet it names to be answered (R148, R149). -/
structure AbortCmd where
  fn : Nat
  sqid : Nat
  cid : Nat
  packet : Nat
  deriving DecidableEq, Repr

/-- All packets of the module (R174) and those of the twin it holds records for (R403). -/
structure Packets where
  nextKey : Nat := 0
  live : Tbl Packet := []
  /-- Records held for the twin (R446), keyed by the twin's own key. -/
  twin : Tbl Packet := []
  aborts : List AbortCmd := []
  deriving DecidableEq, Repr

end Sys2Proof.Machine
end

