-- ==== Sys2Proof/Machine/Parts/Fabric.lean ====
section
/-!
DEFINITION. The fabric ports and their link layer, the binary pair, and the constellation
(spec/16_pairs_and_constellations.md).
-/
namespace Sys2Proof.Machine

/-- A port's link state (Table Pair 9). -/
inductive LinkState
  | down | training | up | lantern
  deriving DecidableEq, Repr

/-- A flit in a replay buffer (R432) or waiting for a credit (R433). -/
structure Flit where
  seq : Nat
  typ : Nat
  vc : Nat
  first : Bool
  last : Bool
  bytes : List Byte
  deriving DecidableEq, Repr

/-- A message that a channel is assembling (R435): the bytes so far and its poisoned units. -/
structure Partial where
  bytes : List Byte := []
  poison : List Nat := []
  deriving DecidableEq, Repr

/-- A message received whole (R435). -/
structure Message where
  port : Nat
  vc : Nat
  dst : Nat
  src : Nat
  typ : Nat
  tag : Nat
  body : List Byte
  poison : List Nat := []
  deriving DecidableEq, Repr

/-- A fabric port (R429 to R436). -/
structure Port where
  state : LinkState := .down
  txSeq : Nat := 0
  rxNext : Nat := 0
  /-- Sent and not acknowledged, oldest first, at most 1,024 (R432). -/
  replay : List Flit := []
  /-- Flits waiting to be sent, by arrival. -/
  queued : List Flit := []
  /-- Credits held toward the partner, by channel. -/
  credits : Tbl Nat := []
  /-- The SEQ of the latest NAK received and how many came in a row (R432). -/
  nakSeq : Nat := 0
  nakRun : Nat := 0
  /-- Data flits sent since VC3 last sent one (R433). -/
  sinceVc3 : Nat := 0
  assembling : Tbl Partial := []
  fecCorr : Nat := 0
  crcErr : Nat := 0
  retry : Nat := 0
  downCnt : Nat := 0
  retrainFails : Nat := 0
  /-- Control records it is to send, oldest first, and those received and not acted on (R434). -/
  control : List (List Byte) := []
  inbox : List (List Byte) := []
  /-- Flits sent again (R432). -/
  resent : Nat := 0
  /-- Session keys in force, and data flits under them (R439). -/
  secured : Bool := false
  underKey : Nat := 0
  /-- The declared power of the cage's assembly, in 0.1 W (R626). -/
  cagePower : Option Nat := none
  cageRefused : Bool := false
  deriving DecidableEq, Repr

/-- The pair identity record (Table Pair 3). -/
structure PairId where
  pairId : Nat := 0
  side : Bool := false
  twinKey : List Byte := []
  deriving DecidableEq, Repr

/-- The pair states (Table Pair 5), in the order of their codes. -/
inductive PairState
  | unpaired | paired | solo | fenced | split | resync | conflict | waiting
  deriving DecidableEq, Repr

/-- The binary pair (R437 to R460). -/
structure Pair where
  id : PairId := {}
  state : PairState := .unpaired
  /-- The PAIR_DETECT output and the filtered input (R440). -/
  detectOut : Bool := false
  detectIn : Bool := false
  auth : Bool := false
  /-- A fault notice from the twin, with its cause. -/
  notice : Option Nat := none
  /-- Frames both binary ports have been down with PAIR_DETECT asserted (R449). -/
  partitionFrames : Nat := 0
  waitingSince : Nat := 0
  /-- Marked 1 GiB regions: nsid * 2^32 + region (R451). -/
  dirty : List Nat := []
  changed : List Nat := []
  deleted : List Nat := []
  /-- Both sides' marks for a CONFLICT source (R454), and the twin's own. -/
  twinDirty : List Nat := []
  twinChanged : List Nat := []
  isSource : Bool := false
  resyncLeft : List Nat := []
  resyncObjects : List Nat := []
  resyncCopied : Nat := 0
  /-- Next pair sequence number (side A gives them, R443), and the number last applied to each LBA of a pair
  namespace: nsid * 2^48 + lba. -/
  nextSeq : Nat := 1
  applied : Tbl Nat := []
  mask : BitVec 64 := 0
  /-- Mirrored objects whose copy is not complete. -/
  toCopy : List Nat := []
  /-- Survivor's frame number minus the twin's (R456), and the same from the latest TWIN tick marker. -/
  frameOff : Int := 0
  markerOff : Int := 0
  twinBoot : Nat := 0
  /-- BIND COMMIT has run and no link-up has followed (R442). -/
  fresh : Bool := false
  /-- Records taken over, to be announced at the next tick; answers of the takeover in progress (R456). -/
  takeoverBegun : Option Nat := none
  takeoverRuns : Bool := false
  takeoverAnswered : Nat := 0
  /-- The twin is in SPLIT and has not been told to rejoin; it holds solo changes (R453). -/
  twinSplit : Bool := false
  /-- This module has been sanitized, or its twin has, since they were last PAIRED (R607). -/
  sanitized : Bool := false
  twinSanitized : Bool := false
  twinSolo : Bool := false
  /-- Functions for which TAKEOVER_NO_CQ was raised, and answers without a queue. -/
  noCqRaised : List Nat := []
  wrq : Bool := false
  deriving DecidableEq, Repr

/-- A span's shard (Table Pair 6). -/
structure Shard where
  pref : Nat
  alt : Nat
  prefH : Nat
  altH : Nat
  deriving DecidableEq, Repr

/-- A span (R465). -/
structure Span where
  key : Nat
  tenant : Nat
  shards : List Shard
  deriving DecidableEq, Repr

/-- Roles (R461). -/
inductive Role
  | none | foreman | hewer
  deriving DecidableEq, Repr

/-- An entry of a shard's result list (R469): the order key and the value as it travels. -/
structure ShardEntry where
  shard : Nat
  dist : Nat
  id : Nat
  slot : Nat
  exact : Bool := false
  deriving DecidableEq, Repr

/-- A shard's result, as a RESULT message brings it (R469, R470). -/
structure ShardResult where
  shard : Nat
  entries : List ShardEntry
  cost : Nat
  energy : Nat
  truncated : Bool
  /-- The status and locator of a shard's run that did not end well. -/
  status : AnsStatus := .done
  locator : Nat := 0
  deriving DecidableEq, Repr

/-- A constellation packet's scatter (R467 to R472). -/
structure Scatter where
  packet : Nat
  shards : List Shard
  /-- Member that runs each shard now, by shard. -/
  runner : Tbl Nat := []
  results : List ShardResult := []
  missing : List Nat := []
  /-- Shards to send to their ALT at the next tick (R471). -/
  resend : List Nat := []
  deriving DecidableEq, Repr

/-- A sub-packet a shard holder has received (R468): the foreman that sent it, its tag and shard, the foreman's frame of
admission in constellation numbering, and its header and annex with the shard's handles. -/
structure SubPacket where
  member : Nat
  tag : Nat
  shard : Nat
  tenant : Nat
  frame : Nat
  hdr : Header
  param : List Byte
  /-- It is placed outside the budgets from the start: it was sent again (R471). -/
  resent : Bool := false
  /-- The local packet that runs it, once admitted. -/
  packet : Option Nat := none
  deriving DecidableEq, Repr

/-- The constellation (R461 to R474). -/
structure Const where
  role : Role := .none
  id : Nat := 0
  member : Nat := 0
  deputy : Bool := false
  formed : Bool := false
  /-- Members that answered at the last forming, and those lost since. -/
  members : List Nat := []
  lost : List Nat := []
  savedRole : Role := .none
  savedId : Nat := 0
  savedMember : Nat := 0
  savedMembers : List Nat := []
  /-- Member index to output port (R463), and routes not yet live. -/
  routes : Tbl Nat := []
  routesNext : Option (Tbl Nat) := none
  spans : Tbl Span := []
  scatters : Tbl Scatter := []
  subs : List SubPacket := []
  /-- FRAME_OFF of this member toward constellation numbering (R464). -/
  frameOff : Int := 0
  /-- The member that is foreman now (R473), and whether firmware has begun its own FORM (R542). -/
  foreman : Nat := 0
  formAsked : Bool := false
  deriving DecidableEq, Repr

/-- The fabric of the module. Ports 0 to 11. -/
structure Fabric where
  ports : Tbl Port := []
  received : List Message := []
  sent : List Message := []
  nextTag : Nat := 0
  mirrorPort : Nat := 10
  deriving DecidableEq, Repr

end Sys2Proof.Machine
end

