-- ==== Sys2Proof/Machine/Parts/Media.lean ====
section
/-!
DEFINITION. The NAND media: dies, quads, checkpoints, hold-up, patrol and retirement (spec/14_flash_media.md).
-/
namespace Sys2Proof.Machine

/-- An operation on a die. -/
inductive DieOp
  | program | erase
  deriving DecidableEq, Repr

/-- What a die is doing (R376 to R379). -/
structure Die where
  op : Option DieOp := none
  /-- Planned end of the operation, powered ns. -/
  endNs : Nat := 0
  suspensions : Nat := 0
  suspended : Bool := false
  /-- It has reached its limit and runs to completion (R378). -/
  limited : Bool := false
  /-- Frame-critical slots pending, and the powered times of those of the last 64 ms. -/
  critical : Nat := 0
  slotTimes : List Nat := []
  erased : Nat := 4
  /-- Open quads with their write pointers, and next quads, of the last completed checkpoint (R383). -/
  openQuads : List (Nat × Nat) := []
  nextQuads : List Nat := []
  /-- Block of the operation. -/
  opBlock : Nat := 0
  deriving DecidableEq, Repr

/-- What a quad holds (R390, R391): its valid pages, erases, reads since its last erase, the powered time of its last
write, whether it is withdrawn, and whether a page of it decoded at D2 or above. -/
structure Quad where
  valid : Nat := 0
  opened : Bool := false
  erases : Nat := 0
  reads : Nat := 0
  writtenNs : Nat := 0
  withdrawn : Bool := false
  /-- Block erases of the whole drift that passed it over (R605). -/
  skipped : Nat := 0
  decodedHigh : Bool := false
  deriving DecidableEq, Repr

/-- A drift's media (Table Flash 5). Dies by number; quads by die * 2048 + block; spares by plane. -/
structure Drift where
  dies : Tbl Die := []
  quads : Tbl Quad := []
  spares : Tbl Nat := []
  /-- Block erases of all its quads (R605). -/
  allErases : Nat := 0
  suspCnt : Nat := 0
  limitCnt : Nat := 0
  retryCnt : Nat := 0
  ueCnt : Nat := 0
  gcThrottleAt : Option Nat := none
  waiting : Bool := false
  deriving DecidableEq, Repr

/-- Buffered data in the write buffer (R381, R382): namespace, LBA, class J, bytes, marked by the checkpoint, and what
the block held before. -/
structure Buffered where
  nsid : Nat
  lba : Nat
  classJ : Bool
  bytes : Nat
  marked : Bool := false
  old : Option SectorState := none
  deriving DecidableEq, Repr

/-- How a hold-up flush ended: whether the A delta log, and then the flush-complete record, reached the journal, and the
buffered sectors whose data did (R381, R386). -/
structure FlushEnd where
  delta : Bool
  complete : Bool
  programmed : List (Nat × Nat)
  deriving DecidableEq, Repr

/-- A Flush that waits for a checkpoint (R129, R382). -/
structure PendingFlush where
  fn : Nat
  sqid : Nat
  cid : Nat
  nsids : List Nat
  /-- The checkpoint that must complete. -/
  needs : Nat
  deriving DecidableEq, Repr

/-- The media of the module (R365 to R397). -/
structure Media where
  q246 : Bool := false
  drifts : Tbl Drift := []
  seqNo : Nat := 0
  /-- A checkpoint in progress, its number, and the last completed number. -/
  ckptRunning : Option Nat := none
  ckptDone : Nat := 0
  ckptBegan : Nat := 0
  buffer : List Buffered := []
  flushes : List PendingFlush := []
  /-- A delta log: map changes of class A since the last checkpoint (namespace, LBA) (R381). -/
  deltaLog : List (Nat × Nat) := []
  /-- What the last hold-up flush left: the delta log reached the journal, and the flush-complete record did. -/
  deltaDurable : Bool := true
  flushComplete : Bool := true
  /-- Class A sectors that were buffered at the loss and did not reach NAND, with what they held before (R386). -/
  unflushed : List (Nat × Nat × Option SectorState) := []
  mounted : Bool := false
  healthPct : Nat := 0
  holdupDegr : Bool := false
  /-- A cause of R388 (0 test, 1 HEALTH, 2 bank voltage) and the frame it was found in; a passed test and its frame. -/
  degrPending : Option (Nat × Nat) := none
  restorePending : Option Nat := none
  capTestAt : Option Nat := none
  /-- PATROL_HOURS in force, and as written (class L). -/
  patrolHours : Nat := 72
  patrolNext : Nat := 72
  patrolStart : Nat := 0
  patrolPages : Nat := 0
  patrolHigh : Nat := 0
  wp : Bool := false
  avSpare : Nat := 100
  spareLow : Bool := false
  smartBit0 : Bool := false
  smartBit2 : Bool := false
  /-- Map pages pinned to record views: object number to its pages as (NSID, drift * 2^32 + map page), newest use last (R371). -/
  pinnedViews : List (Nat × List (Nat × Nat)) := []
  wrq : Bool := false
  deriving DecidableEq, Repr

end Sys2Proof.Machine
end

