-- ==== Sys2Proof/Machine/Parts/Units.lean ====
section
/-!
DEFINITION. The unit table, the firmware flash and firmware activation (spec/18_units_resets_and_updates.md).
-/
namespace Sys2Proof.Machine

/-- Unit states (Table Unit 2), in the order of their codes. -/
inductive UState
  | active | contested | quiescing | held | resetting | off | outOfService
  deriving DecidableEq, Repr

/-- The code and rank of a state (Table Unit 2). -/
def UState.code : UState → Nat
  | .active => 0 | .contested => 1 | .quiescing => 2 | .held => 3 | .resetting => 4 | .off => 5 | .outOfService => 6

/-- The unit operations that change a state and complete later (Table Unit 4). -/
inductive UnitOp
  | reset | outOfService | ret | probe | hold
  deriving DecidableEq, Repr

/-- A UNIT CONTROL or a management request that has been granted (R510, R590); a management request has no CQE. -/
structure UnitWait where
  op : UnitOp
  fn : Nat := 0
  sqid : Nat := 0
  cid : Nat := 0
  mgmt : Bool := false
  deriving DecidableEq, Repr

/-- One unit (Table Unit 3). -/
structure UnitEntry where
  state : UState := .active
  /-- A drain that a loss or a power-off ended early; its state is applied when the unit returns (R504, R514 edges). -/
  kept : Option UnitOp := none
  wrq : Bool := false
  mgmt : Bool := false
  probe : Bool := false
  /-- Powered times of its recovery resets of the last 24 hours. -/
  recov : List Nat := []
  epoch : Nat := 1
  faults : Nat := 0
  changed : Nat := 0
  /-- State held before CONTESTED; the observation that waits, with the frame of its arrival; the one a probe decides. -/
  before : UState := .active
  observed : Option (Nat × Nat) := none
  observing : Option Nat := none
  /-- The drain's own purpose, and the tick it began. -/
  drain : Option UnitOp := none
  drainFrame : Nat := 0
  /-- Granted operations that have not begun, with the frame of the grant (R504, R511). -/
  asked : List (UnitOp × Nat) := []
  waits : List UnitWait := []
  /-- Old epoch for the UNIT_RESET of the running reset, its cause, and its result once it has ended. -/
  oldEpoch : Nat := 1
  resetCause : Nat := 0
  resetDone : Option Bool := none
  /-- A reconciliation probe passed: the state returns at the next tick (R509). -/
  probePassed : Bool := false
  /-- Q_WRITE_IGNORED was raised for it in this frame. -/
  qRaised : Bool := false
  deriving DecidableEq, Repr

/-- A firmware image in a slot, as far as the boot ROM and Firmware Commit judge it (R520, R603). -/
structure ImageInfo where
  version : Nat := 0
  svn : Nat := 0
  raise : Bool := false
  verifies : Bool := false
  deriving DecidableEq, Repr

/-- A suspended or running flash operation (R526 to R530). -/
structure FlashOp where
  /-- 1 program, 2 erase, 3 program during erase suspend. -/
  op : Nat
  bank : Nat
  addr : Nat
  data : List Byte := []
  deriving DecidableEq, Repr

/-- A bank of the firmware flash (R519): its bytes, each held as its complement, so that an unlisted byte reads as erased
(0xFF); and its boot area's seal (R522). -/
structure Bank where
  bytes : Cells := []
  image : Option ImageInfo := none
  sealed : Bool := false
  areaSeq : Nat := 0
  /-- The slot that the boot record of its boot area names. -/
  bootSlot : Nat := 1
  /-- Abandoned operations, whose bytes read as any of the values R530 allows. -/
  loose : List FlashOp := []
  deriving DecidableEq, Repr

/-- The firmware flash block and the flash behind it (Table Unit 9). -/
structure Flash where
  banks : Tbl Bank := []
  runningSlot : Nat := 1
  runningBank : Nat := 0
  hostOwns : Bool := false
  /-- Arming: 0 none, 1 after 0x5A3C, 2 armed (R525). -/
  arm : Nat := 0
  addr : Nat := 0
  buf : Cells := []
  win : Nat := 0
  errKey : Bool := false
  errOwn : Bool := false
  errSeq : Bool := false
  wrq : Bool := false
  busy : Option FlashOp := none
  susp : Option FlashOp := none
  suspCnt : Nat := 0
  /-- Cycles of the array-mode sequence so far (R527). -/
  cycles : List Nat := []
  /-- A PF reset has taken the ownership; firmware has not yet acted on it (R532). -/
  resetAsked : Bool := false
  /-- The areas of the old bank are not yet erased (R522 step 4). -/
  oldAreas : Bool := false
  deriving DecidableEq, Repr

/-- Activation without a reset (Table Unit 8). -/
structure Activation where
  /-- 0 none; otherwise the step last begun. -/
  step : Nat := 0
  fn : Nat := 0
  sqid : Nat := 0
  cid : Nat := 0
  slot : Nat := 0
  /-- Powered times of steps 2 and 3. -/
  t2 : Nat := 0
  t3 : Nat := 0
  pp : Bool := false
  /-- Frame of the Commit, or of the step that reopens admission. -/
  since : Nat := 0
  /-- A failed activation to report after the cold reset: slot and step. -/
  failed : Option (Nat × Nat) := none
  deriving DecidableEq, Repr

/-- The units of the module, keyed by unit number; an unlisted unit holds the reset entry. -/
structure Units where
  table : Tbl UnitEntry := []
  deriving DecidableEq, Repr

end Sys2Proof.Machine
end

