-- ==== Sys2Proof/Syntax.lean ====
section
/-!
DEFINITION. The commands of the block, one constructor per row of spec/opcode_table.json, with what each carries
from outside: the fields of the operation or command, what a sensor, a die or a peer reported, and `t`, the
powered time in ns at which it takes place (notes/assumptions/1.md and 2.md).
-/
namespace Sys2Proof

open Sys2Proof.Machine

/-- The scalar slots (Table Ruhaic 2). -/
inductive SSlot
  | s0 | s1
  deriving DecidableEq, Repr

/-- PRED and PNEG of a slot (R262). -/
structure Guard where
  pred : BitVec 3
  neg : Bool
  deriving DecidableEq, Repr


/-- A command as the module takes it from a submission queue (0: the admin queue): the powered time, the function (0
PF, n VF n), the queue and command identifiers, the NSID and command dwords, the bytes its data pointer brings to the
module, and the runs of host memory (address, length) that its data pointer names for data to the host. -/
structure Sqe where
  t : Nat
  fn : Nat
  sqid : Nat
  cid : Nat
  nsid : Nat
  d10 : BitVec 32
  d11 : BitVec 32
  d12 : BitVec 32
  d13 : BitVec 32
  d14 : BitVec 32
  d15 : BitVec 32
  data : List Byte
  buf : List (Nat × Nat)
  deriving DecidableEq, Repr

/-- Who a NAND page belongs to, as its tag names it (Table Flash 3): a namespace's 4 KiB sector, a 4 KiB sector of an
object's lode, a page of a namespace's map on the drift, or firmware's own page of a tag kind. -/
inductive PageOwner
  | space (nsid sector : Nat)
  | lode (number lode sector : Nat)
  | mapPage (nsid page : Nat)
  | own (kind : Nat)
  deriving DecidableEq, Repr

/-- The commands of the block: one constructor per row of the table of operations and events. -/
inductive Instr
  /-- `MERIDIAN_TICK` (R28). -/
  | meridianTick (t : Nat) (late : List Nat) (pit : Nat)
  /-- `TICK_ACK_LATE` (R29). -/
  | tickAckLate (t : Nat) (d : Nat)
  /-- `TICK_ACKNOWLEDGE` (R28). -/
  | tickAcknowledge (t : Nat) (d : Nat)
  /-- `DEADLINE_TICK` (R48). -/
  | deadlineTick (t : Nat)
  /-- `PERIOD_CHANGED` (R58). -/
  | periodChanged (t : Nat)
  /-- `ORRERY_ACTIVATED` (R75). -/
  | orreryActivated (t : Nat)
  /-- `CONTRACT_CHANGE_EFFECT` (R65). -/
  | contractChangeEffect (t : Nat)
  /-- `SQ_TAIL_DOORBELL` (R125). -/
  | sqTailDoorbell (t : Nat) (fn : Nat) (sqid : Nat) (kinds : List Bool)
  /-- `SUBMIT_WORK` (R151). -/
  | submitWork (q : Sqe) (psdt : Nat) (fuse : Nat) (prp1 : Nat) (pkt : Option (List Byte)) (list : Option (List Nat)) (param : Option (List Byte))
  /-- `SHIFT_RECORD_MIRROR_ACK` (R404). -/
  | shiftRecordMirrorAck (t : Nat) (key : Nat)
  /-- `ABORT_WORK` (R148). -/
  | abortWork (q : Sqe)
  /-- `SEAM_SEARCH` (R195). -/
  | seamSearch (t : Nat) (key : Nat)
  /-- `SEAM_SEARCH_FILTERED` (R193). -/
  | seamSearchFiltered (t : Nat) (key : Nat)
  /-- `SEAM_INSERT` (R202). -/
  | seamInsert (t : Nat) (key : Nat) (lodes : List Nat)
  /-- `SEAM_BUILD_CREATE` (R206). -/
  | seamBuildCreate (t : Nat) (key : Nat) (lodes : List Nat)
  /-- `SEAM_BUILD_LOAD` (R207). -/
  | seamBuildLoad (t : Nat) (key : Nat) (records : Nat) (lodes : List Nat)
  /-- `ATTEND` (R223). -/
  | attend (t : Nat) (key : Nat)
  /-- `APPEND_KV` (R218). -/
  | appendKv (t : Nat) (key : Nat) (lodes : List Nat)
  /-- `KV_OPEN` (R215). -/
  | kvOpen (t : Nat) (key : Nat) (lodes : List Nat)
  /-- `KV_CLOSE` (R220). -/
  | kvClose (t : Nat) (key : Nat)
  /-- `SIFT` (R244). -/
  | sift (t : Nat) (key : Nat) (parts : List (Nat × Nat)) (bad : Option Nat)
  /-- `EMBED` (R255). -/
  | embed (t : Nat) (key : Nat)
  /-- `EMBED_AND_INSERT` (R254). -/
  | embedAndInsert (t : Nat) (key : Nat) (lodes : List Nat)
  /-- `ASSAY` (R167). -/
  | assay (t : Nat) (key : Nat)
  /-- `RUN_PROGRAM` (R289). -/
  | runProgram (t : Nat) (key : Nat)
  /-- `PLACE_CREATE` (R163). -/
  | placeCreate (t : Nat) (key : Nat) (lodes : List Nat)
  /-- `PLACE_SET_PLACEMENT` (R318). -/
  | placeSetPlacement (t : Nat) (key : Nat)
  /-- `PLACE_DELETE` (R158). -/
  | placeDelete (t : Nat) (key : Nat)
  /-- `PIN` (R165). -/
  | pin (t : Nat) (key : Nat)
  /-- `UNPIN` (R165). -/
  | unpin (t : Nat) (key : Nat)
  /-- `PREFETCH` (R165). -/
  | prefetch (t : Nat) (key : Nat)
  /-- `FRAME_PROBE` (R168). -/
  | frameProbe (t : Nat) (key : Nat)
  /-- `ANSWER_DELIVERY` (R169). -/
  | answerDelivery (t : Nat) (key : Nat) (swaps : List (Nat × Nat)) (placed : List (Nat × Nat × Nat)) (ack : Bool) (failed : Bool)
  /-- `JOB_FAULT` (R408). -/
  | jobFault (t : Nat) (key : Nat) (ev : FaultEvent) (loc : Nat) (unit : Nat)
  /-- `WATCHDOG_OVERRUN` (R285). -/
  | watchdogOverrun (t : Nat) (core : Nat)
  /-- `ADD` (R266). -/
  | add (core : Nat) (sl : SSlot) (g : Guard) (xd : BitVec 5) (xa : BitVec 5) (xb : BitVec 5)
  /-- `SUB` (R266). -/
  | sub (core : Nat) (sl : SSlot) (g : Guard) (xd : BitVec 5) (xa : BitVec 5) (xb : BitVec 5)
  /-- `AND` (R266). -/
  | and (core : Nat) (sl : SSlot) (g : Guard) (xd : BitVec 5) (xa : BitVec 5) (xb : BitVec 5)
  /-- `OR` (R266). -/
  | or (core : Nat) (sl : SSlot) (g : Guard) (xd : BitVec 5) (xa : BitVec 5) (xb : BitVec 5)
  /-- `XOR` (R266). -/
  | xor (core : Nat) (sl : SSlot) (g : Guard) (xd : BitVec 5) (xa : BitVec 5) (xb : BitVec 5)
  /-- `SHL` (R266). -/
  | shl (core : Nat) (sl : SSlot) (g : Guard) (xd : BitVec 5) (xa : BitVec 5) (xb : BitVec 5)
  /-- `SHR` (R266). -/
  | shr (core : Nat) (sl : SSlot) (g : Guard) (xd : BitVec 5) (xa : BitVec 5) (xb : BitVec 5)
  /-- `SAR` (R266). -/
  | sar (core : Nat) (sl : SSlot) (g : Guard) (xd : BitVec 5) (xa : BitVec 5) (xb : BitVec 5)
  /-- `ADDI` (R266). -/
  | addi (core : Nat) (sl : SSlot) (g : Guard) (xd : BitVec 5) (xa : BitVec 5) (imm : BitVec 32)
  /-- `LI` (R266). -/
  | li (core : Nat) (sl : SSlot) (g : Guard) (xd : BitVec 5) (imm : BitVec 32)
  /-- `LUI` (R266). -/
  | lui (core : Nat) (sl : SSlot) (g : Guard) (xd : BitVec 5) (xa : BitVec 5) (imm : BitVec 32)
  /-- `MUL` (R266). -/
  | mul (core : Nat) (sl : SSlot) (g : Guard) (xd : BitVec 5) (xa : BitVec 5) (xb : BitVec 5)
  /-- `DIVU` (R266). -/
  | divu (core : Nat) (sl : SSlot) (g : Guard) (xd : BitVec 5) (xa : BitVec 5) (xb : BitVec 5)
  /-- `CMPEQ` (R266). -/
  | cmpeq (core : Nat) (sl : SSlot) (g : Guard) (xd : BitVec 5) (xa : BitVec 5) (xb : BitVec 5)
  /-- `CMPLT` (R266). -/
  | cmplt (core : Nat) (sl : SSlot) (g : Guard) (xd : BitVec 5) (xa : BitVec 5) (xb : BitVec 5)
  /-- `CMPLTU` (R266). -/
  | cmpltu (core : Nat) (sl : SSlot) (g : Guard) (xd : BitVec 5) (xa : BitVec 5) (xb : BitVec 5)
  /-- `FADD` (R266). -/
  | fadd (core : Nat) (sl : SSlot) (g : Guard) (xd : BitVec 5) (xa : BitVec 5) (xb : BitVec 5)
  /-- `FMUL` (R266). -/
  | fmul (core : Nat) (sl : SSlot) (g : Guard) (xd : BitVec 5) (xa : BitVec 5) (xb : BitVec 5)
  /-- `MOVPX` (R266). -/
  | movpx (core : Nat) (sl : SSlot) (g : Guard) (xd : BitVec 5) (xa : BitVec 5)
  /-- `MOVXP` (R266). -/
  | movxp (core : Nat) (sl : SSlot) (g : Guard) (xd : BitVec 5) (xa : BitVec 5)
  /-- `BR` (R267). -/
  | br (core : Nat) (g : Guard) (imm : BitVec 32)
  /-- `BRX` (R267). -/
  | brx (core : Nat) (g : Guard) (xa : BitVec 5)
  /-- `EXIT` (R269). -/
  | exit (core : Nat) (g : Guard) (xa : BitVec 5)
  /-- `LDX` (R270). -/
  | ldx (core : Nat) (g : Guard) (rd : BitVec 5) (xa : BitVec 5) (off : BitVec 32) (post : Bool)
  /-- `STX` (R270). -/
  | stx (core : Nat) (g : Guard) (rd : BitVec 5) (xa : BitVec 5) (off : BitVec 32) (post : Bool)
  /-- `LDV` (R270). -/
  | ldv (core : Nat) (g : Guard) (rd : BitVec 5) (xa : BitVec 5) (off : BitVec 32) (post : Bool)
  /-- `STV` (R270). -/
  | stv (core : Nat) (g : Guard) (rd : BitVec 5) (xa : BitVec 5) (off : BitVec 32) (post : Bool)
  /-- `LDVB` (R266). -/
  | ldvb (core : Nat) (g : Guard) (rd : BitVec 5) (xa : BitVec 5) (off : BitVec 32) (post : Bool)
  /-- `SGET` (R271). -/
  | sget (core : Nat) (g : Guard) (xa : BitVec 5) (xb : BitVec 5) (xc : BitVec 5) (token : BitVec 4) (win : BitVec 4)
  /-- `SPUT` (R272). -/
  | sput (core : Nat) (g : Guard) (xa : BitVec 5) (xb : BitVec 5) (xc : BitVec 5) (token : BitVec 4) (win : BitVec 4) (sig : Bool)
  /-- `SGATHER` (R266). -/
  | sgather (core : Nat) (g : Guard) (xa : BitVec 5) (xb : BitVec 5) (xc : BitVec 5) (off : BitVec 32) (token : BitVec 4) (win : BitVec 4)
  /-- `STREAM_COMPLETE` (R272). -/
  | streamComplete (core : Nat) (id : Nat)
  /-- `WAIT` (R273). -/
  | wait (core : Nat) (g : Guard) (token : BitVec 4) (off : BitVec 32)
  /-- `DRAIN` (R273). -/
  | drain (core : Nat) (g : Guard)
  /-- `TCLR` (R273). -/
  | tclr (core : Nat) (g : Guard) (token : BitVec 4)
  /-- `VADD` (R266). -/
  | vadd (core : Nat) (g : Guard) (vd : BitVec 5) (va : BitVec 5) (vb : BitVec 5) (et : BitVec 4)
  /-- `VSUB` (R266). -/
  | vsub (core : Nat) (g : Guard) (vd : BitVec 5) (va : BitVec 5) (vb : BitVec 5) (et : BitVec 4)
  /-- `VMUL` (R266). -/
  | vmul (core : Nat) (g : Guard) (vd : BitVec 5) (va : BitVec 5) (vb : BitVec 5) (et : BitVec 4) (rnd : BitVec 2)
  /-- `VMAX` (R266). -/
  | vmax (core : Nat) (g : Guard) (vd : BitVec 5) (va : BitVec 5) (vb : BitVec 5) (et : BitVec 4)
  /-- `VMIN` (R266). -/
  | vmin (core : Nat) (g : Guard) (vd : BitVec 5) (va : BitVec 5) (vb : BitVec 5) (et : BitVec 4)
  /-- `VAND` (R266). -/
  | vand (core : Nat) (g : Guard) (vd : BitVec 5) (va : BitVec 5) (vb : BitVec 5) (et : BitVec 4)
  /-- `VOR` (R266). -/
  | vor (core : Nat) (g : Guard) (vd : BitVec 5) (va : BitVec 5) (vb : BitVec 5) (et : BitVec 4)
  /-- `VXOR` (R266). -/
  | vxor (core : Nat) (g : Guard) (vd : BitVec 5) (va : BitVec 5) (vb : BitVec 5) (et : BitVec 4)
  /-- `VSHL` (R266). -/
  | vshl (core : Nat) (g : Guard) (vd : BitVec 5) (va : BitVec 5) (vb : BitVec 5) (et : BitVec 4)
  /-- `VSHR` (R266). -/
  | vshr (core : Nat) (g : Guard) (vd : BitVec 5) (va : BitVec 5) (vb : BitVec 5) (et : BitVec 4)
  /-- `VSAR` (R266). -/
  | vsar (core : Nat) (g : Guard) (vd : BitVec 5) (va : BitVec 5) (vb : BitVec 5) (et : BitVec 4)
  /-- `VFMA` (R266). -/
  | vfma (core : Nat) (g : Guard) (vd : BitVec 5) (va : BitVec 5) (vb : BitVec 5) (vc : BitVec 5) (et : BitVec 4)
  /-- `VCMP` (R266). -/
  | vcmp (core : Nat) (g : Guard) (vd : BitVec 5) (va : BitVec 5) (vb : BitVec 5) (et : BitVec 4) (imm : BitVec 32)
  /-- `VSEL` (R266). -/
  | vsel (core : Nat) (g : Guard) (vd : BitVec 5) (va : BitVec 5) (vb : BitVec 5)
  /-- `VCVT` (R294). -/
  | vcvt (core : Nat) (g : Guard) (vd : BitVec 5) (va : BitVec 5) (et : BitVec 4) (et2 : BitVec 4) (rnd : BitVec 2)
  /-- `VCVTS` (R279). -/
  | vcvts (core : Nat) (g : Guard) (vd : BitVec 5) (va : BitVec 5) (et : BitVec 4) (et2 : BitVec 4) (rnd : BitVec 2) (imm : BitVec 32)
  /-- `VEXP` (R266). -/
  | vexp (core : Nat) (g : Guard) (vd : BitVec 5) (va : BitVec 5) (et : BitVec 4)
  /-- `VRCP` (R266). -/
  | vrcp (core : Nat) (g : Guard) (vd : BitVec 5) (va : BitVec 5) (et : BitVec 4)
  /-- `ACCRD` (R266). -/
  | accrd (core : Nat) (g : Guard) (vd : BitVec 5) (va : BitVec 5)
  /-- `ACCWR` (R264). -/
  | accwr (core : Nat) (g : Guard) (vd : BitVec 5) (va : BitVec 5)
  /-- `ACCCLR` (R266). -/
  | accclr (core : Nat) (g : Guard) (vd : BitVec 5)
  /-- `VREDADD` (R266). -/
  | vredadd (core : Nat) (g : Guard) (vd : BitVec 5) (va : BitVec 5) (et : BitVec 4)
  /-- `VREDMAX` (R266). -/
  | vredmax (core : Nat) (g : Guard) (vd : BitVec 5) (va : BitVec 5) (et : BitVec 4)
  /-- `VPERM` (R266). -/
  | vperm (core : Nat) (g : Guard) (vd : BitVec 5) (va : BitVec 5) (vb : BitVec 5)
  /-- `VBCAST` (R266). -/
  | vbcast (core : Nat) (g : Guard) (vd : BitVec 5) (va : BitVec 5) (et : BitVec 4)
  /-- `VTAP` (R304). -/
  | vtap (core : Nat) (g : Guard) (va : BitVec 5) (et : BitVec 4) (imm : BitVec 32)
  /-- `MAC` (R277). -/
  | mac (core : Nat) (g : Guard) (ad : BitVec 3) (va : BitVec 5) (vb : BitVec 5) (eta : BitVec 4) (etb : BitVec 4) (clr : Bool)
  /-- `TLOAD` (R281). -/
  | tload (core : Nat) (g : Guard) (xc : BitVec 5) (imm : BitVec 32)
  /-- `TBUILD` (R281). -/
  | tbuild (core : Nat) (g : Guard) (va : BitVec 5) (imm : BitVec 32)
  /-- `TACC` (R282). -/
  | tacc (core : Nat) (g : Guard) (ad : BitVec 3) (va : BitVec 5) (imm : BitVec 32)
  /-- `LOOP` (R268). -/
  | loop (core : Nat) (lc : BitVec 2) (xa : BitVec 5) (last : BitVec 20) (cnt : BitVec 12)
  /-- `RESULT_WRITEBACK` (R263). -/
  | resultWriteback (core : Nat)
  /-- `WINDOW_END` (R96). -/
  | windowEnd (t : Nat) (ptm : Int) (pin : Int) (fab : Int) (twin : Int)
  /-- `REFERENCE_LOSS_OF_SIGNAL` (R97). -/
  | referenceLossOfSignal (t : Nat) (r : Ref) (jump : Bool)
  /-- `PIN_MARK` (R623). -/
  | pinMark (t : Nat)
  /-- `PTM_DIALOG` (R93). -/
  | ptmDialog (t : Nat) (ok : Bool) (master : Nat)
  /-- `HOLDOVER_EXPIRED` (R101). -/
  | holdoverExpired (t : Nat)
  /-- `WAIT_TO_RESTORE_EXPIRY` (R107). -/
  | waitToRestoreExpiry (t : Nat)
  /-- `LOD_CMD_SWITCH` (R107). -/
  | lodCmdSwitch (t : Nat) (v : BitVec 32)
  /-- `SURVEY_STALE` (R114). -/
  | surveyStale (t : Nat) (member : Nat) (boot : Option Nat)
  /-- `SET_FEATURES_FRAME_PERIOD` (R57). -/
  | setFeaturesFramePeriod (q : Sqe) (both : Bool) (peer : Option Nat)
  /-- `GET_FEATURES_FRAME_PERIOD` (R55). -/
  | getFeaturesFramePeriod (q : Sqe)
  /-- `SET_FEATURES_LODESTAR_CONFIG` (R109). -/
  | setFeaturesLodestarConfig (q : Sqe)
  /-- `GET_FEATURES_LODESTAR_CONFIG` (R108). -/
  | getFeaturesLodestarConfig (q : Sqe)
  /-- `SET_FEATURES_TIMESTAMP` (R111). -/
  | setFeaturesTimestamp (q : Sqe)
  /-- `GET_FEATURES_TIMESTAMP` (R111). -/
  | getFeaturesTimestamp (q : Sqe)
  /-- `SET_FEATURES_PLACEMENT_DEFAULTS` (R319). -/
  | setFeaturesPlacementDefaults (q : Sqe)
  /-- `GET_FEATURES_PLACEMENT_DEFAULTS` (R319). -/
  | getFeaturesPlacementDefaults (q : Sqe)
  /-- `SET_FEATURES_ASSAY_MODE` (R302). -/
  | setFeaturesAssayMode (q : Sqe)
  /-- `GET_FEATURES_ASSAY_MODE` (R302). -/
  | getFeaturesAssayMode (q : Sqe)
  /-- `SET_FEATURES_VOLATILE_WRITE_CACHE` (R128). -/
  | setFeaturesVolatileWriteCache (q : Sqe)
  /-- `SET_FEATURES_POWER_MANAGEMENT` (R481). -/
  | setFeaturesPowerManagement (q : Sqe)
  /-- `GET_FEATURES_POWER_MANAGEMENT` (R481). -/
  | getFeaturesPowerManagement (q : Sqe)
  /-- `TRIM_TO_FEWER_DOMAINS` (R482). -/
  | trimToFewerDomains (t : Nat)
  /-- `DOMAIN_POWER_OFF` (R482). -/
  | domainPowerOff (t : Nat)
  /-- `DOMAIN_POWER_ON` (R483). -/
  | domainPowerOn (t : Nat)
  /-- `CORE_READY` (R483). -/
  | coreReady (t : Nat) (n : Nat)
  /-- `LANTERN_ENTRY` (R484). -/
  | lanternEntry (t : Nat)
  /-- `WAKE` (R489). -/
  | wake (t : Nat) (src : Nat)
  /-- `CLOCK_STOP` (R492). -/
  | clockStop (t : Nat) (d : Nat) (idleNs : Nat)
  /-- `CLOCK_WAKE` (R492). -/
  | clockWake (t : Nat) (d : Nat)
  /-- `CROSSING_STALL` (R493). -/
  | crossingStall (t : Nat) (u : Nat) (cycles : Nat)
  /-- `TEMPERATURE_SAMPLE` (R476). -/
  | temperatureSample (t : Nat) (d : Nat) (temp : Int)
  /-- `INPUT_POWER_SAMPLE` (R476). -/
  | inputPowerSample (t : Nat) (w : Nat)
  /-- `THERMAL_STEP` (R495). -/
  | thermalStep (t : Nat)
  /-- `THERMAL_RESTORE` (R495). -/
  | thermalRestore (t : Nat)
  /-- `THERMAL_CRITICAL` (R497). -/
  | thermalCritical (t : Nat)
  /-- `THERMAL_CRITICAL_RETURN` (R497). -/
  | thermalCriticalReturn (t : Nat)
  /-- `UNIT_OBSERVE` (R508). -/
  | unitObserve (t : Nat) (u : Nat) (st : Nat)
  /-- `UNIT_CONTESTED` (R508). -/
  | unitContested (t : Nat) (u : Nat)
  /-- `RECONCILIATION_PROBE_END` (R509). -/
  | reconciliationProbeEnd (t : Nat) (u : Nat) (pass : Bool)
  /-- `UNIT_REQUEST` (R590). -/
  | unitRequest (t : Nat) (op : Nat) (u : Nat)
  /-- `UNIT_CONTROL_READ` (R510). -/
  | unitControlRead (q : Sqe)
  /-- `UNIT_CONTROL_RESET` (R511). -/
  | unitControlReset (q : Sqe)
  /-- `UNIT_CONTROL_OUT_OF_SERVICE` (R510). -/
  | unitControlOutOfService (q : Sqe)
  /-- `UNIT_CONTROL_RETURN` (R510). -/
  | unitControlReturn (q : Sqe)
  /-- `UNIT_CONTROL_PROBE` (R510). -/
  | unitControlProbe (q : Sqe)
  /-- `UNIT_CONTROL_HOLD` (R510). -/
  | unitControlHold (q : Sqe)
  /-- `FLASH_OWN` (R510). -/
  | flashOwn (q : Sqe) (erased : Bool)
  /-- `FLASH_RELEASE` (R510). -/
  | flashRelease (q : Sqe)
  /-- `COLD_RESET` (R518). -/
  | coldReset (q : Sqe)
  /-- `QUIESCE_REQUEST` (R511). -/
  | quiesceRequest (t : Nat) (u : Nat)
  /-- `DRAIN_END` (R512). -/
  | drainEnd (t : Nat) (u : Nat) (left : List Nat)
  /-- `UNIT_RESET` (R513). -/
  | unitReset (t : Nat) (u : Nat) (pass : Bool)
  /-- `UNIT_LOST` (R515). -/
  | unitLost (t : Nat) (u : Nat) (cause : Nat)
  /-- `MODULE_FAULT` (R422). -/
  | moduleFault (t : Nat) (cause : Nat)
  /-- `STRUCT_REPAIRED` (R403). -/
  | structRepaired (t : Nat) (kind : Nat) (intact : Bool) (mirrored : Bool)
  /-- `CONTRACT_SET` (R65). -/
  | contractSet (q : Sqe)
  /-- `ORRERY_LOAD` (R72). -/
  | orreryLoad (q : Sqe)
  /-- `ALMANAC_BURN_READ` (R545). -/
  | almanacBurnRead (q : Sqe)
  /-- `ALMANAC_BURN_STAGE` (R546). -/
  | almanacBurnStage (q : Sqe)
  /-- `ALMANAC_BURN_COMMIT` (R547). -/
  | almanacBurnCommit (q : Sqe) (bad : Option Nat)
  /-- `ALMANAC_BURN_DISCARD` (R546). -/
  | almanacBurnDiscard (q : Sqe)
  /-- `STAGED_BURN_EXPIRY` (R546). -/
  | stagedBurnExpiry (t : Nat)
  /-- `PAIR_CONTROL_STATUS` (R441). -/
  | pairControlStatus (q : Sqe)
  /-- `BIND_STAGE` (R442). -/
  | bindStage (q : Sqe) (peerKey : List Byte)
  /-- `BIND_COMMIT` (R442). -/
  | bindCommit (q : Sqe) (bad : Option Nat)
  /-- `UNBIND` (R441). -/
  | unbind (q : Sqe) (bad : Option Nat)
  /-- `SPLIT` (R452). -/
  | split (q : Sqe)
  /-- `REJOIN` (R453). -/
  | rejoin (q : Sqe)
  /-- `TAKEOVER_CQ` (R457). -/
  | takeoverCq (q : Sqe)
  /-- `MIRROR_MASK` (R445). -/
  | mirrorMask (q : Sqe)
  /-- `ROLE` (R461). -/
  | role (q : Sqe)
  /-- `SPAN_SET` (R465). -/
  | spanSet (q : Sqe)
  /-- `SPAN_CLEAR` (R441). -/
  | spanClear (q : Sqe)
  /-- `SURVEY_FORM` (R462). -/
  | surveyForm (q : Sqe) (found : List Nat) (clash : Bool) (routes : List (Nat × Nat)) (tables : List (Nat × List (Nat × Nat)))
  /-- `SURVEY` (R113). -/
  | survey (q : Sqe)
  /-- `BINARY_PORT_LINK_UP` (R439). -/
  | binaryPortLinkUp (t : Nat) (p : Nat) (certs : Bool) (keyHash : List Byte) (namesUs : Bool) (pairId : Nat) (side : Bool) (boot : Nat) (solo : Bool) (inSplit : Bool) (marks : List Nat) (changes : List Nat)
  /-- `PAIR_DETECT_CHANGE` (R440). -/
  | pairDetectChange (t : Nat) (heldNs : Nat) (level : Bool)
  /-- `PAIR_LOST` (R448). -/
  | pairLost (t : Nat)
  /-- `PAIR_PARTITION` (R449). -/
  | pairPartition (t : Nat)
  /-- `PAIR_WAIT_EXPIRY` (R450). -/
  | pairWaitExpiry (t : Nat)
  /-- `RESYNC_DONE` (R453). -/
  | resyncDone (t : Nat)
  /-- `RESYNC_REGION_COPY` (R453). -/
  | resyncRegionCopy (t : Nat) (item : Nat) (object : Bool)
  /-- `PAIR_SEQUENCE_REQUEST` (R443). -/
  | pairSequenceRequest (t : Nat) (tag : Nat)
  /-- `MIRROR_WRITE_RECEIVED` (R444). -/
  | mirrorWriteReceived (t : Nat) (seq : Nat) (op : MirrorOp)
  /-- `WIRE_FRAME_RECEIVED` (R431). -/
  | wireFrameReceived (t : Nat) (p : Nat) (frame : List Byte) (corrected : Bool) (failed : Bool) (poison : BitVec 4)
  /-- `NAK` (R432). -/
  | nak (t : Nat) (p : Nat)
  /-- `CREDIT_RETURN` (R433). -/
  | creditReturn (t : Nat) (p : Nat)
  /-- `TICK_MARKER` (R434). -/
  | tickMarker (t : Nat) (p : Nat) (from_ : Nat) (sel : Nat) (period : Nat)
  /-- `FAULT_NOTICE` (R434). -/
  | faultNotice (t : Nat) (p : Nat)
  /-- `FABRIC_PORT_DOWN` (R432). -/
  | fabricPortDown (t : Nat) (p : Nat) (silent : Bool) (retrainFailed : Bool)
  /-- `ROUTE_CHANGED` (R463). -/
  | routeChanged (t : Nat) (down : Nat) (routes : List (Nat × Nat)) (tables : List (Nat × List (Nat × Nat)))
  /-- `SUBPACKET` (R468). -/
  | subpacket (t : Nat) (b : SubPacket)
  /-- `RESULT` (R469). -/
  | result (t : Nat) (tag : Nat) (r : ShardResult) (poisoned : Bool)
  /-- `SUBPACKET_CANCEL` (R473). -/
  | subpacketCancel (t : Nat) (member : Nat) (tag : Nat)
  /-- `MEMBER_LOST` (R471). -/
  | memberLost (t : Nat) (m : Nat)
  /-- `FOREMAN_CHANGED` (R473). -/
  | foremanChanged (t : Nat) (spans : List Span)
  /-- `NVM_READ` (R126). -/
  | nvmRead (q : Sqe)
  /-- `NVM_WRITE` (R128). -/
  | nvmWrite (q : Sqe) (ack : Bool) (seq : Option Nat)
  /-- `WRITE_ZEROES` (R133). -/
  | writeZeroes (q : Sqe) (ack : Bool) (seq : Option Nat)
  /-- `DATASET_MANAGEMENT_DEALLOCATE` (R131). -/
  | datasetManagementDeallocate (q : Sqe) (ack : Bool) (seq : Option Nat)
  /-- `FLUSH` (R129). -/
  | flush (q : Sqe) (ack : Bool)
  /-- `NAMESPACE_MANAGEMENT_CREATE` (R121). -/
  | namespaceManagementCreate (q : Sqe) (pick : Nat)
  /-- `NAMESPACE_ATTACHMENT` (R120). -/
  | namespaceAttachment (q : Sqe)
  /-- `MEMORY_READ` (R361). -/
  | memoryRead (q : Sqe) (set : Nat) (handle : Nat) (off : Nat) (len : Nat)
  /-- `MEMORY_WRITE` (R362). -/
  | memoryWrite (q : Sqe) (set : Nat) (handle : Nat) (off : Nat) (swaps : List (Nat × Nat)) (placed : List (Nat × Nat × Nat)) (ack : Bool)
  /-- `LOAD_PROGRAM` (R134). -/
  | loadProgram (q : Sqe) (slot : Nat) (vendor : Bool) (unload : Bool) (swaps : List (Nat × Nat)) (placed : List (Nat × Nat × Nat)) (ack : Bool)
  /-- `PROGRAM_ACTIVATION_MANAGEMENT` (R134). -/
  | programActivationManagement (q : Sqe) (slot : Nat) (active : Bool)
  /-- `EXECUTE_PROGRAM` (R135). -/
  | executeProgram (q : Sqe) (slot : Nat) (set : Nat) (entry : Nat) (cores : Nat) (input : Option MemRange) (output : Option MemRange)
  /-- `MEMORY_RANGE_SET_MANAGEMENT` (R134). -/
  | memoryRangeSetManagement (q : Sqe) (op : Nat) (id : Nat) (ranges : List MemRange)
  /-- `GET_LOG_PAGE_EVENT_LOG` (R639). -/
  | getLogPageEventLog (q : Sqe)
  /-- `GET_LOG_PAGE_TALLY_SNAPSHOT` (R575). -/
  | getLogPageTallySnapshot (q : Sqe)
  /-- `TALLY_READ_AND_CLEAR` (R576). -/
  | tallyReadAndClear (q : Sqe)
  /-- `GET_LOG_PAGE_TENANT_PERCENTILES` (R90). -/
  | getLogPageTenantPercentiles (q : Sqe)
  /-- `GET_LOG_PAGE_SHIFT_BOOK_STATUS` (R407). -/
  | getLogPageShiftBookStatus (q : Sqe)
  /-- `GET_LOG_PAGE_UNIT_TABLE` (R506). -/
  | getLogPageUnitTable (q : Sqe)
  /-- `GET_LOG_PAGE_SMART` (R610). -/
  | getLogPageSmart (q : Sqe)
  /-- `GET_LOG_PAGE_SANITIZE_STATUS` (R606). -/
  | getLogPageSanitizeStatus (q : Sqe)
  /-- `ASYNCHRONOUS_EVENT_REQUEST` (R640). -/
  | asynchronousEventRequest (q : Sqe)
  /-- `EVENT_LOG_PERSIST` (R424). -/
  | eventLogPersist (t : Nat) (failed : Bool)
  /-- `LOG_RELOCATED` (R425). -/
  | logRelocated (t : Nat) (lost : List Nat) (areaFailed : Bool)
  /-- `LOG_LAST_GASP` (R426). -/
  | logLastGasp (t : Nat) (cause : Nat) (readable : Bool)
  /-- `FIRMWARE_IMAGE_DOWNLOAD` (R520). -/
  | firmwareImageDownload (q : Sqe) (readBack : Bool)
  /-- `FIRMWARE_COMMIT_REPLACE` (R520). -/
  | firmwareCommitReplace (q : Sqe) (i : ImageInfo)
  /-- `FIRMWARE_COMMIT_REPLACE_ACTIVATE_RESET` (R520). -/
  | firmwareCommitReplaceActivateReset (q : Sqe) (i : ImageInfo)
  /-- `FIRMWARE_COMMIT_ACTIVATE_RESET` (R520). -/
  | firmwareCommitActivateReset (q : Sqe) (i : ImageInfo)
  /-- `FIRMWARE_COMMIT_ACTIVATE_NOW` (R521). -/
  | firmwareCommitActivateNow (q : Sqe) (i : ImageInfo)
  /-- `ACTIVATION_ADMISSION_CLOSE` (R521). -/
  | activationAdmissionClose (t : Nat)
  /-- `ACTIVATION_START` (R521). -/
  | activationStart (t : Nat)
  /-- `FW_ACTIVATED` (R521). -/
  | fwActivated (t : Nat) (bad : Option Nat)
  /-- `ACTIVATION_ADMISSION_REOPEN` (R521). -/
  | activationAdmissionReopen (t : Nat)
  /-- `ACTIVATION_TIMEOUT` (R523). -/
  | activationTimeout (t : Nat)
  /-- `FW_ACTIVATE_FAILED` (R523). -/
  | fwActivateFailed (t : Nat) (f : FlushEnd)
  /-- `SANITIZE_CRYPTO_ERASE` (R605). -/
  | sanitizeCryptoErase (q : Sqe)
  /-- `SANITIZE_BLOCK_ERASE` (R605). -/
  | sanitizeBlockErase (q : Sqe)
  /-- `SANITIZE_RESUME` (R606). -/
  | sanitizeResume (t : Nat)
  /-- `CONTROLLER_LEVEL_RESET` (R139). -/
  | controllerLevelReset (t : Nat) (fn : Nat)
  /-- `FUNCTION_LEVEL_RESET` (R140). -/
  | functionLevelReset (t : Nat) (fn : Nat)
  /-- `SURPRISE_LINK_DOWN` (R140). -/
  | surpriseLinkDown (t : Nat)
  /-- `CONTROLLER_ENABLE` (R534). -/
  | controllerEnable (t : Nat) (fn : Nat) (mps : Nat) (queues : List (Nat × Nat)) (depths : List (Nat × Nat))
  /-- `NORMAL_SHUTDOWN` (R550). -/
  | normalShutdown (t : Nat) (fn : Nat)
  /-- `ABRUPT_SHUTDOWN` (R141). -/
  | abruptShutdown (t : Nat) (fn : Nat)
  /-- `CONFIG_REQUEST` (R533). -/
  | configRequest (t : Nat)
  /-- `LINK_RATE_CHANGE` (R117). -/
  | linkRateChange (t : Nat) (rateGt : Nat) (width : Nat) (flit : Bool)
  /-- `POISONED_TLP_RECEIVED` (R117). -/
  | poisonedTlpReceived (q : Sqe)
  /-- `IDE_FAILURE` (R599). -/
  | ideFailure (t : Nat) (dropped : List Nat)
  /-- `IDE_KM` (R599). -/
  | ideKm (t : Nat) (msg : Nat) (arg : Nat)
  /-- `PERST` (R618). -/
  | perst (t : Nat) (lowNs : Nat) (f : FlushEnd)
  /-- `PWRDIS` (R619). -/
  | pwrdis (t : Nat) (heldNs : Nat) (high : Bool)
  /-- `INPUT_POWER_LOSS` (R631). -/
  | inputPowerLoss (t : Nat)
  /-- `HOLDUP_FLUSH_END` (R631). -/
  | holdupFlushEnd (t : Nat) (f : FlushEnd)
  /-- `INPUT_POWER_GOOD` (R616). -/
  | inputPowerGood (heldNs : Nat) (lowNs : Nat)
  /-- `START_UP` (R533). -/
  | startUp
  /-- `BOOT` (R535). -/
  | boot (t : Nat) (slot1 : ImageInfo) (slot2 : ImageInfo)
  /-- `BOOT_COUNT_WRITE` (R27). -/
  | bootCountWrite (t : Nat)
  /-- `STEWARDS_START` (R533). -/
  | stewardsStart (t : Nat) (tests : Bool) (bad : Option Nat)
  /-- `TIER_H_PREPARE` (R536). -/
  | tierHPrepare (t : Nat) (trained : Bool)
  /-- `MOUNT` (R384). -/
  | mount (t : Nat) (loaded : Bool) (pages : Nat) (recovered : List (Nat × Nat))
  /-- `STAGE_READY` (R534). -/
  | stageReady (t : Nat)
  /-- `RESIDENCY_COMPLETE` (R538). -/
  | residencyComplete (t : Nat)
  /-- `ADMISSION_OPEN` (R539). -/
  | admissionOpen (t : Nat)
  /-- `FOREMAN_AUTO_FORM` (R542). -/
  | foremanAutoForm (t : Nat) (found : List Nat) (clash : Bool) (routes : List (Nat × Nat)) (tables : List (Nat × List (Nat × Nat)))
  /-- `CHECKPOINT_BEGIN` (R382). -/
  | checkpointBegin (t : Nat) (fifth : Bool)
  /-- `CHECKPOINT_COMPLETE` (R382). -/
  | checkpointComplete (t : Nat) (quads : List (Nat × Nat × List (Nat × Nat) × List Nat))
  /-- `NAND_READ_COMPLETE` (R374). -/
  | nandReadComplete (t : Nat) (drift : Nat) (die : Nat) (plane : Nat) (block : Nat) (page : Nat) (sector : Nat) (level : Nat) (critical : Bool) (patrol : Bool) (recovered : Bool) (owner : PageOwner)
  /-- `NAND_OPERATION_COMPLETE` (R379). -/
  | nandOperationComplete (t : Nat) (drift : Nat) (die : Nat) (pages : Nat) (failed : Option Nat) (programmed : List (Nat × Nat))
  /-- `NAND_OPERATION_START` (R379). -/
  | nandOperationStart (t : Nat) (drift : Nat) (die : Nat) (block : Nat) (erase : Bool) (data : Bool) (planned : Nat)
  /-- `NAND_SUSPEND` (R377). -/
  | nandSuspend (t : Nat) (drift : Nat) (die : Nat) (slots : Nat)
  /-- `NAND_RESUME` (R377). -/
  | nandResume (t : Nat) (drift : Nat) (die : Nat) (planned : Nat)
  /-- `PATROL_DONE` (R389). -/
  | patrolDone (t : Nat)
  /-- `REFRESH` (R390). -/
  | refresh (t : Nat) (drift : Nat) (die : Nat) (block : Nat) (dest : Nat) (cause : Nat) (again : Option Nat)
  /-- `GARBAGE_COLLECTION` (R391). -/
  | garbageCollection (t : Nat) (drift : Nat) (die : Nat) (dest : Nat)
  /-- `CAP_TEST` (R387). -/
  | capTest (t : Nat) (completed : Bool) (health : Nat) (capMf : Nat) (resUohm : Nat)
  /-- `HOLDUP_DEGRADED` (R130). -/
  | holdupDegraded (t : Nat)
  /-- `HOLDUP_RESTORED` (R130). -/
  | holdupRestored (t : Nat)
  /-- `BANK_VOLTAGE_LOW` (R388). -/
  | bankVoltageLow (t : Nat) (lowNs : Nat)
  /-- `PAGE_IN` (R333). -/
  | pageIn (t : Nat) (w : Nat) (h : Nat) (job : Option Nat) (planned : Bool)
  /-- `PAGE_IN_COMPLETE` (R333). -/
  | pageInComplete (t : Nat) (w : Nat)
  /-- `SCRUB_LODE` (R325). -/
  | scrubLode (t : Nat) (h : Nat) (zero : Bool)
  /-- `HOLD_END` (R329). -/
  | holdEnd (t : Nat) (w : Nat)
  /-- `HECC_UNCORRECTABLE` (R341). -/
  | heccUncorrectable (t : Nat) (addr : Nat) (pass : Bool) (reader : Option (Nat × Nat))
  /-- `QUOTA_EFFECT` (R322). -/
  | quotaEffect (t : Nat) (n : Nat)
  /-- `STP_QUOTA_WRITE` (R322). -/
  | stpQuotaWrite (t : Nat) (n : Nat) (v : BitVec 32)
  /-- `Q_CLASS_WRITE` (R559). -/
  | qClassWrite (t : Nat) (n : Nat) (v : BitVec 32)
  /-- `BAD_ACCESS` (R555). -/
  | badAccess (t : Nat) (off : Nat) (n : Nat) (enables : Bool) (write : Bool)
  /-- `LATCHING_PAIR_READ` (R556). -/
  | latchingPairRead (t : Nat) (path : Nat) (off : Nat) (two : Bool)
  /-- `RC_FIELD_READ` (R12). -/
  | rcFieldRead (t : Nat) (off : Nat) (two : Bool)
  /-- `REGISTER_WRITE` (R557). -/
  | registerWrite (t : Nat) (path : Nat) (off : Nat) (v : BitVec 32) (second : Option (BitVec 32))
  /-- `TAL_CLEAR` (R566). -/
  | talClear (t : Nat) (v : BitVec 32)
  /-- `PARTITION_CLEAR` (R577). -/
  | partitionClear (t : Nat)
  /-- `TALLY_PERSIST` (R551). -/
  | tallyPersist (t : Nat)
  /-- `TRACE_ENABLE` (R582). -/
  | traceEnable (t : Nat)
  /-- `FWF_KEY` (R525). -/
  | fwfKey (t : Nat) (host : Bool) (v : BitVec 16)
  /-- `FWF_PROGRAM` (R526). -/
  | fwfProgram (t : Nat) (host : Bool)
  /-- `FWF_SECTOR_ERASE` (R526). -/
  | fwfSectorErase (t : Nat) (host : Bool)
  /-- `FWF_SUSPEND` (R528). -/
  | fwfSuspend (t : Nat) (host : Bool)
  /-- `FWF_RESUME` (R529). -/
  | fwfResume (t : Nat) (host : Bool)
  /-- `ARRAY_PROGRAM` (R527). -/
  | arrayProgram (t : Nat) (host : Bool) (off : Nat) (data : BitVec 32)
  /-- `ARRAY_ERASE` (R527). -/
  | arrayErase (t : Nat) (host : Bool) (off : Nat)
  /-- `ARRAY_SUSPEND` (R527). -/
  | arraySuspend (t : Nat) (host : Bool) (off : Nat)
  /-- `ARRAY_RESUME` (R527). -/
  | arrayResume (t : Nat) (host : Bool) (off : Nat)
  /-- `ARRAY_ABANDON` (R527). -/
  | arrayAbandon (t : Nat) (host : Bool) (off : Nat)
  /-- `FLASH_OPERATION_END` (R531). -/
  | flashOperationEnd (t : Nat)
  /-- `FLASH_OWNER_RESET` (R532). -/
  | flashOwnerReset (t : Nat)
  /-- `READ_NVME_MI_DATA_STRUCTURE` (R589). -/
  | readNvmeMiDataStructure (t : Nat) (typ : Nat) (id : Nat)
  /-- `SUBSYSTEM_HEALTH_STATUS_POLL` (R588). -/
  | subsystemHealthStatusPoll (t : Nat) (clear : Bool)
  /-- `CONTROLLER_HEALTH_STATUS_POLL` (R589). -/
  | controllerHealthStatusPoll (t : Nat) (first : Nat) (n : Nat)
  /-- `CONFIGURATION_GET` (R589). -/
  | configurationGet (t : Nat) (id : Nat)
  /-- `CONFIGURATION_SET` (R589). -/
  | configurationSet (t : Nat) (id : Nat) (v : Nat)
  /-- `VPD_READ` (R589). -/
  | vpdRead (t : Nat) (off : Nat) (n : Nat)
  /-- `VPD_WRITE` (R589). -/
  | vpdWrite (t : Nat)
  /-- `NVM_SUBSYSTEM_RESET` (R518). -/
  | nvmSubsystemReset (t : Nat) (f : FlushEnd)
  /-- `MI_TUNNELLED_ADMIN` (R589). -/
  | miTunnelledAdmin (q : Sqe) (opc : Nat)
  /-- `REGISTER_READ` (R591). -/
  | registerRead (t : Nat) (off : Nat) (n : Nat)
  /-- `MCTP_ADDRESS_ASSIGN` (R587). -/
  | mctpAddressAssign (t : Nat) (addr : Nat)
  /-- `SET_ENDPOINT_ID` (R587). -/
  | setEndpointId (t : Nat) (eid : Nat)
  /-- `GET_SENSOR_READING` (R593). -/
  | getSensorReading (t : Nat) (id : Nat)
  /-- `SET_EVENT_RECEIVER` (R593). -/
  | setEventReceiver (t : Nat) (eid : Option Nat)
  /-- `REQUEST_UPDATE` (R594). -/
  | requestUpdate (t : Nat)
  /-- `ACTIVATE_FIRMWARE` (R594). -/
  | activateFirmware (t : Nat) (self : Bool) (bytes : List Byte) (i : ImageInfo) (readBack : Bool)
  /-- `GET_MEASUREMENTS` (R598). -/
  | getMeasurements (t : Nat) (idx : Nat) (signed : Bool)
  /-- `KEY_EXCHANGE` (R596). -/
  | keyExchange (t : Nat) (transport : Nat)
  /-- `CQ_HEAD_DOORBELL` (R49). -/
  | cqHeadDoorbell (t : Nat) (fn : Nat) (cqid : Nat) (n : Nat)
  /-- `FABRIC_PORT_LINK_UP` (R433). -/
  | fabricPortLinkUp (t : Nat) (p : Nat)
  /-- `STEWARD_LOAD` (R354). -/
  | stewardLoad (t : Nat) (core : Nat) (addr : Nat) (n : Nat)
  /-- `STEWARD_STORE` (R346). -/
  | stewardStore (t : Nat) (core : Nat) (addr : Nat) (bytes : List Byte)
  /-- `FENCE_SL` (R354). -/
  | fenceSl (t : Nat) (core : Nat)
  /-- `TIER_S_BACKGROUND_SCRUB` (R564). -/
  | tierSBackgroundScrub (t : Nat) (k : Nat) (corrected : Nat) (bad : List (Nat × Nat))
  /-- `NAMESPACE_MANAGEMENT_DELETE` (R600). -/
  | namespaceManagementDelete (q : Sqe)
  /-- `VF_ENABLE` (R569). -/
  | vfEnable (t : Nat) (n : Nat)
  /-- `KEY_UPDATE` (R439). -/
  | keyUpdate (t : Nat) (p : Nat) (ok : Bool)
  /-- `ROUTE_TABLE_RECEIVED` (R463). -/
  | routeTableReceived (t : Nat) (routes : List (Nat × Nat)) (deputy : Bool)
  /-- `SURVEY_EXCHANGE` (R113). -/
  | surveyExchange (t : Nat) (member : Nat) (boot : Nat) (frameOff : Int) (xs : List (Int × Int × Int × Int))
  /-- `MIRRORED_SHIFT_RECORD_RECEIVED` (R446). -/
  | mirroredShiftRecordReceived (t : Nat) (p : Packet)
  /-- `TWIN_LOG_RECORD_RECEIVED` (R426). -/
  | twinLogRecordReceived (t : Nat) (code : Nat) (tenant : Nat) (seq : Nat) (timeNs : Nat) (data : List Byte)
  /-- `POWER_ON_HOURS_PERSIST` (R611). -/
  | powerOnHoursPersist (t : Nat)
  /-- `MGMT_VIO_CHANGE` (R617). -/
  | mgmtVioChange (t : Nat) (present : Bool)
  /-- `CAGE_ASSEMBLY_INSERTED` (R626). -/
  | cageAssemblyInserted (t : Nat) (p : Nat) (power : Nat)
  /-- `PERST_DEASSERT` (R618). -/
  | perstDeassert (t : Nat)
  deriving DecidableEq, Repr

end Sys2Proof
end

