-- ==== Sys2Proof/Decode.lean ====
section
/-!
DEFINITION. The command a table word spells. No row of the spec's table of operations and events gives bits, so no
word spells a command.
-/
namespace Sys2Proof

/-- The command spelled by the low `nbits` bits of `w`: none, since the table gives no bits. -/
def decodeTableWord (_nbits _w : Nat) : Option Instr := none

end Sys2Proof
end

