-- ==== Sys2Proof/Config.lean ====
section
/-!
DEFINITION. The values the spec leaves open, as constants with no body: no proof can see what they are. Each
is applied to the model's own counter of free values (State.free), so that two uses are unrelated.
-/
namespace Sys2Proof

/-- A bit pattern the spec does not give, `w` bits wide (notes/assumptions/3.md). -/
opaque Config.freeBits (w : Nat) : Nat → BitVec w

/-- A number the spec does not give (notes/assumptions/3.md). -/
opaque Config.freeNat : Nat → Nat

/-- A choice the spec leaves to the module ("the module is free to"; notes/assumptions/3.md). -/
opaque Config.freeChoice : Nat → Bool

end Sys2Proof
end

