-- ==== Sys2Proof/Machine/Numeric.lean ====
section
/-!
DEFINITION. Number formats and exact arithmetic with one rounding: the element formats of Table Narrow 1, the
rounding and saturation of R293 and R294, the flushing of R301 and the scales of R292 and R295
(spec/11_narrow_numbers.md). A finite value is held exactly as sign, magnitude and power of two.
-/
namespace Sys2Proof.Machine

/-- A floating-point value: a NaN, an infinity, or ± m × 2^e exactly. -/
inductive FVal
  | nan
  | inf (neg : Bool)
  | fin (neg : Bool) (m : Nat) (e : Int)
  deriving DecidableEq, Repr

/-- The floating-point formats (Table Narrow 1). -/
inductive FFmt
  | e4m3 | e5m2 | e2m1 | bf16 | fp16 | fp32
  deriving DecidableEq, Repr

/-- The rounding modes of the V slot's ROUND field (Table Ruhaic 3). -/
inductive Rnd
  | nearest | zero | up | down
  deriving DecidableEq, Repr

/-- Mantissa bits. -/
def FFmt.mbits : FFmt → Nat
  | .e4m3 => 3 | .e5m2 => 2 | .e2m1 => 1 | .bf16 => 7 | .fp16 => 10 | .fp32 => 23

/-- Exponent bits. -/
def FFmt.ebits : FFmt → Nat
  | .e4m3 => 4 | .e5m2 => 5 | .e2m1 => 2 | .bf16 => 8 | .fp16 => 5 | .fp32 => 8

/-- Exponent bias. -/
def FFmt.bias : FFmt → Nat
  | .e4m3 => 7 | .e5m2 => 15 | .e2m1 => 1 | .bf16 => 127 | .fp16 => 15 | .fp32 => 127

/-- Width in bits. -/
def FFmt.width (f : FFmt) : Nat := 1 + f.ebits + f.mbits

/-- Exponent of the last place of a subnormal. -/
def FFmt.emin (f : FFmt) : Int := 1 - (f.bias : Int) - f.mbits

/-- The encoding without sign of the largest finite value (Table Narrow 1). -/
def FFmt.maxCode : FFmt → Nat
  | .e4m3 => 0x7E | .e5m2 => 0x7B | .e2m1 => 0x7 | .bf16 => 0x7F7F | .fp16 => 0x7BFF | .fp32 => 0x7F7FFFFF

/-- The canonical NaN of a format that has one (R278, R294). -/
def FFmt.nanCode : FFmt → Option Nat
  | .e4m3 => some 0x7F | .e5m2 => some 0x7F | .e2m1 => none
  | .bf16 => some 0x7FC0 | .fp16 => some 0x7E00 | .fp32 => some 0x7FC00000

/-- The infinity of a format that has one. -/
def FFmt.infCode : FFmt → Option Nat
  | .e4m3 => none | .e5m2 => some 0x7C | .e2m1 => none
  | .bf16 => some 0x7F80 | .fp16 => some 0x7C00 | .fp32 => some 0x7F800000

/-- The value of an encoding (R291). -/
def decodeF (f : FFmt) (bits : Nat) : FVal :=
  let neg := bitAt bits (f.width - 1)
  let mag := field bits 0 (f.width - 1)
  let ex := field bits f.mbits f.ebits
  let fr := field bits 0 f.mbits
  match f.infCode with
  | some i =>
    if mag = i then .inf neg
    else if i < mag then .nan
    else if ex = 0 then .fin neg fr f.emin
    else .fin neg (fr + 2 ^ f.mbits) (f.emin + ex - 1)
  | none =>
    if f.nanCode = some mag then .nan
    else if ex = 0 then .fin neg fr f.emin
    else .fin neg (fr + 2 ^ f.mbits) (f.emin + ex - 1)

/-- Number of bits of a magnitude. -/
def bitLen (m : Nat) : Nat := if m = 0 then 0 else Nat.log2 m + 1

/-- `m / 2^k` rounded as `r` says, for a value of the given sign. -/
def shiftRound (r : Rnd) (neg : Bool) (m k : Nat) : Nat :=
  let q := m / 2 ^ k
  let rem := m % 2 ^ k
  if k = 0 then m
  else match r with
    | .zero => q
    | .up => if neg then q else if rem = 0 then q else q + 1
    | .down => if neg then (if rem = 0 then q else q + 1) else q
    | .nearest =>
      let half := 2 ^ (k - 1)
      if rem < half then q
      else if half < rem then q + 1
      else if q % 2 = 0 then q else q + 1

/-- Round ± m × 2^e to `p` significant bits, no last place below `emin`: the magnitude and its exponent. -/
def roundTo (r : Rnd) (p : Nat) (emin : Int) (neg : Bool) (m : Nat) (e : Int) : Nat × Int :=
  let q := max (e + bitLen m - p) emin
  let m' := if q ≤ e then m * 2 ^ (e - q).toNat else shiftRound r neg m (q - e).toNat
  if m' = 2 ^ p then (2 ^ (p - 1), q + 1) else (m', q)

/-- The encoding without sign of m × 2^q, already rounded; beyond the format it exceeds `maxCode`. -/
def codeOf (f : FFmt) (m : Nat) (q : Int) : Nat :=
  if m < 2 ^ f.mbits then m
  else (q - f.emin + 1).toNat * 2 ^ f.mbits + (m - 2 ^ f.mbits)

/-- Sign bit of a format. -/
def signBit (f : FFmt) (neg : Bool) : Nat := if neg then 2 ^ (f.width - 1) else 0

/-- The IEEE result of an operation: round once, overflow to infinity or the largest finite value. -/
def encodeF (f : FFmt) (r : Rnd) : FVal → Nat
  | .nan => f.nanCode.getD 0
  | .inf neg => signBit f neg + f.infCode.getD f.maxCode
  | .fin neg m e =>
    let (m', q) := roundTo r (f.mbits + 1) f.emin neg m e
    let c := codeOf f m' q
    if f.maxCode < c then
      let toMax := match r with
        | .nearest => false | .zero => true | .up => neg | .down => !neg
      signBit f neg + (if toMax then f.maxCode else f.infCode.getD f.maxCode)
    else signBit f neg + c

/-- A narrowing conversion to a floating-point format, and whether it saturates (R294). -/
def narrowF (f : FFmt) (r : Rnd) : FVal → Nat × Bool
  | .nan => match f.nanCode with | some c => (c, false) | none => (0, true)
  | .inf neg => (signBit f neg + f.maxCode, true)
  | .fin neg m e =>
    let (m', q) := roundTo r (f.mbits + 1) f.emin neg m e
    let c := codeOf f m' q
    if f.maxCode < c then (signBit f neg + f.maxCode, true) else (signBit f neg + c, false)

/-- Round to an integer as `r` says. -/
def roundInt (r : Rnd) (neg : Bool) (m : Nat) (e : Int) : Int :=
  let a := if 0 ≤ e then m * 2 ^ e.toNat else shiftRound r neg m (-e).toNat
  if neg then -(a : Int) else a

/-- A narrowing conversion to an integer of `w` bits, and whether it saturates (R294). -/
def narrowI (w : Nat) (sgn : Bool) (r : Rnd) : FVal → Nat × Bool
  | .nan => (0, true)
  | .inf neg =>
    if neg then (if sgn then 2 ^ (w - 1) else 0, true)
    else (if sgn then 2 ^ (w - 1) - 1 else 2 ^ w - 1, true)
  | .fin neg m e =>
    let v := roundInt r neg m e
    let lo : Int := if sgn then -(2 ^ (w - 1) : Int) else 0
    let hi : Int := if sgn then 2 ^ (w - 1) - 1 else 2 ^ w - 1
    if v < lo then (unsigned w lo, true)
    else if hi < v then (unsigned w hi, true)
    else (unsigned w v, false)

/-- The exact value of an integer. -/
def ofInt (v : Int) : FVal := .fin (v < 0) v.natAbs 0

/-- The signed magnitude scaled to the exponent `e`, for `e` at most the value's own. -/
def scaledInt (neg : Bool) (m : Nat) (e0 e : Int) : Int :=
  let a : Int := m * 2 ^ (e0 - e).toNat
  if neg then -a else a

/-- Exact sum; an exact zero from unlike signs is +0, or −0 when rounding down (IEEE 754). -/
def addF (r : Rnd) : FVal → FVal → FVal
  | .nan, _ => .nan
  | _, .nan => .nan
  | .inf a, .inf b => if a = b then .inf a else .nan
  | .inf a, _ => .inf a
  | _, .inf b => .inf b
  | .fin n1 m1 e1, .fin n2 m2 e2 =>
    let e := min e1 e2
    let v := scaledInt n1 m1 e1 e + scaledInt n2 m2 e2 e
    if v = 0 then .fin (if m1 = 0 ∧ m2 = 0 ∧ n1 = n2 then n1 else r == .down) 0 e
    else .fin (v < 0) v.natAbs e

/-- Exact product. -/
def mulF : FVal → FVal → FVal
  | .nan, _ => .nan
  | _, .nan => .nan
  | .inf a, .inf b => .inf (a != b)
  | .inf a, .fin n m _ => if m = 0 then .nan else .inf (a != n)
  | .fin n m _, .inf b => if m = 0 then .nan else .inf (n != b)
  | .fin n1 m1 e1, .fin n2 m2 e2 => .fin (n1 != n2) (m1 * m2) (e1 + e2)

/-- Negation. -/
def negF : FVal → FVal
  | .nan => .nan | .inf n => .inf (!n) | .fin n m e => .fin (!n) m e

/-- Magnitude. -/
def absF : FVal → FVal
  | .nan => .nan | .inf _ => .inf false | .fin _ m e => .fin false m e

/-- Exact comparison of numbers: −1, 0 or 1; none when a NaN takes part. -/
def cmpF : FVal → FVal → Option Int
  | .nan, _ => none
  | _, .nan => none
  | .inf a, .inf b => some (if a = b then 0 else if a then -1 else 1)
  | .inf a, _ => some (if a then -1 else 1)
  | _, .inf b => some (if b then 1 else -1)
  | .fin n1 m1 e1, .fin n2 m2 e2 =>
    let e := min e1 e2
    let a := scaledInt n1 m1 e1 e
    let b := scaledInt n2 m2 e2 e
    some (if a < b then -1 else if b < a then 1 else 0)

/-- `a < b` as numbers; false with a NaN. -/
def ltF (a b : FVal) : Bool := cmpF a b == some (-1)

/-- `a ≤ b` as numbers; false with a NaN. -/
def leF (a b : FVal) : Bool := match cmpF a b with | some c => c ≤ 0 | none => false

/-- A value below 2^−126 in magnitude becomes a zero of the same sign (R301). -/
def flushF : FVal → FVal
  | .fin n m e => if m = 0 then .fin n 0 e else if (bitLen m : Int) + e ≤ -126 then .fin n 0 0 else .fin n m e
  | v => v

/-- One FP32 rounding of an accumulating operation: the result is flushed too (R301). -/
def accRound (r : Rnd) (v : FVal) : Nat :=
  let c := encodeF .fp32 r v
  encodeF .fp32 r (flushF (decodeF .fp32 c))

/-- FP32 addition of an accumulating operation (R301): operands and result are flushed. -/
def fadd32 (a b : Nat) (r : Rnd := .nearest) : Nat :=
  accRound r (addF r (flushF (decodeF .fp32 a)) (flushF (decodeF .fp32 b)))

/-- FP32 multiplication, denormals as IEEE 754 (R301). -/
def fmul32 (a b : Nat) (r : Rnd := .nearest) : Nat :=
  encodeF .fp32 r (mulF (decodeF .fp32 a) (decodeF .fp32 b))

/-- Add an exact product to an FP32 accumulator, one rounding (R277, R301). -/
def faccProd (acc : Nat) (p : FVal) (r : Rnd := .nearest) : Nat :=
  accRound r (addF r (flushF (decodeF .fp32 acc)) (flushF p))

/-- FP32 fused multiply-add with the flushing of R301. -/
def ffma32 (a b c : Nat) (r : Rnd := .nearest) : Nat :=
  faccProd c (mulF (flushF (decodeF .fp32 a)) (flushF (decodeF .fp32 b))) r

/-- The FP32 code of an exact value, round to nearest even. -/
def to32 (v : FVal) : Nat := encodeF .fp32 .nearest v

/-- The value of an FP32 code. -/
def of32 (c : Nat) : FVal := decodeF .fp32 c

/-- FP32 negative. -/
def fneg32 (a : Nat) : Nat := to32 (negF (of32 a))

/-- FP32 subtraction of an accumulating operation. -/
def fsub32 (a b : Nat) : Nat := fadd32 a (if bitAt b 31 then b - 2 ^ 31 else b + 2 ^ 31)

/-- The FP32 code is a NaN or an infinity. -/
def notFinite32 (a : Nat) : Bool := match of32 a with | .fin _ _ _ => false | _ => true

/-- A quotient of two finite values rounded once to FP32, the divisor non-zero. -/
def fdiv32 (a b : Nat) : Nat :=
  match of32 a, of32 b with
  | .fin n1 m1 e1, .fin n2 m2 e2 =>
    if m2 = 0 then (if m1 = 0 then to32 .nan else to32 (.inf (n1 != n2)))
    else
      -- 64 extra bits and a sticky bit make the rounding exact
      let k := 64 + bitLen m2
      let q := (m1 * 2 ^ k) / m2
      let s := if (m1 * 2 ^ k) % m2 = 0 then 0 else 1
      to32 (.fin (n1 != n2) (2 * q + s) (e1 - e2 - k - 1))
  | .nan, _ => to32 .nan
  | _, .nan => to32 .nan
  | .inf _, .inf _ => to32 .nan
  | .inf n, .fin n2 _ _ => to32 (.inf (n != n2))
  | .fin n _ _, .inf n2 => to32 (.fin (n != n2) 0 0)

/-- Integer square root by binary digits, `k` steps. -/
def isqrt : Nat → Nat → Nat → Nat
  | 0, _, r => r
  | k + 1, v, r =>
    let c := r + 2 ^ k
    if c * c ≤ v then isqrt k v c else isqrt k v r

/-- Square root rounded once to FP32, of a value that is not negative. -/
def fsqrt32 (a : Nat) : Nat :=
  match of32 a with
  | .fin n m e =>
    if m = 0 then a
    else if n then to32 .nan
    else
      let e' := if e % 2 = 0 then e else e - 1
      let m' := if e % 2 = 0 then m else 2 * m
      let v := m' * 2 ^ 64
      let r := isqrt 64 v 0
      let s := if r * r = v then 0 else 1
      to32 (.fin false (2 * r + s) (e' / 2 - 32 - 1))
  | .inf false => a
  | _ => to32 .nan

/-- The FP32 code `k` places above a finite positive code. -/
def ulpStep (c : Nat) (k : Int) : Nat := ((c : Int) + k).toNat

/-- e^x for a fixed-point x with 128 fraction bits, 0 ≤ x < 1, by its series. -/
def expSeries : Nat → Nat → Nat → Nat → Nat
  | 0, _, _, acc => acc
  | k + 1, x, term, acc =>
    let n := 48 - k
    let t := term * x / 2 ^ 128 / n
    expSeries k x t (acc + t)

/-- ln 2 with 128 fraction bits. -/
def ln2Fix : Nat := 235865763225513294137944142764154484399

/-- e^v to about 2^−110 relative, as an exact value, for a finite v between −256 and 256. -/
def expExact (neg : Bool) (m : Nat) (e : Int) : FVal :=
  let xf : Int := if 0 ≤ e + 128 then m * 2 ^ (e + 128).toNat else (m / 2 ^ (-(e + 128)).toNat : Nat)
  let x : Int := if neg then -xf else xf
  let k := x / ln2Fix
  let r := (x % ln2Fix).toNat
  .fin false (expSeries 48 r (2 ^ 128) (2 ^ 128)) (k - 128)

/-- The place within ±2 ulp of e^x at which the module's FP32 exponential lands: a function of the input alone
(R226, Table Ruhaic 4; notes/assumptions/4.md). -/
opaque Config.expPlace : Nat → Fin 5

/-- The place within ±1 ulp of 1/x at which VRCP lands (Table Ruhaic 4; notes/assumptions/4.md). -/
opaque Config.rcpPlace : Nat → Fin 3

/-- Whether an FP32 code lies within `n` ulp of an exact positive value, the ulp taken at the code. -/
def withinUlp (n : Nat) (c : Nat) (v : FVal) : Bool :=
  match of32 c, v with
  | .fin _ m e, .fin _ mv ev =>
    let q := min e ev
    let d := (scaledInt false m e q - scaledInt false mv ev q).natAbs
    d ≤ n * 2 ^ (e - q).toNat
  | _, _ => false

/-- The module's FP32 exponential, within 2 ulp of the exact value and a function of its input (R226). -/
def fexp32 (a : Nat) : Nat :=
  match of32 a with
  | .nan => to32 .nan
  | .inf false => a
  | .inf true => 0
  | .fin n m e =>
    if m = 0 then 0x3F800000
    else if 8 < (bitLen m : Int) + e then (if n then ulpStep 0 ((Config.expPlace a).val - 2) else 0x7F800000)
    else
      let v := expExact n m e
      let c := to32 v
      let off : Int := (Config.expPlace a).val - 2
      let c' := ulpStep c off
      if 0x7F7FFFFF < c' then c else if withinUlp 2 c' v then c' else c

/-- The module's FP32 reciprocal, within 1 ulp. -/
def frcp32 (a : Nat) : Nat :=
  let c := fdiv32 0x3F800000 a
  match of32 a, of32 c with
  | .fin _ m e, .fin _ mc _ =>
    if m = 0 ∨ mc = 0 then c
    else
      let sgn := signBit .fp32 (bitAt c 31)
      let mag := field c 0 31
      let mag' := ulpStep mag ((Config.rcpPlace a).val - 1)
      let k := 96 + bitLen m
      let v : FVal := .fin false (2 ^ k / m) (-e - k)
      if mag' ≤ 0x7F7FFFFF ∧ withinUlp 1 mag' v then sgn + mag' else c
  | _, _ => c

/-- The value of an E8M0 scale code (R292). -/
def decodeE8 (c : Nat) : FVal := if c % 256 = 255 then .nan else .fin false 1 ((c % 256 : Nat) - 127)

/-- Whether a maximum or minimum with one NaN operand is a NaN: IEEE 754 names both operations and the spec names
neither (notes/assumptions/4.md). -/
opaque Config.maxGivesNan : Bool

/-- The larger of two values in a format's codes, or the smaller (VMAX, VMIN, VREDMAX). -/
def pickF (f : FFmt) (larger : Bool) (a b : Nat) : Nat :=
  let va := decodeF f a
  let vb := decodeF f b
  let nan := f.nanCode.getD 0
  if va = .nan then (if vb = .nan ∨ Config.maxGivesNan then nan else b)
  else if vb = .nan then (if Config.maxGivesNan then nan else a)
  else if ltF va vb then (if larger then b else a)
  else if ltF vb va then (if larger then a else b)
  else if bitAt a (f.width - 1) = larger then b else a

/-- The CRC-64 of R170: the NVMe 64b Guard, polynomial 0xAD93_D235_94C9_3659, reflected, all-ones start and end. -/
def crc64Poly : Nat := 0x9A6C9329AC4BC9B5

/-- One reflected bit step. -/
def crc64Bit : Nat → Nat → Nat
  | 0, c => c
  | k + 1, c => crc64Bit k (if c % 2 = 1 then (c / 2) ^^^ crc64Poly else c / 2)

/-- The CRC-64 of bytes (R170). -/
def crc64 (d : List Byte) : Nat :=
  (d.foldl (fun c b => crc64Bit 8 (c ^^^ b.toNat)) (2 ^ 64 - 1)) ^^^ (2 ^ 64 - 1)

/-- One reflected bit step of the CRC-32 of IEEE 802.3, polynomial 0x04C1_1DB7. -/
def crc32Bit : Nat → Nat → Nat
  | 0, c => c
  | k + 1, c => crc32Bit k (if c % 2 = 1 then (c / 2) ^^^ 0xEDB88320 else c / 2)

/-- The CRC-32 of bytes (R430). -/
def crc32 (d : List Byte) : Nat :=
  (d.foldl (fun c b => crc32Bit 8 (c ^^^ b.toNat)) (2 ^ 32 - 1)) ^^^ (2 ^ 32 - 1)

end Sys2Proof.Machine
end

