-- ==== Sys2Proof/Machine/Parts/Account.lean ====
section
/-!
DEFINITION. The identity block, the latches of the access paths, the further drift and cluster registers, Tally and
Tailings (spec/20_register_map.md; spec/21_tally_and_tailings.md).
-/
namespace Sys2Proof.Machine

/-- The identity and global status block (Table Reg 3). -/
structure Global where
  /-- GLB_VARIANT.STEPPING; the order code is the media's. -/
  stepping : Nat := 0
  serial : Nat := 0
  badacc : Bool := false
  badaccAddr : Nat := 0
  wrq : Bool := false
  wrqAddr : Nat := 0
  wrqCnt : Nat := 0
  scratch : Nat := 0
  mfault : Bool := false
  cause : Nat := 0
  /-- Latched HI halves: access path (0 PF, n VF n, 64 management) * 2^26 + LO offset (R556). -/
  latches : Tbl Nat := []
  deriving DecidableEq, Repr

/-- The further registers of a drift block (Table Reg 4). -/
structure DriftRegs where
  readRef : Nat := 0
  drive : Nat := 1
  odt : Nat := 2
  wrq : Bool := false
  busy : Nat := 0
  xstall : Nat := 0
  seCe : Nat := 0
  seUe : Nat := 0
  lodes : Nat := 0
  deriving DecidableEq, Repr

/-- A shaft cluster block (Table Reg 5); job faults by core. -/
structure ClusterRegs where
  scrub : Nat := 60
  wrq : Bool := false
  busy : Nat := 0
  xstall : Nat := 0
  seCe : Nat := 0
  seUe : Nat := 0
  faults : Tbl Nat := []
  deriving DecidableEq, Repr

/-- One record of a partition (Table Reg 8). -/
structure PartRec where
  samples : Nat := 0
  breach : Nat := 0
  demoted : Nat := 0
  refused : Nat := 0
  cost : Nat := 0
  energy : Nat := 0
  hostHeld : Nat := 0
  maxUs : Nat := 0
  bins : Tbl Nat := []
  deriving DecidableEq, Repr

/-- A tenant's partition (Table Reg 8): records 0 to 8, answers by status. -/
structure Partition where
  recs : Tbl PartRec := []
  statuses : Tbl Nat := []
  outstanding : Nat := 0
  used : Nat := 0
  quota : Nat := 0
  firstFrame : Nat := 0
  /-- Boot count at the last clear, and counts lost since it (Table Tally 2). -/
  clearBoot : Nat := 0
  lost : Bool := false
  deriving DecidableEq, Repr

/-- The partition fields a cause adds to (Table Tally 1). -/
inductive TField
  | sample | breach | demoted | refused | cost | energy | hostHeld | status
  deriving DecidableEq, Repr

/-- What the frame in progress adds to a partition when it closes (R570). -/
structure Tallied where
  tenant : Nat
  record : Nat
  field : TField
  value : Nat
  deriving DecidableEq, Repr

/-- A read-and-clear that waits for the next tick (R576): its command, the page part it asks for, and its frame. -/
structure ReadClear where
  fn : Nat
  sqid : Nat
  cid : Nat
  tenant : Nat
  buf : List (Nat × Nat)
  offset : Nat
  length : Nat
  frame : Nat
  deriving DecidableEq, Repr

/-- Tally (R566 to R580). -/
structure Tally where
  parts : Tbl Partition := []
  /-- Counts of the frame in progress, oldest first. -/
  now : List Tallied := []
  closed : Nat := 0
  /-- The module account (Table Reg 7), and what the frame in progress adds to it. -/
  replayCost : Nat := 0
  preemptCost : Nat := 0
  reservedCf : Nat := 0
  pitCf : Nat := 0
  modEnergy : Nat := 0
  replayNow : Nat := 0
  preemptNow : Nat := 0
  reservedNow : Nat := 0
  pitNow : Nat := 0
  energyNow : Nat := 0
  /-- Clears asked for, with the frame of the request: tenants, and all. -/
  clears : List (Nat × Nat) := []
  clearAll : Option Nat := none
  reads : List ReadClear := []
  persistedAt : Nat := 0
  persisted : Tbl Partition := []
  /-- The module account as persisted, in the order of its fields. -/
  persistedAcct : List Nat := []
  wrq : Bool := false
  /-- FRAME record: sixteenths used by contracted and best-effort jobs, packets admitted, demoted and refused. -/
  cfContract : Nat := 0
  cfBest : Nat := 0
  admitted : Nat := 0
  demoted : Nat := 0
  refused : Nat := 0
  deriving DecidableEq, Repr

/-- A trace record (Tables Tally 4 and 5). -/
structure TraceRec where
  kind : Nat
  tenant : Nat
  stale : Bool
  unsurveyed : Bool
  boot : Nat
  pt : Nat
  frame : Nat
  seq : Nat
  ref : Nat
  data : List Byte
  deriving DecidableEq, Repr

/-- Filters and switches of the Tailings (class L fields: in force, and as written). -/
structure TraceCfg where
  enable : Bool := true
  wrap : Bool := true
  tenants : BitVec 64 := BitVec.allOnes 64
  kinds : BitVec 16 := 0xFFFF
  evgroups : BitVec 16 := 0x1FFE
  deriving DecidableEq, Repr

/-- The Tailings ring (R581 to R585): records by slot, SEQ modulo SIZE × 1,024. -/
structure Tailings where
  /-- ENABLE has been 0 and is written 1: the ring restarts at a tick after this frame (R582). -/
  restart : Option Nat := none
  cfg : TraceCfg := {}
  cfgNext : TraceCfg := {}
  size : Nat := 1024
  sizeNext : Nat := 1024
  ring : Tbl TraceRec := []
  seq : Nat := 0
  wrapCnt : Nat := 0
  dropCnt : Nat := 0
  base : Nat := 0
  wrq : Bool := false
  deriving DecidableEq, Repr

/-- The further registers of drifts and clusters, keyed by number. -/
structure BlockRegs where
  drifts : Tbl DriftRegs := []
  clusters : Tbl ClusterRegs := []
  deriving DecidableEq, Repr

end Sys2Proof.Machine
end

