-- ==== Sys2Proof/Machine/Parts/Cores.lean ====
section
/-!
DEFINITION. The Ruhaic cores and the Assay sets (spec/10_the_ruhaic_core.md; spec/11_narrow_numbers.md).
Tables keyed by register number list only what differs from the reset value.
-/
namespace Sys2Proof.Machine

/-- The slots of a bundle (Table Ruhaic 2). -/
inductive Slot
  | s0 | s1 | m | v | t | c
  deriving DecidableEq, Repr

/-- A scalar register with its poison mark (R260). -/
structure XVal where
  val : BitVec 64 := 0
  poison : Bool := false
  deriving DecidableEq, Repr

/-- A vector or accumulator register: 64 lanes of 32 bits, each with a poison mark (R260). -/
structure VVal where
  val : BitVec 2048 := 0
  poison : BitVec 64 := 0
  deriving DecidableEq, Repr

/-- A destination register. -/
inductive Dest
  | x (n : Nat) | v (n : Nat) | a (n : Nat) | p (n : Nat)
  deriving DecidableEq, Repr

/-- The value of a write: a vector write names the lanes it enables (R265). -/
inductive RegVal
  | x (v : XVal)
  | v (v : VVal) (lanes : BitVec 64)
  | p (v : BitVec 64) (lanes : BitVec 64)
  deriving DecidableEq, Repr

/-- A result in flight (R263, R264): the bundle it becomes visible at and the bundle that issued it. -/
structure PendingWrite where
  due : Nat
  issued : Nat
  dest : Dest
  val : RegVal
  /-- MAC, TACC and ACCWR writes form the chain of R264. -/
  chain : Bool := false
  deriving DecidableEq, Repr

/-- A table-RAM write in flight (TLOAD, TBUILD): entries from `base`, and the poison of each table. -/
structure PendingTables where
  due : Nat
  base : Nat
  entries : List Nat
  poison : List Bool
  /-- Lanes whose tables are written: lane of table p is p / 4. -/
  lanes : BitVec 64
  deriving DecidableEq, Repr

/-- An active hardware loop (R268). -/
structure Loop where
  lc : Nat
  first : Nat
  last : Nat
  deriving DecidableEq, Repr

/-- The kinds of stream. -/
inductive StreamKind
  | get | put | gather
  deriving DecidableEq, Repr

/-- An outstanding stream (R271 to R274). -/
structure Stream where
  id : Nat
  kind : StreamKind
  localAddr : Nat
  win : Nat
  /-- Window offset, one per row of a gather. -/
  offs : List Nat
  rowLen : Nat
  token : Nat
  sig : Bool
  /-- Bundle at which it issued. -/
  issued : Nat
  /-- Device address of a Tier H unit that it read as uncorrectable (R341). -/
  badRead : Option Nat := none
  deriving DecidableEq, Repr

/-- A fault noticed in the current bundle (R283, R284). -/
structure BundleFault where
  /-- Precedence within a core: 0 illegal, 1 poison, 2 out-of-window, 3 watchdog, 4 loss of a unit. -/
  rank : Nat
  locator : Nat
  deriving DecidableEq, Repr

/-- What a stalled core waits for (R273). -/
inductive Stall
  | token (tok count : Nat)
  | drain
  | crossing
  deriving DecidableEq, Repr

/-- One Ruhaic core (R257 to R290). -/
structure RCore where
  /-- The packet whose job holds it, with the core's index and the job's count of cores. -/
  packet : Option Nat := none
  index : Nat := 0
  cores : Nat := 0
  /-- Powered time up to which the cycles of its job are counted (DRIFT_BUSY_CNT, CL_BUSY_CNT). -/
  since : Nat := 0
  /-- The image the Orrery binds to it, the image in its Tier S, and the powered time its streaming ends. -/
  bound : Nat := 0
  image : Nat := 0
  /-- It can be placed (R483). -/
  ready : Bool := false
  kernelStore : Bool := false
  streamingUntil : Nat := 0
  x : Tbl XVal := []
  v : Tbl VVal := []
  a : Tbl VVal := []
  p : Tbl (BitVec 64) := []
  lc : Tbl Nat := []
  /-- Tier S bank bytes from local address 0. -/
  bank : Cells := []
  /-- Local 64-bit words that carry a poison mark, by word number. -/
  bankPoison : List Nat := []
  /-- Local 64-byte units of the free region written since placement, by unit number (R275). -/
  written : List Nat := []
  codeLen : Nat := 0
  dataLen : Nat := 0
  scratch : Nat := 0
  /-- Product table RAM: entry number (32 tables' bytes / 2) to its 16-bit value; marked tables (R280). -/
  tables : Tbl Nat := []
  tablePoison : List Nat := []
  /-- Bundles issued since placement, and the bundle offset of the current one. -/
  bundles : Nat := 0
  pc : Nat := 0
  pending : List PendingWrite := []
  pendingTables : List PendingTables := []
  /-- Slots and destinations used in the current bundle. -/
  slots : List Slot := []
  dests : List Dest := []
  fault : Option BundleFault := none
  /-- VTAP samples of the current bundle: tap, and FP32 magnitudes and bins gathered when it ends. -/
  tapped : List (Nat × List Nat) := []
  /-- Saturations of the current bundle. -/
  bundleSat : Nat := 0
  /-- A taken branch: delay bundles still to issue, and its target (R267). -/
  branch : Option (Nat × Nat) := none
  loops : List Loop := []
  /-- What LOOP in the current bundle begins, or skips to (R268). -/
  newLoop : Option Loop := none
  skipTo : Option Nat := none
  tokens : Tbl Nat := []
  streams : List Stream := []
  nextStream : Nat := 0
  stall : Option Stall := none
  tap : Option Nat := none
  exited : Bool := false
  payloadLen : Nat := 0
  /-- Device address of the first poisoned unit loaded (Table Ruhaic 8). -/
  firstPoison : Option Nat := none
  watchdog : Nat := 0
  deriving DecidableEq, Repr

/-- A tap's configuration (Table Narrow 4). -/
structure TapCfg where
  mode : Nat := 2
  fmt : Nat := 0
  head : Nat := 0
  thresh : Nat := 0
  initScale : Nat := 0x7F
  deriving DecidableEq, Repr

/-- A tap of a tenant (R302 to R310): configuration in force and waiting, and its record (R167). -/
structure Tap where
  cfg : TapCfg := {}
  pendCfg : Option TapCfg := none
  scale : Nat := 0x7F
  maxabs : Nat := 0
  lastFrame : Nat := 0
  sat : Nat := 0
  hist : Tbl Nat := []
  limitedRun : Bool := false
  deriving DecidableEq, Repr

/-- What an Assay set gathered for one (tenant, tap) in one frame. -/
structure TapStat where
  tenant : Nat
  tap : Nat
  maxabs : Nat := 0
  any : Bool := false
  sat : Nat := 0
  hist : Tbl Nat := []
  deriving DecidableEq, Repr

/-- One Assay set (R305, R312); sets 0 to 63 are the drifts', 64 to 75 the shaft clusters'. -/
structure AssaySet where
  stats : List TapStat := []
  overflow : Nat := 0
  overflowNow : Nat := 0
  untapped : Nat := 0
  /-- Core cycles held by VTAP backpressure (Table Reg 6). -/
  hold : Nat := 0
  /-- Of the last closed frame: the pairs tracked, and whether it overflowed. -/
  pairsLast : Nat := 0
  overflowLast : Bool := false
  deriving DecidableEq, Repr

/-- The Assay: taps keyed by tenant * 256 + tap, sets by number. -/
structure Assay where
  taps : Tbl Tap := []
  sets : Tbl AssaySet := []
  wrq : Bool := false
  deriving DecidableEq, Repr

end Sys2Proof.Machine
end

