-- ==== Sys2Proof/Machine/Parts/Manage.lean ====
section
/-!
DEFINITION. The management path, SPDM, keys, sanitize and health (spec/22_management_and_security.md).
-/
namespace Sys2Proof.Machine

/-- A platform event message the module has sent (R593): sensor ID and its new state or reading. -/
structure PlatformEvent where
  sensor : Nat
  value : Int
  deriving DecidableEq, Repr

/-- A response of the management path or of SPDM: a status or completion code and the bytes returned; of a tunnelled admin command also its
own completion. -/
structure MgmtReply where
  status : Nat := 0
  bytes : List Byte := []
  nvme : Option NvmeStatus := none
  dw0 : Nat := 0
  deriving DecidableEq, Repr

/-- The SMART counts of a function (Table Mgmt 9). -/
structure SmartCounts where
  unitsRead : Nat := 0
  unitsWritten : Nat := 0
  reads : Nat := 0
  writes : Nat := 0
  mediaErrors : Nat := 0
  /-- Sectors counted toward the next unit of 1,000 x 512 bytes. -/
  readBytes : Nat := 0
  writtenBytes : Nat := 0
  /-- Powered ns with an NVM command outstanding, and since when one is (Controller Busy Time). -/
  busyNs : Nat := 0
  busySince : Option Nat := none
  deriving DecidableEq, Repr

/-- Sanitize (R604 to R606). -/
structure Sanitize where
  running : Bool := false
  /-- Its steps are being run: not between a reset and the resumption of R606. -/
  active : Bool := false
  /-- Step of Table Mgmt 6 reached. -/
  step : Nat := 0
  action : Nat := 0
  /-- Powered time and frame of the start or resumption. -/
  began : Nat := 0
  frame : Nat := 0
  /-- The drifts out of service have been reset (step 3). -/
  driftsReset : Bool := false
  /-- The last sanitize completed, and CDW10 of the last one started (log page 81h). -/
  completed : Bool := false
  cdw10 : Nat := 0
  deriving DecidableEq, Repr

/-- The management endpoint and the security state (R587 to R611). -/
structure Manage where
  i3c : Bool := false
  addr : Nat := 0x1D
  smbusKhz : Nat := 100
  endpointId : Nat := 0
  mtu : Nat := 64
  /-- What Composite Controller Status compares with, by its bit: as at the last clear (Table Mgmt 1). -/
  healthBase : Tbl Nat := []
  hiZ : Bool := false
  /-- Replies sent, latest first. -/
  replies : List MgmtReply := []
  eventReceiver : Option Nat := none
  platformEvents : List PlatformEvent := []
  /-- A PLDM firmware update runs (R594). -/
  updating : Bool := false
  /-- SPDM sessions by transport: 0 DOE, 1 MCTP, 2 and 3 the binary ports 10 and 11 (R596). -/
  sessions : Tbl Nat := []
  /-- Namespace keys by NSID and object keys by tenant * 8 + kind: identifiers of DRBG draws (R600). -/
  nsKeys : Tbl Nat := []
  objKeys : Tbl Nat := []
  internalKey : Nat := 0
  nextKey : Nat := 0
  sanitize : Sanitize := {}
  smart : Tbl SmartCounts := []
  /-- The counts as last persisted with Tally (R551, R611 edges). -/
  smartSaved : Tbl SmartCounts := []
  /-- Powered ns with Composite Temperature at or above WCTEMP and CCTEMP, up to the time of the latest sample; and as last persisted. -/
  warnTempNs : Nat := 0
  critTempNs : Nat := 0
  tempAt : Nat := 0
  tempSaved : Nat × Nat := (0, 0)
  /-- Powered time up to which Power On Hours are persisted (R611). -/
  hoursAt : Nat := 0
  deriving DecidableEq, Repr

end Sys2Proof.Machine
end

