-- ==== Sys2Proof/Machine/Parts/Power.lean ====
section
/-!
DEFINITION. Power domains, the Lantern, sensors and steps (spec/17_power_and_the_lantern.md), and the supply
sidebands (spec/23_the_sled.md).
-/
namespace Sys2Proof.Machine

/-- A temperature sensor (R476, R495, R497): the last reading and the runs of samples that decide steps. -/
structure Sensor where
  temp : Int := 0
  sampled : Bool := false
  stepRun : Nat := 0
  critRun : Nat := 0
  /-- Powered time since which it has read below STEP_C − HYST. -/
  coolSince : Option Nat := none
  /-- Above each PLDM threshold at the last sample. -/
  warn : Bool := false
  crit : Bool := false
  deriving DecidableEq, Repr

/-- Phases of a Lantern entry (R484, R485). -/
inductive LanternPhase
  | none | pending | entering | asleep | waking
  deriving DecidableEq, Repr

/-- The power block (Table Power 5) and what decides its changes. -/
structure Power where
  cur : Nat := 0
  req : Nat := 0
  forced : Bool := false
  offwr : Bool := false
  wrq : Bool := false
  domains : BitVec 12 := 0xFFF
  clkstop : BitVec 12 := 0
  /-- Domains whose cores take no new job because they are to go off (R482). -/
  leaving : BitVec 12 := 0
  /-- Domains powered on whose cores are not all ready (R483). -/
  arriving : BitVec 12 := 0
  /-- The frame whose tick made the domains leave (R482). -/
  leaveFrame : Nat := 0
  /-- Domains with a stepped clock, and the causes that hold: thermal by domain, power, critical. -/
  stepped : BitVec 4 := 0
  thermal : BitVec 4 := 0
  power : Bool := false
  critical : Bool := false
  /-- Causes confirmed and released at the next tick. -/
  thermalNew : BitVec 4 := 0
  powerNew : Bool := false
  criticalNew : Option (Nat × Int) := none
  /-- Changes made at the latest tick whose events are still to be raised: domains of a thermal cause, the power cause, the
  critical one, domains released, and the return from the critical state. -/
  sayThermal : BitVec 4 := 0
  sayPower : Bool := false
  sayCritical : Option (Nat × Int) := none
  sayRestore : BitVec 4 := 0
  sayReturn : Bool := false
  stepC : Nat := 100
  hyst : Nat := 8
  /-- STEP_C and HYST as they govern from the next tick (class L). -/
  stepCNext : Nat := 100
  hystNext : Nat := 8
  /-- Samples of the input power since D0 was powered on, in 0.1 W, newest first, at most 100,000 (R476). -/
  inSamples : List Nat := []
  xstall : Nat := 0
  wakeSrc : Nat := 0
  wakeUs : Nat := 0
  evqLost : Nat := 0
  sensors : Tbl Sensor := []
  smartBit1 : Bool := false
  lantern : LanternPhase := .none
  /-- Operational state in force before entry (R486). -/
  before : Nat := 0
  lanternStep : Nat := 0
  /-- Powered time of the wake source whose wake is in progress. -/
  wakeAt : Nat := 0
  /-- The frame of the request that is pending. -/
  lanternFrame : Nat := 0
  wakePin : Bool := false
  /-- The latest wake was from P3: admission waits for the bound cores alone (R490). -/
  retained : Bool := false
  pwrdis : Bool := false
  perst : Bool := false
  /-- A loss has been declared and the hold-up flush runs (R631). -/
  lossDeclared : Option Nat := none
  off : Bool := false
  /-- Registers of unpowered domains as they were when their domain went off, by BAR2 offset, where they may have changed since (R480). -/
  held : Tbl Nat := []
  mgmtVio : Bool := true
  /-- SYNC_OUT edges emitted, and the powered fs of the latest (R624). -/
  syncOut : Nat := 0
  syncOutFs : Nat := 0
  deriving DecidableEq, Repr

/-- The operational state that the module is to be in: P2 while the critical state forces it, else the one last requested; the one
in force before a Lantern request while that is pending or in effect (R485, R486, R497). -/
def Power.target (p : Power) : Nat := if p.forced then 2 else if p.req ≤ 2 then p.req else p.before

/-- Shaft opcodes are refused: the module is in P2, or is to be (R162, R482). -/
def Power.shaftOff (p : Power) : Bool := p.cur == 2 || p.target == 2

end Sys2Proof.Machine
end

