-- ==== Sys2Proof/Machine/Parts/Startup.lean ====
section
/-!
DEFINITION. Start-up, the saved boot area, the Almanac and shutdown (spec/19_power_up_and_the_almanac.md).
-/
namespace Sys2Proof.Machine

/-- One generation of an Almanac record (R543): its data, the control word's CRC and COMMIT, and whether any fuse of
it is burned. -/
structure Generation where
  data : List Byte := []
  used : Bool := false
  commit : Bool := false
  crcOk : Bool := false
  deriving DecidableEq, Repr

/-- A staged burn (R546). -/
structure StagedBurn where
  record : Nat
  data : List Byte
  boot : Nat
  code : Nat
  /-- Staged by firmware (ORIGIN 1). -/
  firmware : Bool
  atNs : Nat
  deriving DecidableEq, Repr

/-- The Almanac: generations keyed by record * 4 + generation. -/
structure Almanac where
  gens : Tbl Generation := []
  staged : Option StagedBurn := none
  read : Bool := false
  wrq : Bool := false
  deriving DecidableEq, Repr

/-- What the boot area keeps (Table Unit 7, R522, R542, R551, R558, R600, R606). -/
structure Saved where
  bootCount : Nat := 0
  period : Nat := 2
  c1h : Option Word32 := none
  orrery : Option OrreryTable := none
  classes : Tbl ClassDef := []
  quotas : Tbl Nat := []
  /-- Feature C2h by tenant: LP_CLASS and QWARN (R319). -/
  c2 : Tbl (Nat × Nat) := []
  heccLevel : Bool := false
  poolSize : Nat := 0x40000
  trcSize : Nat := 1024
  kekGen : Nat := 0
  /-- Step and action of a sanitize that has not ended (R606). -/
  sanitize : Option (Nat × Nat) := none
  powerOnHours : Nat := 0
  powerCycles : Nat := 0
  unsafeShutdowns : Nat := 0
  deriving DecidableEq, Repr

/-- The stages of start-up (Table Start 1). -/
inductive Stage
  | d0 | boot | count | stewards | tierH | holdup | mount | ready | residency | references | pair
  deriving DecidableEq, Repr

/-- The start-up sequence (Table Start 1): stages that have ended. -/
structure Startup where
  ended : List Stage := []
  /-- Powered time at which frame 0 began, and at which stage 7 ended. -/
  frame0Ns : Nat := 0
  readyNs : Nat := 0
  /-- No slot verifies (R535); the slot booted in place of the named one. -/
  noSlot : Bool := false
  fallback : Option Nat := none
  /-- The last power-down was an orderly shutdown, and its log is whole (R550). -/
  clean : Bool := true
  /-- The condition of R539 that came to hold last. -/
  lastCond : Nat := 0
  conds : List Nat := []
  /-- Functions whose normal shutdown waits for its packets (R141, R550); the PF's has completed. -/
  shutdowns : List Nat := []
  shutdownDone : Bool := false
  deriving DecidableEq, Repr

end Sys2Proof.Machine
end

