-- ==== Sys2Proof/Machine/State.lean ====
section
/-!
DEFINITION. The state of the block: one field per subsystem, the clock of powered time, the queue of waiting
commands, and the model's own counter of free values; the state after reset; the reasons a step can stop.
-/
namespace Sys2Proof.Machine

/-- Why the machine stops with a fault. -/
inductive Fault
  /-- A steward access to a device address outside Table Tiers 1: no agent ever issues one (R313). Raised by
  STEWARD_LOAD and STEWARD_STORE. Safe: the run ends where the spec gives no behaviour. -/
  | noSuchAddress (addr : Nat)
  /-- A steward access to Tier S or to the Tier F object window, which stewards do not reach (R313, Table Tiers 1).
  Raised by STEWARD_LOAD and STEWARD_STORE. Safe: the run ends where the spec gives no behaviour. -/
  | notReached (addr : Nat)
  deriving DecidableEq, Repr

/-- Why a command is refused by the model. -/
inductive Refusal
  /-- No meaning yet. Raised by the dispatch alone. Safe. -/
  | notModelled (mnemonic : String)
  deriving DecidableEq, Repr

/-- The state of the block. -/
structure State where
  /-- Powered time in ns (R110). -/
  now : Nat := 0
  /-- The model's own counter of free values taken so far (notes/assumptions/3.md). -/
  free : Nat := 0
  meridian : Meridian := {}
  orrery : Orrery := {}
  lodestar : Lodestar := {}
  link : HostLink := {}
  packets : Packets := {}
  objects : Objects := {}
  cage : Cage := {}
  coherence : Coherence := {}
  cores : Tbl RCore := []
  assay : Assay := {}
  media : Media := {}
  log : EventLog := {}
  fabric : Fabric := {}
  pair : Pair := {}
  const : Const := {}
  power : Power := {}
  units : Units := {}
  flash : Flash := {}
  activation : Activation := {}
  startup : Startup := {}
  saved : Saved := {}
  almanac : Almanac := {}
  global : Global := {}
  blocks : BlockRegs := {}
  tally : Tally := {}
  tailings : Tailings := {}
  manage : Manage := {}
  /-- Commands waiting, first in first out. -/
  pending : List Instr := []
  deriving DecidableEq, Repr

/-- The state right after reset: every field at the value its declaration gives. -/
def State.reset : State := {}

/-- What a command answers. -/
abbrev Result := Host.Outcome State Fault Refusal

end Sys2Proof.Machine
end

