-- ==== Sys2Proof/Machine/Operands.lean ====
section
/-!
DEFINITION. Operand forms of the Ruhaic slots: guards, register reads, element views of the 2048-bit registers,
and the element types (spec/10_the_ruhaic_core.md, R260 to R266, R276).
-/
namespace Sys2Proof.Machine

/-- A fresh free value's index, and the state with the counter advanced (notes/assumptions/3.md). -/
def State.draw (s : State) : Nat × State := (s.free, { s with free := s.free + 1 })

/-! ### Registers -/

/-- X register `n`: X0 reads zero (R260). -/
def RCore.readX (c : RCore) (n : Nat) : XVal := if n = 0 then {} else tgetD c.x n {}

/-- Predicate `n`: P0 reads all ones (R260). -/
def RCore.readP (c : RCore) (n : Nat) : BitVec 64 := if n = 0 then BitVec.allOnes 64 else tgetD c.p n 0

/-- V register `n`. -/
def RCore.readV (c : RCore) (n : Nat) : VVal := tgetD c.v n {}

/-- The visible value of accumulator `n`. -/
def RCore.readA (c : RCore) (n : Nat) : VVal := tgetD c.a n {}

/-- Expand one bit per lane into one bit per register bit. -/
def laneMask (lanes : BitVec 64) : BitVec 2048 :=
  (List.range 64).foldl
    (fun m i => if lanes.getLsbD i then m ||| (BitVec.ofNat 2048 (0xFFFFFFFF <<< (32 * i))) else m) 0

/-- A vector with the enabled lanes taken from `new` (R265). -/
def mergeLanes (old new : VVal) (lanes : BitVec 64) : VVal :=
  if lanes = BitVec.allOnes 64 then new
  else
    let m := laneMask lanes
    { val := (new.val &&& m) ||| (old.val &&& ~~~m)
      poison := (new.poison &&& lanes) ||| (old.poison &&& ~~~lanes) }

/-- Write one result into its register; writes to X0 and P0 are discarded (R260). -/
def RCore.land (c : RCore) (d : Dest) (v : RegVal) : RCore :=
  match d, v with
  | .x n, .x xv => if n = 0 then c else { c with x := tset c.x n xv }
  | .v n, .v vv l => { c with v := tset c.v n (mergeLanes (c.readV n) vv l) }
  | .a n, .v vv l => { c with a := tset c.a n (mergeLanes (c.readA n) vv l) }
  | .p n, .p pv l =>
    if n = 0 then c else { c with p := tset c.p n ((pv &&& l) ||| (c.readP n &&& ~~~l)) }
  | _, _ => c

/-- The value a chained accumulation starts from: the chain's results in flight laid over the visible value (R264). -/
def RCore.chainBase (c : RCore) (n : Nat) : VVal :=
  c.pending.foldl (fun acc w =>
    if w.chain ∧ w.dest = .a n then
      match w.val with
      | .v vv l => mergeLanes acc vv l
      | _ => acc
    else acc) (c.readA n)

/-- The lanes a guard enables: the predicate, or its complement (R262, R265). -/
def RCore.lanes (c : RCore) (g : Guard) : BitVec 64 :=
  let p := c.readP g.pred.toNat
  if g.neg then ~~~p else p

/-- A scalar or M operation acts: bit 0 of its guard (R260 edges, R265). -/
def RCore.acts (c : RCore) (g : Guard) : Bool := (c.lanes g).getLsbD 0

/-! ### Element views -/

/-- Elements of width `w` bits of a number holding `n` of them. -/
def elemsOf (w n v : Nat) : List Nat := (List.range n).map (fun i => field v (i * w) w)

/-- Pack elements of width `w` bits. -/
def packElems (w : Nat) : List Nat → Nat
  | [] => 0
  | e :: es => e % 2 ^ w + 2 ^ w * packElems w es

/-- The element types a V or T slot field can name (Table Ruhaic 7). -/
inductive EType
  | i8 | u8 | i16 | i32 | fp (f : FFmt) | u4 | i4
  deriving DecidableEq, Repr

/-- Decode an ETYPE field; other codes are listed nowhere (R276). -/
def eType (e : BitVec 4) : Option EType :=
  match e.toNat with
  | 0 => some .i8 | 1 => some .u8 | 2 => some .i16 | 3 => some .i32
  | 4 => some (.fp .e4m3) | 5 => some (.fp .e5m2) | 6 => some (.fp .e2m1)
  | 7 => some (.fp .bf16) | 8 => some (.fp .fp16) | 9 => some (.fp .fp32)
  | 10 => some .u4 | 11 => some .i4
  | _ => none

/-- Width of an element. -/
def EType.width : EType → Nat
  | .i8 => 8 | .u8 => 8 | .i16 => 16 | .i32 => 32 | .fp f => f.width | .u4 => 4 | .i4 => 4

/-- An integer type of the V slot. -/
def EType.isInt : EType → Bool
  | .i8 => true | .u8 => true | .i16 => true | .i32 => true | _ => false

/-- Signed, for integers. -/
def EType.isSigned : EType → Bool
  | .u8 => false | .u4 => false | _ => true

/-- A floating-point type V arithmetic accepts: those of Table Ruhaic 7 used in V other than for conversion. -/
def EType.isArithF : EType → Bool
  | .fp .bf16 => true | .fp .fp16 => true | .fp .fp32 => true | _ => false

/-- A type of V arithmetic. -/
def EType.isArith (t : EType) : Bool := t.isInt || t.isArithF

/-- The exact value of an element. -/
def EType.value (t : EType) (bits : Nat) : FVal :=
  match t with
  | .fp f => decodeF f bits
  | t => ofInt (if t.isSigned then signed t.width bits else (bits : Int))

/-- The elements of a register. -/
def VVal.elems (v : VVal) (t : EType) : List Nat := elemsOf t.width (2048 / t.width) v.val.toNat

/-- A register made of elements. -/
def ofElems (t : EType) (es : List Nat) : BitVec 2048 := BitVec.ofNat 2048 (packElems t.width es)

/-- The rounding a ROUND field names (Table Ruhaic 3). -/
def rndOf (r : BitVec 2) : Rnd :=
  match r.toNat with
  | 0 => .nearest | 1 => .zero | 2 => .up | _ => .down

/-- The 64-bit sign extension of an IMM or OFF field (Table Ruhaic 3). -/
def sext32 (i : BitVec 32) : BitVec 64 := i.signExtend 64

end Sys2Proof.Machine
end

