-- ==== Sys2Proof/Machine/RuhaicIssue.lean ====
section
/-!
DEFINITION. How an operation issues into the current bundle of a core: the slot and destination rules, results in
flight, and the faults noticed in a bundle, which take effect when the bundle ends
(spec/10_the_ruhaic_core.md, R261 to R266, R283, R284).
-/
namespace Sys2Proof.Machine

/-- The core `n`. -/
def State.core (s : State) (n : Nat) : RCore := tgetD s.cores n {}

/-- Write back core `n`. -/
def State.setCore (s : State) (n : Nat) (c : RCore) : State := { s with cores := tset s.cores n c }

/-- A locator of kind 0x4 (Table Packet 9): cause, core and bundle offset. -/
def coreLocator (cause core pc : Nat) : Nat := 4 <<< 60 + cause <<< 48 + core <<< 40 + pc % 2 ^ 32

/-- The core issues operations: it runs a job, has not exited and is not stalled (R257, R269). -/
def RCore.issuing (c : RCore) : Bool := c.packet.isSome && !c.exited && c.stall.isNone

/-- Note a fault of the current bundle, keeping the one of higher precedence (R284). -/
def RCore.noteFault (c : RCore) (rank loc : Nat) : RCore :=
  match c.fault with
  | some f => if rank < f.rank then { c with fault := some { rank := rank, locator := loc } } else c
  | none => { c with fault := some { rank := rank, locator := loc } }

/-- Note an illegal bundle (R283). -/
def RCore.illegal (c : RCore) (n : Nat) : RCore := c.noteFault 0 (coreLocator 1 n c.pc)

/-- Note an access out of its window (Table Ruhaic 8). -/
def RCore.outOfWindow (c : RCore) (n : Nat) : RCore := c.noteFault 2 (coreLocator 2 n c.pc)

/-- A locator of kind 0x1 for a device address. -/
def deviceLocator (a : Nat) : Nat := 1 <<< 60 + a % 2 ^ 52

/-- Note poison consumed, naming the first poisoned unit the job loaded (Table Ruhaic 8). -/
def RCore.consumed (c : RCore) : RCore := c.noteFault 1 (deviceLocator (c.firstPoison.getD 0))

/-- Queue a result that becomes visible `lat` bundles on (R263). -/
def RCore.queue (c : RCore) (lat : Nat) (d : Dest) (v : RegVal) (chain : Bool := false) : RCore :=
  { c with pending := c.pending ++ [{ due := c.bundles + lat, issued := c.bundles, dest := d, val := v, chain := chain }] }

/-- The core with a slot taken, and its destination, in the current bundle. -/
def RCore.occupy (c : RCore) (sl : Slot) (d : Option Dest) : RCore :=
  { c with slots := c.slots ++ [sl], dests := d.elim c.dests (fun x => c.dests ++ [x]) }

/-- Operations of one bundle: a slot holds one of them, two slots never name one destination, and nothing issues
beyond the code section (R261, R264, R269 edges). `k` is the operation's own part. -/
def RCore.inSlot (c : RCore) (n : Nat) (sl : Slot) (d : Option Dest) (k : RCore → RCore) : RCore :=
  if c.slots.contains sl then c
  else
    let c1 := c.occupy sl d
    if c.codeLen ≠ 0 ∧ c.codeLen ≤ 64 * c.pc then c1.illegal n
    else match d with
      | some x => if c.dests.contains x then c1.illegal n else k c1
      | none => k c1

/-- Issue an operation on core `n`; a core that is not issuing takes none (notes/assumptions/6.md). -/
def State.issueOn (s : State) (n : Nat) (sl : Slot) (d : Option Dest) (k : RCore → RCore) : State :=
  let c := s.core n
  if c.issuing then s.setCore n (c.inSlot n sl d k) else s

/-- The slot a scalar operation names. -/
def slotOf : SSlot → Slot
  | .s0 => .s0
  | .s1 => .s1

/-- A scalar operation from X sources: a marked source is consumed; a guard that is off issues nothing (R260, R265). -/
def RCore.scalar (c : RCore) (g : Guard) (srcs : List XVal) (k : RCore → RCore) : RCore :=
  if !c.acts g then c
  else if srcs.any (·.poison) then c.consumed
  else k c

/-- A scalar operation `XD = f XA XB` of latency `lat`. -/
def State.scalarOp (s : State) (n : Nat) (sl : SSlot) (g : Guard) (xd : Nat) (srcs : List Nat) (lat : Nat)
    (f : List (BitVec 64) → BitVec 64) : State :=
  s.issueOn n (slotOf sl) (some (.x xd)) (fun c =>
    let vs := srcs.map c.readX
    c.scalar g vs (fun c => c.queue lat (.x xd) (.x { val := f (vs.map (·.val)) })))

/-- A scalar operation whose result is a predicate (Table Ruhaic 4, latency 1). -/
def State.predOp (s : State) (n : Nat) (sl : SSlot) (g : Guard) (pd : Nat) (srcs : List Nat)
    (f : List (BitVec 64) → BitVec 64) : State :=
  s.issueOn n (slotOf sl) (some (.p pd)) (fun c =>
    let vs := srcs.map c.readX
    c.scalar g vs (fun c => c.queue 1 (.p pd) (.p (f (vs.map (·.val))) (BitVec.allOnes 64))))

/-- The lanes of `l` in which a source vector is marked. -/
def marked (v : VVal) (l : BitVec 64) : Bool := v.poison &&& l != 0

/-- A V or T operation: an enabled marked lane of a source is consumed (R265, R419). -/
def RCore.vector (c : RCore) (l : BitVec 64) (srcs : List VVal) (k : RCore → RCore) : RCore :=
  if srcs.any (fun v => marked v l) then c.consumed else k c

/-- The next free value, for a core's operation. -/
def State.freeBits (s : State) (w : Nat) : BitVec w × State := (Config.freeBits w s.free, { s with free := s.free + 1 })

end Sys2Proof.Machine
end

