-- ==== Sys2Proof/Machine/Wire.lean ====
section
/-!
DEFINITION. The link layer of the fabric ports: sequence numbers, the replay buffer, credits, virtual channels, and
messages cut into flits (spec/16_pairs_and_constellations.md, R430 to R435).
-/
namespace Sys2Proof.Machine

/-- A port. -/
def State.port (s : State) (p : Nat) : Port := tgetD s.fabric.ports p {}

/-- Change a port. -/
def State.modPort (s : State) (p : Nat) (f : Port → Port) : State :=
  { s with fabric := { s.fabric with ports := tset s.fabric.ports p (f (s.port p)) } }

/-- A binary port (R429). -/
def isBinary (p : Nat) : Bool := p == 10 || p == 11

/-- Flits the replay buffer holds at most (R432). -/
def replayFlits : Nat := 1024

/-- A channel may send: it has a flit, a credit, and may be used before authentication only as VC0 (R433, R439). -/
def Port.mayUse (p : Port) (binary : Bool) (vc : Nat) : Bool :=
  p.queued.any (fun f => f.vc == vc) && decide (0 < tgetD p.credits vc 0) && (vc == 0 || !binary || p.secured)

/-- The channel the sender chooses: VC3 after 15 flits without it, else strict priority (R433). -/
def Port.chooseVc (p : Port) (binary : Bool) : Option Nat :=
  if 15 ≤ p.sinceVc3 ∧ p.mayUse binary 3 then some 3 else [0, 1, 2, 3].find? (fun vc => p.mayUse binary vc)

/-- Send one data flit, if a channel may (R432, R433). -/
def Port.sendOne (p : Port) (binary : Bool) : Option Port :=
  if p.state ≠ .up ∨ replayFlits ≤ p.replay.length then none
  else
    match p.chooseVc binary with
    | none => none
    | some vc =>
      match p.queued.find? (fun f => f.vc == vc), p.queued.findIdx? (fun f => f.vc == vc) with
      | some f, some i =>
        some { p with queued := p.queued.eraseIdx i, replay := p.replay ++ [{ f with seq := p.txSeq }]
                      txSeq := (p.txSeq + 1) % 4096, credits := tmod p.credits vc 0 (· - 1)
                      underKey := p.underKey + (if p.secured ∧ vc ≠ 0 then 1 else 0)
                      sinceVc3 := if vc = 3 then 0 else if p.queued.any (fun f => f.vc == 3) then p.sinceVc3 + 1 else 0 }
      | _, _ => none

/-- Send as many flits as credits and the replay buffer allow. -/
def Port.pump (binary : Bool) : Nat → Port → Port
  | 0, p => p
  | n + 1, p =>
    match p.sendOne binary with
    | some q => q.pump binary n
    | none => p

/-- Let a port send what it can. -/
def State.pump (s : State) (p : Nat) : State := s.modPort p (fun x => x.pump (isBinary p) x.queued.length)

/-- Queue a control record, up to 16 of which share a control flit (R434). -/
def State.sendControl (s : State) (p : Nat) (r : List Byte) : State :=
  s.modPort p (fun x => if x.state = .up ∨ x.state = .lantern then { x with control := x.control ++ [padTo 16 r] } else x)

/-- Cut a message into flits of 256 bytes (R435). -/
def toFlits (vc : Nat) (bytes : List Byte) : Nat → List Flit
  | 0 => []
  | n + 1 =>
    let rest := toFlits vc (bytes.drop 256) n
    { seq := 0, typ := 1, vc := vc, first := false, last := rest.isEmpty, bytes := padTo 256 bytes } :: rest

/-- The header of a message and its body (R435). -/
def Message.encode (m : Message) : List Byte :=
  le 1 m.dst ++ le 1 m.src ++ le 1 m.typ ++ le 1 0 ++ le 4 (16 + m.body.length) ++ le 8 m.tag ++ m.body

/-- Hand a message to a port: its flits join the port's queue and leave as credits allow (R433, R435). -/
def State.sendMessage (s : State) (m : Message) : State :=
  let bytes := m.encode
  let fs := match toFlits m.vc bytes ((bytes.length + 255) / 256) with
    | f :: fs => { f with first := true } :: fs
    | [] => []
  let s := { s with fabric := { s.fabric with sent := s.fabric.sent ++ [m] } }
  (s.modPort m.port (fun x => { x with queued := x.queued ++ fs })).pump m.port

/-- The message types of this model: the spec numbers none (notes/assumptions/11.md). -/
inductive MsgType
  | recordUpdate | recordAck | seqRequest | seqGrant | mirrorWrite | mirrorAck | logRecord | routes | subPacket
  | result | cancel | regionCopy | objectCopy | objectDelete
  deriving DecidableEq, Repr

/-- The number of a type. -/
def MsgType.code : MsgType → Nat
  | .recordUpdate => 1 | .recordAck => 2 | .seqRequest => 3 | .seqGrant => 4 | .mirrorWrite => 5 | .mirrorAck => 6
  | .logRecord => 7 | .routes => 8 | .subPacket => 9 | .result => 10 | .cancel => 11 | .regionCopy => 12
  | .objectCopy => 13 | .objectDelete => 14

/-- Send a message to the twin, on the port that carries mirror traffic (R404, R436 edges). -/
def State.toTwin (s : State) (vc : Nat) (ty : MsgType) (tag : Nat) (body : List Byte) : State :=
  s.sendMessage { port := s.fabric.mirrorPort, vc := vc, dst := 0, src := s.const.member, typ := ty.code, tag := tag
                  body := body }

end Sys2Proof.Machine
end

