-- ==== Sys2Proof/Machine/Ops.lean ====
section
/-!
DEFINITION. The operations every family shares: powered time, event records and trace records, completions, host
memory, partitions, units and the end of a run by a fault.
-/
namespace Sys2Proof.Machine

/-! ### Time and small updates -/

/-- The state at powered time `t` ns; powered time never falls (R110). -/
def State.at (s : State) (t : Nat) : State := { s with now := max s.now t }

/-- The record of a domain's power (Table Power 5 PWR_DOMAINS). -/
def State.powered (s : State) (d : Nat) : Bool := s.power.domains.getLsbD d

/-- A write to a block of an unpowered domain is ignored, and OFFWR is set (R480). -/
def State.offWrite (s : State) : State := { s with power := { s.power with offwr := true } }

/-- The unit entry of unit `u` (R502). -/
def State.unit (s : State) (u : Nat) : UnitEntry := tgetD s.units.table u {}

/-- Change the entry of unit `u`. -/
def State.modUnit (s : State) (u : Nat) (f : UnitEntry → UnitEntry) : State :=
  { s with units := { s.units with table := tset s.units.table u (f (s.unit u)) } }

/-- Bytes of a function's number of microseconds in a period code (R55). -/
def periodUs : Nat → Nat
  | 0 => 125 | 1 => 250 | 2 => 500 | 3 => 1000 | 4 => 2000 | _ => 4000

/-- The period in force, in µs. -/
def State.period (s : State) : Nat := periodUs s.meridian.period

/-! ### The Tailings trace (R581 to R585) -/

/-- A filter of R583 keeps the record; `group` is the event group of an EVENT record. -/
def TraceCfg.keeps (c : TraceCfg) (kind tenant group : Nat) : Bool :=
  c.kinds.getLsbD kind && (tenant == 0xFF || c.tenants.getLsbD tenant) &&
  (kind != 5 || c.evgroups.getLsbD group)

/-- This hewer's own survey entry. -/
def State.ownSurvey (s : State) : SurveyEntry := tgetD s.lodestar.survey s.const.member {}

/-- Write one record to the ring, if Tally runs and the record is kept; none is written from the clear of ENABLE and its set in one
frame to the tick that restarts the ring (R581, R582, the edges of R585). -/
def State.trace (s : State) (kind tenant ref : Nat) (data : List Byte) (group : Nat := 0) : State :=
  let tr := s.tailings
  let hewer := s.const.role = .hewer
  if !s.powered 4 || s.global.mfault || !tr.cfg.enable || tr.restart.isSome || !tr.cfg.keeps kind tenant group then s
  else if !tr.cfg.wrap && decide (tr.size * 1024 ≤ tr.seq) then
    { s with tailings := { tr with dropCnt := satAdd 32 tr.dropCnt 1 } }
  else
    let r : TraceRec := { kind := kind, tenant := tenant, stale := hewer && s.ownSurvey.stale,
                          unsurveyed := hewer && !s.ownSurvey.valid, boot := s.meridian.bootCount, pt := s.now,
                          frame := s.meridian.frame, seq := tr.seq, ref := ref, data := padTo 24 data }
    let seq := tr.seq + 1
    { s with tailings := { tr with ring := tset tr.ring (tr.seq % (tr.size * 1024)) r, seq := seq,
                                   wrapCnt := if seq % (tr.size * 1024) = 0 then satAdd 32 tr.wrapCnt 1 else tr.wrapCnt } }

/-! ### Host memory and completions -/

/-- Write bytes to host memory from an address. -/
def writeHost (m : Tbl Byte) (a : Nat) : List Byte → Tbl Byte
  | [] => m
  | b :: bs => writeHost (tset m a b) (a + 1) bs

/-- Write bytes over the runs of a data pointer, as far as they reach. -/
def writeRuns (m : Tbl Byte) : List (Nat × Nat) → List Byte → Tbl Byte
  | [], _ => m
  | (a, n) :: rs, d => writeRuns (writeHost m a (d.take n)) rs (d.drop n)

/-- A function's controller. -/
def State.ctrl (s : State) (fn : Nat) : Controller := tgetD s.link.controllers fn {}

/-- Write back a function's controller. -/
def State.setCtrl (s : State) (fn : Nat) (c : Controller) : State :=
  { s with link := { s.link with controllers := tset s.link.controllers fn c } }

/-- The completion queue of a submission queue: the admin queues are numbered 0. -/
def Controller.cqOf (c : Controller) (sqid : Nat) : Nat := (tget? c.sqs sqid).elim 0 (·.cqid)

/-- Put an entry on a completion queue, or hold it back while the queue is full (R49). -/
def Cq.put (q : Cq) (e : Cqe) (pk : Option Nat) : Cq :=
  if q.posted.length + 1 < q.depth ∧ q.held.isEmpty then { q with posted := q.posted ++ [e] }
  else { q with held := q.held ++ [{ cqe := e, packet := pk }] }

/-- Whether the module can still post: no module fault (R422), and the controller is enabled on a live link. -/
def State.canPost (s : State) (fn : Nat) : Bool :=
  !s.global.mfault && (s.ctrl fn).enabled && !s.power.off

/-- Post a completion on a completion queue of a function. -/
def State.postOn (s : State) (fn cqid : Nat) (e : Cqe) (pk : Option Nat := none) : State :=
  if s.canPost fn then
    let c := s.ctrl fn
    s.setCtrl fn { c with cqs := tmod c.cqs cqid {} (fun q => q.put e pk), busyAt := some s.now }
  else s

/-- Complete a command on the queue paired with its own. -/
def State.completeOn (s : State) (fn sqid cid : Nat) (st : NvmeStatus) (dw0 dw1 : Nat) : State :=
  s.postOn fn ((s.ctrl fn).cqOf sqid) { sqid := sqid, cid := cid, status := st, dw0 := dw0, dw1 := dw1 }

/-- Complete a command. -/
def State.complete (s : State) (q : Sqe) (st : NvmeStatus) (dw0 : Nat := 0) (dw1 : Nat := 0) : State :=
  s.completeOn q.fn q.sqid q.cid st dw0 dw1

/-- Send data to the host over the command's data pointer. -/
def State.toHost (s : State) (q : Sqe) (d : List Byte) : State :=
  if s.global.mfault then s else { s with link := { s.link with mem := writeRuns s.link.mem q.buf d } }

/-! ### Event records (R637 to R642, R424 to R427, R479) -/

/-- A function sees a record: the PF every one, a VF those of its own tenant (R609). -/
def eventVisible (fn tenant : Nat) : Bool := fn == 0 || fn == tenant

/-- Announce a record on one function (R640). -/
def State.announceOn (s : State) (fn : Nat) : State :=
  let c := s.ctrl fn
  match c.aers with
  | (sq, cid) :: rest =>
    if c.eventUnread then s
    else
      let s := s.setCtrl fn { c with aers := rest, eventUnread := true }
      s.completeOn fn sq cid .success 0x00C00007 0
  | [] => s

/-- Announce a record on every function that sees it, the PF first. -/
def State.announce (s : State) (tenant : Nat) : State :=
  ((s.link.controllers.map (·.1)).filter (fun fn => eventVisible fn tenant)).foldl State.announceOn s

/-- Records a region holds (R641). -/
def ringRecords : Nat := 131072

/-- Enter a record in the ring or the spare region, over the oldest when it is full (R641). -/
def EventLog.enterRing (l : EventLog) (r : EventRec) : EventLog :=
  if l.ring.length < ringRecords then { l with ring := l.ring ++ [r] }
  else
    let lost := l.persisted = 0
    { l with ring := l.ring.drop 1 ++ [r], persisted := l.persisted - 1
             overwritten := if lost then l.overwritten + 1 else l.overwritten
             recordsLost := l.recordsLost || lost }

/-- Write a record to the register at LG_WIDX (R426, R427). -/
def EventLog.enterGasp (l : EventLog) (r : EventRec) : EventLog :=
  let old := tgetD l.gasp l.lgWidx {}
  let lost := old.record.isSome && !old.acked
  { l with gasp := tset l.gasp l.lgWidx { record := some r }
           lgWidx := (l.lgWidx + 1) % 16
           lgLost := if lost then satAdd 16 l.lgLost 1 else l.lgLost }

/-- A binary port is up and the twin is authenticated; once a loss of input power is declared, the binary ports carry no traffic of the
pair (R404, R426, R631). -/
def State.binaryLive (s : State) : Bool :=
  s.power.lossDeclared.isNone && s.pair.auth && ((s.port 10).state == .up || (s.port 11).state == .up)

/-- Enter a record with the next sequence number in the stage's places. -/
def State.enter (s : State) (code tenant timeNs : Nat) (data : List Byte) : State :=
  let l := s.log
  let r : EventRec := { code := code, tenant := tenant, seq := l.nextSeq, timeNs := timeNs, data := padTo 22 data }
  let l := { l with nextSeq := l.nextSeq + 1 }
  if s.global.mfault then { s with log := l.enterGasp r }
  else
    let l := if l.stage = 3 then
        let l := l.enterGasp r
        let l := if s.binaryLive then { l with toTwin := l.toTwin ++ [r] } else l
        if l.regionReadable then l.enterRing r else l
      else l.enterRing r
    { s with log := l }.announce tenant

/-- Raise an event (R643): into the log, or into the D0 event queue of 64 records while D4 is off (R479). -/
def State.raise (s : State) (code tenant : Nat) (data : List Byte) : State :=
  if s.powered 4 ∨ s.global.mfault then
    let s := s.enter code tenant s.now data
    s.trace 5 tenant 0 (le 2 code ++ padTo 22 data) (code / 256)
  else
    let r : EventRec := { code := code, tenant := tenant, seq := 0, timeNs := s.now, data := padTo 22 data }
    let q := s.log.d0Queue
    if q.length < 64 then { s with log := { s.log with d0Queue := q ++ [r] } }
    else { s with log := { s.log with d0Queue := q.drop 1 ++ [r] }
                  power := { s.power with evqLost := satAdd 16 s.power.evqLost 1 } }

/-- Raise a module event. -/
def State.raiseM (s : State) (code : Nat) (data : List Byte) : State := s.raise code 0xFF data

/-! ### What a change tells management and the measurements (R593, R598) -/

/-- MEASUREMENT_CHANGED for a measurement block (R598). -/
def State.measurementChanged (s : State) (idx : Nat) : State := s.raiseM 0x0B04 [BitVec.ofNat 8 idx]

/-- The saved boot-area configuration that block 5 measures, without the role (Table Mgmt 4). -/
def Saved.measured (v : Saved) : Nat × Option Word32 × Tbl Nat × Option OrreryTable × Bool × Nat × Nat :=
  (v.period, v.c1h, v.quotas, v.orrery, v.heccLevel, v.poolSize, v.trcSize)

/-- Change the boot area's saved values (R519, R598). -/
def State.save (s : State) (f : Saved → Saved) : State :=
  let v := f s.saved
  let changed := v.measured != s.saved.measured
  let s := { s with saved := v }
  if changed then s.measurementChanged 5 else s

/-- A PlatformEventMessage for a sensor, once a receiver is set (R593). -/
def State.platformEvent (s : State) (sensor : Nat) (value : Int) : State :=
  if s.manage.eventReceiver.isSome then
    { s with manage := { s.manage with platformEvents :=
        s.manage.platformEvents ++ [{ sensor := sensor, value := value }] } }
  else s

/-- A reply of the management path (R589). -/
def State.reply (s : State) (status : Nat) (bytes : List Byte) : State :=
  { s with manage := { s.manage with replies := { status := status, bytes := bytes } :: s.manage.replies } }

/-- A request on the management bus that D0 answers by itself: with the bus supplied and D0 powered (R587, R588, R617). -/
def State.mgmtHeld (s : State) (t : Nat) (k : State → State) : State :=
  let s := s.at t
  if s.power.off || s.power.lossDeclared.isSome || !s.power.mgmtVio || !s.startup.ended.contains .d0 then s else k s

/-- One that needs the rest of the module: in P3 and P4 it waits for the first frame after the wake that it causes (R588). -/
def State.mgmt (s : State) (t : Nat) (k : State → State) : State :=
  s.mgmtHeld t (fun s => if s.power.lantern == .asleep || s.power.lantern == .waking then s else k s)

/-! ### Admin and I/O commands -/

/-- Commands are fetched on a function: enabled and ready, on a live link, in a state that fetches (R423, R485). -/
def State.fetches (s : State) (fn : Nat) : Bool :=
  let c := s.ctrl fn
  c.enabled && c.ready && !c.stopped && !c.cfs && !s.global.mfault && !s.power.off &&
  (s.power.lantern == .none || s.power.lantern == .pending) &&
  (fn == 0 || s.link.vfEnabled.contains fn)

/-- A command that arrives after step 1 of a Lantern entry abandons it; the request stays pending (R485). -/
def State.abandonEntry (s : State) : State :=
  if s.power.lantern == .entering then
    { s with power := { s.power with lantern := .pending, lanternStep := 0, lanternFrame := s.meridian.frame } }
  else s

/-- A command at its time: nothing while its function does not fetch; Sanitize In Progress for a command NVMe does not
permit during a sanitize (R605); else `k`. -/
def State.command (s : State) (q : Sqe) (duringSanitize : Bool) (k : State → State) : State :=
  let s := s.at q.t
  let s := if (s.ctrl q.fn).enabled then s.abandonEntry else s
  if !s.fetches q.fn then s
  else if s.manage.sanitize.running && !duringSanitize then s.complete q .sanitizeInProgress
  else k s

/-- A command only the PF accepts: Invalid Command Opcode elsewhere (R138). -/
def State.pfCommand (s : State) (q : Sqe) (k : State → State) : State :=
  s.command q false (fun s => if q.fn ≠ 0 then s.complete q .invalidOpcode else k s)

/-- Bits of a command dword. -/
def dwField (w : BitVec 32) (lo len : Nat) : Nat := field w.toNat lo len

/-! ### Tally (R570, R571) -/

/-- Note a count for the frame in progress. -/
def State.count (s : State) (tenant record : Nat) (f : TField) (v : Nat) : State :=
  { s with tally := { s.tally with now := s.tally.now ++ [{ tenant := tenant, record := record, field := f, value := v }] } }

/-! ### Units (R502 to R506) -/

/-- Number of units. -/
def unitCount : Nat := 375

/-- The power domain of a unit (Table Unit 1, Table Power 1). -/
def unitDomain (u : Nat) : Nat :=
  if u < 32 then 9 else if u < 64 then 10 else if u < 160 then 7 else if u < 256 then 8
  else if u < 288 then 9 else if u < 320 then 10 else if u < 326 then 7 else if u < 332 then 8
  else if u < 348 then 4 else if u < 352 then 5 else if u < 358 then (if u < 356 then 6 else 5)
  else if u < 362 then 4 else if u = 362 then 1 else if u < 369 then 2 else 3

/-- A unit that can be reset alone (Table Unit 1). -/
def singleReset (u : Nat) : Bool := u < 348 || (363 ≤ u && u < unitCount)

/-- The units of the same kind (Table Unit 1). -/
def unitKind (u : Nat) : Nat :=
  if u < 64 then 0 else if u < 256 then 1 else if u < 320 then 2 else if u < 332 then 3
  else if u < 348 then 4 else if u < 363 then 5 + u else 1000

/-- Record a change of state (UT_CHANGED) and trace it (KIND 0x9). -/
def State.setUnitState (s : State) (u : Nat) (st : UState) (cause : Nat := 0) : State :=
  let e := s.unit u
  if e.state = st then s
  else
    let s := s.modUnit u (fun e => { e with state := st, changed := s.meridian.frame % 2 ^ 32 })
    s.trace 9 0xFF u ([BitVec.ofNat 8 e.state.code, BitVec.ofNat 8 st.code] ++ le 6 e.epoch ++ [BitVec.ofNat 8 cause])

/-- What has been granted or observed takes effect at this tick, before placement (R504, R508, R511). -/
def UnitEntry.leaving (e : UnitEntry) : Bool :=
  e.asked.any (fun a => a.1 != .probe && a.1 != .ret) || e.observed.any (fun o => decide (e.state.code < o.1))

/-- The unit is eligible for placement (R503, R85): ACTIVE, its domain powered and not late at this tick. -/
def State.eligibleUnit (s : State) (u : Nat) : Bool :=
  (s.unit u).state == .active && !(s.unit u).leaving && s.powered (unitDomain u) && !s.meridian.waiting.contains (unitDomain u) &&
  !s.meridian.lateNow.contains (unitDomain u)

/-- A locator of kind 0x3 (Table Packet 9). -/
def unitLocator (epoch u : Nat) : Nat := 3 <<< 60 + (epoch % 2 ^ 32) <<< 16 + u % 2 ^ 16

/-! ### Runs and their faults (R400, R408) -/

/-- The row of Table Ruhaic 8 of a fault event, 1 to 5. -/
def FaultEvent.row : FaultEvent → Nat
  | .illegalBundle => 1 | .outOfWindow => 2 | .watchdog => 3 | .poison => 4 | .unitLoss => 5

/-- A core with no job: what belongs to the job is gone, what belongs to the core stays (R259). -/
def RCore.idle (c : RCore) : RCore :=
  { bound := c.bound, image := c.image, ready := c.ready, kernelStore := c.kernelStore,
    streamingUntil := c.streamingUntil }

/-- A core's clock is stepped (R495): PWR_STEP.DOM bit 0 is D7. -/
def State.coreStepped (s : State) (n : Nat) : Bool := s.power.stepped.getLsbD (unitDomain n - 7)

/-- Add cycles to the counts of a core's drift or cluster: with a job held, and stalled at crossings (Tables Reg 4 and 5). -/
def State.addCycles (s : State) (n busy stall : Nat) : State :=
  if n < 64 then
    { s with blocks := { s.blocks with drifts := tmod s.blocks.drifts n {} (fun d =>
      { d with busy := satAdd 32 d.busy busy, xstall := satAdd 32 d.xstall stall }) } }
  else
    { s with blocks := { s.blocks with clusters := tmod s.blocks.clusters ((n - 64) / 16) {} (fun c =>
      { c with busy := satAdd 32 c.busy busy, xstall := satAdd 32 c.xstall stall }) } }

/-- Count the cycles up to now of the cores that hold a job and pass a test: 1.1 GHz, or 0.825 GHz while stepped (R495). -/
def State.accrueBusy (s : State) (f : RCore → Bool) : State :=
  s.cores.foldl (fun s (x : Nat × RCore) =>
    if x.2.packet.isSome && f x.2 then
      let s := s.addCycles x.1 ((s.now - x.2.since) * (if s.coreStepped x.1 then 825 else 1100) / 1000) 0
      s.setCore x.1 { x.2 with since := s.now }
    else s) s

/-- Take a packet's job off its cores (R408). -/
def State.stopCores (s : State) (key : Nat) : State :=
  let s := s.accrueBusy (fun c => c.packet = some key)
  { s with cores := tmapv s.cores (fun _ c => if c.packet = some key then c.idle else c) }

/-- Free lodes that a run took as job lodes: they go to the dirty list (R324, R399). -/
def State.freeJobLodes (s : State) (hs : List Nat) : State :=
  { s with cage := { s.cage with map := hs.foldl (fun m h => terase m h) s.cage.map } }

/-- An object of a list by its handle. -/
def objIn (os : List Object) (h : Nat) : Option Object := os.find? (fun o => o.handle == h && h != 0)

/-- A packet whose CQE is not posted. -/
def Packet.open_ (p : Packet) : Bool := p.phase != .answered || p.cqeHeld

/-- A packet with a receipt point. -/
def State.packet? (s : State) (key : Nat) : Option Packet := tget? s.packets.live key

/-- Change a packet's record. A change that its twin mirrors is not acknowledged yet (R404). -/
def State.modPacket (s : State) (key : Nat) (f : Packet → Packet) : State :=
  { s with packets := { s.packets with live := tupd s.packets.live key f } }

/-- A change of the shift record: the twin is sent the update (R404). -/
def State.updateRecord (s : State) (key : Nat) (f : Packet → Packet) : State :=
  let live := s.binaryLive
  let s := s.modPacket key (fun p => { f p with mirrored := false })
  match s.packet? key with
  | some p =>
    if bitAt p.hdr.flags 2 ∧ live then
      s.toTwin 1 .recordUpdate key (le 8 p.hdr.packetId ++ le 1 p.tenant)
    else s
  | none => s

/-- What a run's cores and lodes leave behind when it stops without delivering: nothing (R399). -/
def Packet.clearRun (p : Packet) : Packet :=
  { p with staging := [], stagingPoison := [], payload := [], cores := [], jobLodes := [], satd := false
           truncated := false, changes := [], deletes := [], evaluated := [] }

/-- The core a core locator names. -/
def locatorUnit (loc : Nat) : Option Nat :=
  match field loc 60 4 with
  | 4 => some (field loc 40 8)
  | 3 => some (field loc 0 16)
  | _ => none

/-- Count a job fault at its unit and its core (UT_FAULTS, CORE_j.FAULTS). -/
def State.countFault (s : State) (loc : Nat) : State :=
  match locatorUnit loc with
  | some u =>
    let s := if u < unitCount then s.modUnit u (fun e => { e with faults := satAdd 32 e.faults 1 }) else s
    if 64 ≤ u ∧ u < 256 then
      let k := (u - 64) / 16
      { s with blocks := { s.blocks with clusters := tmod s.blocks.clusters k {} (fun c =>
          { c with faults := tmod c.faults ((u - 64) % 16) 0 (fun n => satAdd 8 n 1) }) } }
    else s
  | none => s

/-- The phases in which a job has started and not delivered. -/
def Packet.inRun (p : Packet) : Bool := p.phase == .running || p.phase == .finished

/-- A fault ends the run (R283, R400, R408): cores stop, streams end, job lodes are freed, the record awaits replay. -/
def State.faultJob (s : State) (key : Nat) (ev : FaultEvent) (loc : Nat) (unit : Nat := 0) (lost : Bool := false) :
    State :=
  match s.packet? key with
  | none => s
  | some p =>
    if !p.inRun then s
    else
      let s := s.stopCores key
      let s := s.freeJobLodes p.jobLodes
      let s := s.updateRecord key (fun p =>
        { p.clearRun with phase := .replaying, lastLoc := loc, progress := [],
                          fault := some { event := ev, locator := loc, lostEntry := lost, unit := unit,
                                          frame := s.meridian.frame } })
      let s := s.countFault loc
      s.raise 0x0501 p.tenant (le 8 p.hdr.packetId ++ [BitVec.ofNat 8 ev.row, BitVec.ofNat 8 p.replays] ++ le 8 loc)

/-- Every job that holds a core of the list faults with the loss of a unit (R515). -/
def State.faultHolders (s : State) (cores : List Nat) (u : Nat) : State :=
  let keys := dedupNat (cores.filterMap (fun n => (s.core n).packet))
  keys.foldl (fun s k => s.faultJob k .unitLoss (unitLocator (s.unit u).epoch u) u) s

/-- The code of a status (Table Packet 10). -/
def AnsStatus.code : AnsStatus → Nat
  | .done => 0x00 | .refusedMalformed => 0x10 | .refusedOpcode => 0x11 | .refusedObject => 0x12
  | .refusedBudget => 0x13 | .refusedState => 0x14 | .refusedCap => 0x15
  | .failedPoison => 0x20 | .failedReplays => 0x21 | .failedUnit => 0x22 | .failedMedia => 0x23
  | .aborted => 0x30 | .abortedReset => 0x31

/-- A refused answer. -/
def AnsStatus.refused (x : AnsStatus) : Bool := decide (0x10 ≤ x.code ∧ x.code < 0x20)

/-- A failed answer. -/
def AnsStatus.failed (x : AnsStatus) : Bool := decide (0x20 ≤ x.code ∧ x.code < 0x30)

/-- JOB_FAILED for a packet that ends with a FAILED_* status (R400). -/
def State.jobFailed (s : State) (p : Packet) (st : AnsStatus) (loc : Nat) : State :=
  if st.failed then s.raise 0x0502 p.tenant (le 8 p.hdr.packetId ++ [BitVec.ofNat 8 st.code, BitVec.ofNat 8 p.replays] ++ le 8 loc)
  else s

/-- A packet's run is over with a status that carries no payload: its answer is written by ANSWER_DELIVERY. -/
def State.conclude (s : State) (key : Nat) (st : AnsStatus) (loc : Nat) : State :=
  match s.packet? key with
  | none => s
  | some p =>
    let s := (s.stopCores key).freeJobLodes p.jobLodes
    let s := { s with cage := { s.cage with reserved := terase s.cage.reserved key } }
    let loc := if loc = 0 then p.lastLoc else loc
    (s.updateRecord key (fun p => { p.clearRun with phase := .finished, status := st, fault := none, lastLoc := loc })).jobFailed
      p st loc

/-- A job that R53 pre-empts: best effort, and neither a replay nor taken over (R511). -/
def Packet.bestEffort (p : Packet) : Bool := !p.contracted && p.replays == 0 && !p.takenOver

/-- Pre-empt a job: it loses its cores and its work since placement, and waits to restart (R53). -/
def State.preempt (s : State) (key : Nat) : State :=
  match s.packet? key with
  | none => s
  | some p =>
    if p.phase = .running then
      let s := (s.stopCores key).freeJobLodes p.jobLodes
      let y := s.tally
      let s := { s with tally := { y with preemptNow := y.preemptNow + p.cost, energyNow := y.energyNow + p.energy } }
      s.modPacket key (fun p => { p.clearRun with phase := .admitted, cost := 0, energy := 0 })
    else s

/-! ### Module fault (R422) -/

/-- Write a record on every binary port that is up. -/
def State.faultNotice (s : State) (cause : Nat) : State :=
  { s with fabric := { s.fabric with ports := tmapv s.fabric.ports (fun n p =>
      if (n = 10 ∨ n = 11) ∧ p.state = .up then
        { p with control := p.control ++ [padTo 16 [BitVec.ofNat 8 4, BitVec.ofNat 8 cause]] }
      else p) } }

/-- A module fault: the module stops answering; no fault notice once a loss is declared (R422, R440, R631). -/
def State.moduleFault (s : State) (cause : Nat) : State :=
  if s.global.mfault then s
  else
    let s := { s with global := { s.global with mfault := true, cause := cause }
                      link := { s.link with controllers := tmapv s.link.controllers (fun _ c =>
                        { c with stopped := true, cfs := true, ready := false }) } }
    let s := (s.raiseM 0x0505 [BitVec.ofNat 8 cause]).platformEvent 18 (cause + 1)
    let s := if s.power.lossDeclared.isSome then s else s.faultNotice cause
    { s with pair := { s.pair with detectOut := false } }

end Sys2Proof.Machine
end

