-- ==== Sys2Proof/Machine/Almanac.lean ====
section
/-!
DEFINITION. The Almanac: records and generations, and burns by stage and commit
(spec/19_power_up_and_the_almanac.md, R543 to R549).
-/
namespace Sys2Proof.Machine

/-- A generation of a record. -/
def Almanac.gen (a : Almanac) (r g : Nat) : Generation := tgetD a.gens (r * 4 + g) {}

/-- A generation is valid: COMMIT is burned and the CRC matches (R543). -/
def Generation.valid (g : Generation) : Bool := g.used && g.commit && g.crcOk

/-- Generations used of a record (R543). -/
def Almanac.usedCount (a : Almanac) (r : Nat) : Nat := ((List.range 4).filter (fun g => (a.gen r g).used)).length

/-- The current generation: the highest valid one (R543). -/
def Almanac.current (a : Almanac) (r : Nat) : Option Nat := ([3, 2, 1, 0].find? (fun g => (a.gen r g).valid))

/-- A record whose four generations are used (R543). -/
def Almanac.exhausted (a : Almanac) (r : Nat) : Bool := a.usedCount r == 4

/-- The 64 bytes of a record: its current generation, or zeros (R543). -/
def Almanac.record (a : Almanac) (r : Nat) : List Byte :=
  match a.current r with
  | some g => padTo 64 (a.gen r g).data
  | none => List.replicate 64 0

/-- A record as the view and READ show it: record 1 and the reserved ones as zeros (Table Start 2). -/
def Almanac.shown (a : Almanac) (r : Nat) : List Byte :=
  if r = 1 ∨ (5 ≤ r ∧ r ≤ 15) ∨ 48 ≤ r then List.replicate 64 0 else a.record r

/-- DW0 of READ and COMMIT (Table Start 3), and ALM_GEN (Table Start 4). -/
def Almanac.status (a : Almanac) (r : Nat) : Nat :=
  a.usedCount r + (a.current r).getD 7 <<< 4 + bit (a.exhausted r) <<< 8

/-- A record that ALMANAC BURN may burn (Table Start 2). -/
def hostRecord (r : Nat) : Bool := 16 ≤ r && r ≤ 47

/-- The pair identity of record 3 (R437, Table Pair 3). -/
def Almanac.pairId (a : Almanac) : PairId :=
  let d := a.record 3
  { pairId := leAt d 0 8, side := bitAt (leAt d 8 1) 0, twinKey := sliceBytes d 16 48 }

/-- The Almanac reader reads every record: the pair identity follows record 3 (R437, R543). -/
def State.readAlmanac (s : State) : State :=
  { s with almanac := { s.almanac with read := true }, pair := { s.pair with id := s.almanac.pairId } }

/-- ALMANAC_EXHAUSTED (R548). -/
def State.exhaustedEvent (s : State) (r : Nat) : State := s.raiseM 0x0B07 [BitVec.ofNat 8 r]

/-- A confirmation code: 32 bits from D0's random source, never zero (Table Start 3, R546). -/
def State.drawCode (s : State) : Nat × State :=
  (1 + Config.freeNat s.free % (2 ^ 32 - 1), { s with free := s.free + 1 })

/-- Stage a burn over any other (R546): its confirmation code. -/
def State.stageBurn (s : State) (r : Nat) (data : List Byte) (firmware : Bool) : Nat × State :=
  let (code, s) := s.drawCode
  (code, { s with almanac := { s.almanac with
    staged := some { record := r, data := padTo 64 data, boot := s.meridian.bootCount, code := code
                     firmware := firmware, atNs := s.now } } })

/-- Discard the staged burn. -/
def State.discardBurn (s : State) : State := { s with almanac := { s.almanac with staged := none } }

/-- Burn data into the lowest unused generation of a record that is not exhausted; `bad` is the read-back that failed: 0
the data, 1 the control word (R547). Blocks 3 and 4 measure record 4, block 4 records 0, 2 and 3 (R598). -/
def State.burn (s : State) (r : Nat) (data : List Byte) (bad : Option Nat) : State :=
  let g := s.almanac.usedCount r
  let e : Generation := { data := padTo 64 data, used := true, commit := bad != some 0, crcOk := bad.isNone }
  let s := { s with almanac := { s.almanac with gens := tset s.almanac.gens (r * 4 + g) e, staged := none } }
  let s := s.readAlmanac
  match bad with
  | none =>
    let s := s.raiseM 0x0B08 [BitVec.ofNat 8 r, BitVec.ofNat 8 g]
    let s := if r = 4 then s.measurementChanged 3 else s
    if r = 0 ∨ r = 2 ∨ r = 3 ∨ r = 4 then s.measurementChanged 4 else s
  | some k => s.raiseM 0x0B09 [BitVec.ofNat 8 r, BitVec.ofNat 8 g, BitVec.ofNat 8 k]

/-- CDW10 [13:8]: the record of ALMANAC BURN (R545). -/
def burnRecord (q : Sqe) : Nat := dwField q.d10 8 6

/-- ALMANAC_BURN_READ; an operation that Table Start 3 does not list fails (R545). -/
def execAlmanacBurnRead (q : Sqe) (s : State) : Result :=
  .next (s.pfCommand q (fun s =>
    if dwField q.d10 0 8 ≠ 0 then s.complete q .invalidField
    else (s.toHost q (s.almanac.shown (burnRecord q))).complete q .success (s.almanac.status (burnRecord q))))

/-- ALMANAC_BURN_STAGE (R545, R546, R548). -/
def execAlmanacBurnStage (q : Sqe) (s : State) : Result :=
  .next (s.pfCommand q (fun s =>
    let r := burnRecord q
    if !hostRecord r then s.complete q .invalidField
    else if s.almanac.exhausted r then (s.exhaustedEvent r).complete q .commandSequence
    else
      let (code, s) := s.stageBurn r q.data false
      s.complete q .success code))

/-- ALMANAC_BURN_COMMIT with the result of its read-backs (R547, R548). -/
def execAlmanacBurnCommit (q : Sqe) (bad : Option Nat) (s : State) : Result :=
  .next (s.pfCommand q (fun s =>
    if !hostRecord (burnRecord q) then s.discardBurn.complete q .invalidField
    else if s.almanac.exhausted (burnRecord q) then (s.discardBurn.exhaustedEvent (burnRecord q)).complete q .commandSequence
    else
      match s.almanac.staged with
      | none => s.complete q .commandSequence
      | some st =>
        if st.firmware ∨ st.code ≠ q.d11.toNat then s.discardBurn.complete q .commandSequence
        else if s.almanac.exhausted st.record then
          (s.discardBurn.exhaustedEvent st.record).complete q .commandSequence
        else
          let s := s.burn st.record st.data bad
          match bad with
          | none => s.complete q .success (s.almanac.status st.record)
          | some _ => s.complete q .internalError))

/-- ALMANAC_BURN_DISCARD (R546, Table Start 3). -/
def execAlmanacBurnDiscard (q : Sqe) (s : State) : Result :=
  .next (s.pfCommand q (fun s => s.discardBurn.complete q .success))

/-- STAGED_BURN_EXPIRY: 10 s of powered time after the STAGE (R546). -/
def execStagedBurnExpiry (t : Nat) (s : State) : Result :=
  let s := s.at t
  match s.almanac.staged with
  | some st => if st.atNs + 10000000000 ≤ s.now then .next s.discardBurn else .next s
  | none => .next s

end Sys2Proof.Machine
end

