-- ==== Sys2Proof/Machine/StopeMap.lean ====
section
/-!
DEFINITION. The Stope map, its hash chains, the Cage walker and its translation cache
(spec/12_tiers_stope_and_cage.md, R330 to R332), and reading object contents with their poison marks (R338).
-/
namespace Sys2Proof.Machine

/-- Bytes in a lode. -/
def lodeBytes : Nat := 65536

/-- The hash of a window lode number (R331): w[22:0] XOR (w[31:23] << 14). -/
def hashOf (w : Nat) : Nat := (field w 0 23) ^^^ (field w 23 9 <<< 14)

/-- The end mark of a chain (Table Tiers 5). -/
def chainEnd : Nat := 0x7FFFFF

/-- Lodes of Tier H, and of the firmware region (R321, Table Tiers 1). -/
def tierHLodes : Nat := 6291456

/-- See `tierHLodes`. -/
def firmwareLodes : Nat := 65536

/-- The Stope map entry of a Tier H lode: the firmware region and Tailings once Tier H is prepared (R536). -/
def Cage.entry (c : Cage) (h : Nat) : LodeEntry :=
  if c.prepared ∧ h < firmwareLodes + c.tailings then { state := .firmware, dirty := false } else tgetD c.map h {}

/-- Follow a chain from `at` for an entry of window lode `w`, at most `fuel` entries (R332). -/
def Cage.walk (c : Cage) (w : Nat) : Nat → Nat → Option Nat
  | 0, _ => none
  | fuel + 1, h =>
    if h = chainEnd then none
    else if (c.entry h).wlode = w ∧ ((c.entry h).state = .resident ∨ (c.entry h).state = .transit) then some h
    else c.walk w fuel (tgetD c.nexts h chainEnd)

/-- The Tier H lode that holds window lode `w` or is being filled with it (R332). -/
def Cage.find (c : Cage) (w : Nat) : Option Nat := c.walk w c.map.length (tgetD c.heads (hashOf w) chainEnd)

/-- The result of a translation (R332). -/
inductive Translated
  | hit (lode : Nat)
  | wait (lode : Nat)
  | miss
  deriving DecidableEq, Repr

/-- Translate a window lode: the translation cache first, then the chain (R332). -/
def Cage.translate (c : Cage) (w : Nat) : Translated :=
  match tget? c.tcache w with
  | some h => .hit h
  | none =>
    match c.find w with
    | none => .miss
    | some h => if (c.entry h).state = .resident then .hit h else .wait h

/-- Enter a translation in the cache of 16,384 entries (R332). -/
def Cage.cacheIn (c : Cage) (w h : Nat) : Cage :=
  { c with tcache := ((w, h) :: c.tcache.filter (fun p => p.1 != w)).take 16384 }

/-- Invalidate the cache entries of a window lode, before its entry changes (R332). -/
def Cage.cacheOut (c : Cage) (w : Nat) : Cage := { c with tcache := c.tcache.filter (fun p => p.1 != w) }

/-- Put a lode at the head of its chain (R331). -/
def Cage.chainIn (c : Cage) (h w : Nat) : Cage :=
  let k := hashOf w
  { c with nexts := tset c.nexts h (tgetD c.heads k chainEnd), heads := tset c.heads k h }

/-- Take a lode out of its chain (R331). -/
def Cage.chainOut (c : Cage) (h w : Nat) : Cage :=
  let k := hashOf w
  let nx := tgetD c.nexts h chainEnd
  if tgetD c.heads k chainEnd = h then
    { c with heads := (if nx = chainEnd then terase c.heads k else tset c.heads k nx), nexts := terase c.nexts h }
  else
    { c with nexts := terase (tmapv c.nexts (fun _ n => if n = h then nx else n)) h }

/-- Set REF on a resident lode that is read or written (R326). -/
def Cage.touch (c : Cage) (h : Nat) : Cage := { c with map := tupd c.map h (fun e => { e with ref := true }) }

/-- Ask for the page-in of a window lode that is neither resident nor in transit, and count the miss (R333, R334). -/
def Cage.want (c : Cage) (w : Nat) : Cage :=
  match c.translate w with
  | .hit h => (c.touch h).cacheIn w h
  | .wait _ => c
  | .miss =>
    if c.wanted.contains w then c
    else { c with wanted := c.wanted ++ [w], missCnt := satAdd 32 c.missCnt 1 }

/-- Window lodes of an object that `n` bytes from `off` touch. -/
def Object.wlodes (o : Object) (off n : Nat) : List Nat :=
  if n = 0 then []
  else (List.range ((off + n - 1) / lodeBytes - off / lodeBytes + 1)).map (fun i => o.base + off / lodeBytes + i)

/-- Every lode of a range is resident. -/
def Cage.allResident (c : Cage) (ws : List Nat) : Bool :=
  ws.all (fun w => match c.translate w with | .hit _ => true | _ => false)

/-- Whether a 64-byte unit of an object reads as poisoned: never written, beyond repair, or marked in the lode
that holds it (R338, R341, R419). -/
def unitPoisoned (c : Cage) (o : Object) (u : Nat) : Bool :=
  (!o.zeroed && !o.units.contains u) || (tget? o.badUnits u).isSome ||
  (match c.find (o.base + u / 1024) with
   | some h => (tget? (c.entry h).poison (u % 1024)).isSome
   | none => false)

/-- The device address of a unit of an object: its resident Tier H lode, or 0 when not resident. -/
def unitAddress (c : Cage) (o : Object) (u : Nat) : Nat :=
  match c.find (o.base + u / 1024) with
  | some h => lodeBytes * h + 64 * (u % 1024)
  | none => 0

/-- One byte of an object, or what a steward has stored over it in the lode that holds it (R348, R350). -/
def heldByte (c : Cage) (o : Object) (off : Nat) : Byte :=
  ((c.find (o.base + off / lodeBytes)).bind (fun h => tget? (c.entry h).stored (off % lodeBytes))).getD (cget o.bytes off)

/-- `n` bytes of an object from `off`, each with the mark of its unit; a never-written unit gives zeros (R137). -/
def objBytes (c : Cage) (o : Object) (off : Nat) : Nat → List (Byte × Bool)
  | 0 => []
  | n + 1 =>
    let u := off / 64
    let fresh := !o.zeroed && !o.units.contains u
    (if fresh then 0 else heldByte c o off, unitPoisoned c o u) :: objBytes c o (off + 1) n

/-- The live object under a handle (R155): the object number's entry, when its owner and number match. -/
def Objects.find (os : Objects) (handle : Nat) : Option Object :=
  match tget? os.live (field handle 0 48) with
  | some o => if o.handle = handle ∧ handle ≠ 0 then some o else none
  | none => none

/-- The owner a handle names (R155). -/
def handleTenant (h : Nat) : Nat := field h 48 16

/-- The kind of an object (spec/06_work_packets.md, Objects and handles). -/
def ObjBody.kind : ObjBody → Nat
  | .index _ => 1 | .kv _ => 2 | .model => 3 | .program => 4 | .buffer => 5 | .recordView => 6

/-- The first object of a tenant and kind draws its object key (R600). -/
def State.objectKey (s : State) (o : Object) : State :=
  let k := handleTenant o.handle * 8 + o.body.kind
  let m := s.manage
  if (tget? m.objKeys k).isSome then s
  else { s with manage := { m with objKeys := tset m.objKeys k (m.nextKey + 1), nextKey := m.nextKey + 1 } }

end Sys2Proof.Machine
end

