-- ==== Sys2Proof/Machine/Coherence.lean ====
section
/-!
DEFINITION. The Catalogue, the steward ring, and what stewards and uncached agents do to lines
(spec/13_coherence_and_ordering.md, R345 to R357; spec/12_tiers_stope_and_cage.md, R313, R338, R339).
-/
namespace Sys2Proof.Machine

/-- The places of Table Tiers 1. -/
inductive Tier
  | h | s | c | regs | f
  deriving DecidableEq, Repr

/-- The tier of a device address, none outside Table Tiers 1 (R313). -/
def tierOf (a : Nat) : Option Tier :=
  if a < 0x6000000000 then some .h
  else if 0x8000000000 ≤ a ∧ a < 0x8018000000 then some .s
  else if 0x9000000000 ≤ a ∧ a < 0x9004000000 then some .c
  else if 0xA000000000 ≤ a ∧ a < 0xA100000000 then some .regs
  else if 0x8000000000000 ≤ a ∧ a < 0x9000000000000 then some .f
  else none

/-- The object whose window range holds a window lode, and the lode's place in it (R314). -/
def State.objectAt (s : State) (w : Nat) : Option Object :=
  ((s.objects.live.map (·.2)).find? (fun o => decide (o.base ≤ w ∧ w < o.base + o.lodes)))

/-- One byte of a tier as the tier itself holds it. -/
def State.tierByte (s : State) (a : Nat) : Byte :=
  if tierOf a = some .c then cget s.coherence.tierC a
  else
    let e := s.cage.entry (a / lodeBytes)
    if e.state = .resident then
      match s.objectAt e.wlode with
      | some o => (tget? e.stored (a % lodeBytes)).getD (cget o.bytes ((e.wlode - o.base) * lodeBytes + a % lodeBytes))
      | none => cget s.coherence.tierH a
    else cget s.coherence.tierH a

/-- The marks of a line as its tier holds it: a Tier H unit never written is marked whole (R338). -/
def State.tierMarks (s : State) (line : Nat) : BitVec 8 :=
  let a := 64 * line
  if tierOf a = some .c then
    BitVec.ofNat 8 (packElems 1 ((List.range 8).map (fun i => bit (s.coherence.cPoison.contains (8 * line + i)))))
  else
    let e := s.cage.entry (a / lodeBytes)
    let fixed := decide (a / lodeBytes < 65536 + s.cage.tailings)
    let bad :=
      if e.state = .resident then
        match s.objectAt e.wlode with
        | some o => unitPoisoned s.cage o ((e.wlode - o.base) * 1024 + line % 1024)
        | none => s.coherence.hPoison.contains line
      else s.coherence.hPoison.contains line ||
        (!fixed && e.state != .zeroed && !s.coherence.hWritten.contains line)
    if bad then BitVec.allOnes 8 else 0

/-- A line fetched from its tier. -/
def State.tierLine (s : State) (line : Nat) : Line :=
  { state := .shared, data := (List.range 64).map (fun i => s.tierByte (64 * line + i)), poison := s.tierMarks line }

/-- A line's copy as the tier's own bytes; a mark goes with it (R350). -/
def Coherence.putLine (c : Coherence) (line : Nat) (l : Line) : Coherence :=
  let a := 64 * line
  if tierOf a = some .c then
    let ws := (List.range 8).map (fun i => 8 * line + i)
    { c with tierC := csetBytes c.tierC a l.data
             cPoison := c.cPoison.filter (fun w => !ws.contains w) ++
               (List.range 8).filterMap (fun i => if l.poison.getLsbD i then some (8 * line + i) else none) }
  else
    { c with tierH := csetBytes c.tierH a l.data
             hWritten := if c.hWritten.contains line then c.hWritten else c.hWritten ++ [line]
             hPoison := c.hPoison.filter (· != line) ++ (if l.poison = 0 then [] else [line]) }

/-- A line's copy as bytes stored in a lode that holds a lode of an object; a mark goes with it (R350). -/
def LodeEntry.putLine (e : LodeEntry) (line : Nat) (l : Line) : LodeEntry :=
  { e with stored := (l.data.zipIdx).foldl (fun m x => tset m (64 * line % lodeBytes + x.2) x.1) e.stored
           poison := if l.poison = 0 then e.poison else tmod e.poison (line % 1024) 0 id }

/-- Write a line's copy to its tier: into the lode that holds it, while an object's lode is there (R350; notes/assumptions/8.md). -/
def State.toTier (s : State) (line : Nat) (l : Line) : State :=
  let h := line / 1024
  let e := s.cage.entry h
  if tierOf (64 * line) = some .c ∨ e.state ≠ .resident ∨ (s.objectAt e.wlode).isNone then { s with coherence := s.coherence.putLine line l }
  else { s with cage := { s.cage with map := tset s.cage.map h (e.putLine line l) } }

/-- A line held as the only current copy. -/
def Line.ahead (l : Line) : Bool := l.state == .modified || l.state == .owned

/-- Capacity of the L2 in lines (R346). -/
def l2Lines : Nat := 131072

/-- The L2 makes room for one line: the line it evicts is its own choice; it is written back when ahead (R350). -/
def State.l2Room (s : State) : State :=
  let c := s.coherence
  if c.lines.length < l2Lines then s
  else
    match c.lines[Config.freeNat s.free % c.lines.length]? with
    | some (k, l) =>
      let s := if l.ahead then s.toTier k l else s
      let c := s.coherence
      { s with free := s.free + 1
               coherence := { c with lines := terase c.lines k, writeback := if l.ahead then satAdd 32 c.writeback 1 else c.writeback } }
    | none => s

/-- The bit of steward `n`. -/
def sharerBit (n : Nat) : BitVec 16 := BitVec.ofNat 16 (1 <<< n)

/-- Steward `n` obtains a readable copy of a line: one held ahead by another, or by the L2, is written back and becomes
Shared (R346, R347; notes/assumptions/8.md). -/
def State.acquire (s : State) (n line : Nat) : State :=
  if tierOf (64 * line) = some .c then
    match tget? s.coherence.ring line with
    | some l =>
      if l.sharers.getLsbD n then s
      else
        let s := if l.ahead then s.toTier line l else s
        let c := s.coherence
        { s with coherence := { c with ring := tset c.ring line { l with state := .shared, sharers := l.sharers ||| sharerBit n }
                                       ringSnoop := satAdd 32 c.ringSnoop 1 } }
    | none =>
      let c := s.coherence
      { s with coherence := { c with ring := tset c.ring line { s.tierLine line with sharers := sharerBit n }
                                     ringSnoop := satAdd 32 c.ringSnoop 1 } }
  else
    match tget? s.coherence.lines line with
    | some l =>
      if l.sharers.getLsbD n then s
      else
        let s := if l.ahead then s.toTier line l else s
        let c := s.coherence
        { s with coherence := { c with lines := tset c.lines line { l with state := .shared, sharers := l.sharers ||| sharerBit n } } }
    | none =>
      let s := s.l2Room
      let c := s.coherence
      { s with coherence := { c with lines := tset c.lines line { s.tierLine line with sharers := sharerBit n } } }

/-- A cached copy of a line, in the L1s and L2 or on the ring. -/
def Coherence.copy? (c : Coherence) (line : Nat) : Option Line :=
  if tierOf (64 * line) = some .c then tget? c.ring line else tget? c.lines line

/-- Replace a cached copy. -/
def Coherence.setCopy (c : Coherence) (line : Nat) (l : Line) : Coherence :=
  if tierOf (64 * line) = some .c then { c with ring := tset c.ring line l } else { c with lines := tset c.lines line l }

/-- A store of steward `n` becomes visible on one line: every other copy is invalidated and the line is Modified in
its own L1 (R346, R347). A mark stays: the store is less than the unit (R339, R421). -/
def State.storeLine (s : State) (n line : Nat) (addr : Nat) (bytes : List Byte) : State :=
  let held := (s.coherence.copy? line).elim false (fun l => l.state == .modified && l.sharers.getLsbD n)
  let s := s.acquire n line
  let s :=
    if tierOf (64 * line) = some .c ∧ !held then
      { s with coherence := { s.coherence with ringSnoop := satAdd 32 s.coherence.ringSnoop 1 } }
    else s
  match s.coherence.copy? line with
  | some l =>
    let data := (l.data.zipIdx).map (fun (b, i) =>
      let x := 64 * line + i
      if addr ≤ x ∧ x < addr + bytes.length then bytes.getD (x - addr) b else b)
    { s with coherence := s.coherence.setCopy line { l with state := .modified, sharers := sharerBit n, data := data } }
  | none => s

/-- The lines a range touches. -/
def linesOf (a n : Nat) : List Nat :=
  if n = 0 then [] else (List.range ((a + n - 1) / 64 - a / 64 + 1)).map (fun i => a / 64 + i)

/-- A steward's memory side. -/
def State.steward (s : State) (n : Nat) : Steward := tgetD s.coherence.stewards n {}

/-- Change a steward's memory side. -/
def State.modSteward (s : State) (n : Nat) (f : Steward → Steward) : State :=
  { s with coherence := { s.coherence with stewards := tset s.coherence.stewards n (f (s.steward n)) } }

/-- Make a steward's `k` oldest stores visible, in program order (R354). -/
def State.drainStores (s : State) (n k : Nat) : State :=
  let st := s.steward n
  let s := s.modSteward n (fun st => { st with stores := st.stores.drop k })
  (st.stores.take k).foldl (fun s p =>
    if tierOf p.addr = some .regs then s
    else (linesOf p.addr p.bytes.length).foldl (fun s l => s.storeLine n l p.addr p.bytes) s) s

/-- Between two steward accesses any number of the oldest waiting stores of each steward become visible (R352, R354). -/
def State.settleStores (s : State) : State :=
  (List.range 16).foldl (fun s n =>
    let len := (s.steward n).stores.length
    if len = 0 then s
    else ({ s with free := s.free + 1 } : State).drainStores n (Config.freeNat s.free % (len + 1))) s

/-- What a steward's own waiting stores lay over a byte. -/
def Steward.forward (st : Steward) (a : Nat) (b : Byte) : Byte :=
  st.stores.foldl (fun b p => if p.addr ≤ a ∧ a < p.addr + p.bytes.length then p.bytes.getD (a - p.addr) b else b) b

/-- One byte as steward `n` sees it, with its mark; the line is held. -/
def State.stewardByte (s : State) (n a : Nat) : Byte × Bool :=
  match s.coherence.copy? (a / 64) with
  | some l => ((s.steward n).forward a (l.data.getD (a % 64) 0), l.poison.getLsbD (a % 64 / 8))
  | none => (0, false)

/-- A device address a steward may access: Tier H, Tier C or the internal registers (Table Tiers 1). -/
def stewardFault (a : Nat) : Option Fault :=
  match tierOf a with
  | none => some (.noSuchAddress a)
  | some .s => some (.notReached a)
  | some .f => some (.notReached a)
  | _ => none

/-- STEWARD_LOAD of `n` bytes by a steward (R346, R347, R354). The internal registers return a free value. -/
def execStewardLoad (t core addr n : Nat) (s : State) : Result :=
  match stewardFault addr with
  | some f => .fault f
  | none =>
    let s := (s.at t).settleStores
    if tierOf addr = some .regs then
      let v := Config.freeBits (8 * n) s.free
      .next (({ s with free := s.free + 1 } : State).modSteward core (fun st =>
        { st with loaded := le n v.toNat, loadMarked := false }))
    else
      let s := (linesOf addr n).foldl (fun s l => s.acquire core l) s
      let bs := (List.range n).map (fun i => s.stewardByte core (addr + i))
      .next (s.modSteward core (fun st => { st with loaded := bs.map (·.1), loadMarked := bs.any (·.2) }))

/-- STEWARD_STORE: the store joins the steward's stores that are not visible yet (R354). -/
def execStewardStore (t core addr : Nat) (bytes : List Byte) (s : State) : Result :=
  match stewardFault addr with
  | some f => .fault f
  | none =>
    .next (((s.at t).settleStores).modSteward core (fun st =>
      { st with stores := st.stores ++ [{ addr := addr, bytes := bytes }] }))

/-- FENCE_SL: every earlier store of the steward is visible before any later load (R354). -/
def execFenceSl (t core : Nat) (s : State) : Result :=
  let s := s.at t
  .next (s.drainStores core (s.steward core).stores.length)

/-! ### Agents without a cache -/

/-- A non-allocating snoop read of a range: current copies are written back and become Shared (R348). -/
def State.snoopRead (s : State) (a n : Nat) : State :=
  (linesOf a n).foldl (fun s line =>
    let c := s.coherence
    let isC := decide (tierOf a = some .c)
    let c := if isC then { c with ringSnoop := satAdd 32 c.ringSnoop 1 } else c
    match c.copy? line with
    | some l =>
      let c := if isC then c else { c with snoopHit := satAdd 32 c.snoopHit 1 }
      if l.ahead then
        let s := ({ s with coherence := c } : State).toTier line l
        let c := s.coherence.setCopy line { l with state := .shared }
        { s with coherence := { c with writeback := satAdd 32 c.writeback 1 } }
      else { s with coherence := c }
    | none => { s with coherence := c }) s

/-- An invalidating write of whole lines of a range removes every steward copy (R349). -/
def State.invalidate (s : State) (a n : Nat) : State :=
  (linesOf a n).foldl (fun s line =>
    let c := s.coherence
    if tierOf a = some .c then
      { s with coherence := { c with ring := terase c.ring line, ringSnoop := satAdd 32 c.ringSnoop 1 } }
    else match tget? c.lines line with
      | some _ => { s with coherence := { c with lines := terase c.lines line, snoopHit := satAdd 32 c.snoopHit 1 } }
      | none => s) s

/-- Only the lines of a range that a steward or the L2 holds: the others answer the lookup alone. -/
def State.snoopHeld (s : State) (a n : Nat) : State :=
  ((s.coherence.lines.map (·.1)).filter (fun l => decide (a / 64 ≤ l ∧ 64 * l < a + n))).foldl
    (fun s l => s.snoopRead (64 * l) 64) s

/-- As `snoopHeld`, for an invalidating write of Tier H lines. -/
def State.invalidateHeld (s : State) (a n : Nat) : State :=
  ((s.coherence.lines.map (·.1)).filter (fun l => decide (a / 64 ≤ l ∧ 64 * l < a + n))).foldl
    (fun s l => s.invalidate (64 * l) 64) s

/-- The snoop reads of `n` bytes of an object from `off`, where it is resident (R348). -/
def State.snoopObject (s : State) (o : Object) (off n : Nat) : State :=
  (o.wlodes off n).foldl (fun s w =>
    match s.cage.find w with
    | some h =>
      let lo := max off ((w - o.base) * lodeBytes)
      let hi := min (off + n) ((w - o.base + 1) * lodeBytes)
      s.snoopHeld (h * lodeBytes + lo % lodeBytes) (hi - lo)
    | none => s) s

/-- The lines steward `n` holds Modified. -/
def modifiedBy (m : Tbl Line) (n : Nat) : List (Nat × Line) :=
  m.filter (fun p => p.2.state == .modified && p.2.sharers.getLsbD n)

/-- Take a steward out of every sharer vector; a line it held Modified has been written and is Shared. -/
def dropSharer (m : Tbl Line) (n : Nat) : Tbl Line :=
  tmapv m (fun _ l =>
    if l.sharers.getLsbD n then { l with state := if l.state = .modified then .shared else l.state
                                         sharers := l.sharers &&& ~~~(sharerBit n) }
    else l)

/-- Lines on the ring that no steward holds any more. -/
def ringHeld (m : Tbl Line) : Tbl Line := m.filter (fun p => p.2.sharers != 0)

/-- A steward that drains makes its stores visible and writes its Modified lines back (R350 edges, R512). -/
def State.stewardFlush (s : State) (n : Nat) : State :=
  let s := s.drainStores n (s.steward n).stores.length
  let s := (modifiedBy s.coherence.lines n ++ modifiedBy s.coherence.ring n).foldl (fun s p => s.toTier p.1 p.2) s
  let c := s.coherence
  { s with coherence := { c with lines := dropSharer c.lines n, ring := ringHeld (dropSharer c.ring n) } }

/-- A steward lost without a drain: each line it held Modified is written to its tier with a mark (R350 edges). -/
def State.stewardLost (s : State) (n : Nat) : State :=
  let s := s.modSteward n (fun st => { st with stores := [] })
  let lost := modifiedBy s.coherence.lines n ++ modifiedBy s.coherence.ring n
  let s := lost.foldl (fun s p => s.toTier p.1 { p.2 with poison := BitVec.allOnes 8 }) s
  let c := s.coherence
  let marked := fun (m : Tbl Line) => tmapv m (fun _ l =>
    if l.state = .modified ∧ l.sharers.getLsbD n then { l with poison := BitVec.allOnes 8 } else l)
  { s with coherence := { c with lines := dropSharer (marked c.lines) n, ring := ringHeld (dropSharer (marked c.ring) n)
                                 poisonWb := satAdd 16 c.poisonWb lost.length } }

end Sys2Proof.Machine
end

