-- ==== Sys2Proof/Machine/RuhaicMemory.lean ====
section
/-!
DEFINITION. The M slot: the Tier S bank, windows, streams, tokens, WAIT, DRAIN and TCLR
(spec/10_the_ruhaic_core.md, R270 to R275).
-/
namespace Sys2Proof.Machine

/-- The latency of a POST update of XA, counted beyond the first bundle; the spec gives none (notes/assumptions/7.md). -/
opaque Config.postDelay : Nat

/-- Bytes of a Tier S bank (R270). -/
def bankBytes : Nat := 0x180000

/-- Device address of a local address (R270). -/
def bankAddress (core a : Nat) : Nat := 0x8000000000 + core * bankBytes + a

/-- Round up to a 64-byte boundary. -/
def align64 (n : Nat) : Nat := (n + 63) / 64 * 64

/-- Where the scratch region begins, and ends (R287). -/
def RCore.scratchBase (c : RCore) : Nat := align64 (align64 c.codeLen + c.dataLen)

/-- See `scratchBase`. -/
def RCore.scratchEnd (c : RCore) : Nat := c.scratchBase + c.scratch

/-- A unit of the free region that nothing has written whole since placement (R275). -/
def RCore.unwritten (c : RCore) (u : Nat) : Bool := decide (c.scratchEnd ≤ 64 * u) && !c.written.contains u

/-- One byte of the bank with its mark: an unwritten unit reads zero, marked (R275). -/
def RCore.bankByte (c : RCore) (a : Nat) : Byte × Bool :=
  if c.unwritten (a / 64) then (0, true) else (cget c.bank a, c.bankPoison.contains (a / 8))

/-- Consecutive bytes of the bank. -/
def RCore.bankRead (c : RCore) (a : Nat) : Nat → List (Byte × Bool)
  | 0 => []
  | n + 1 => c.bankByte a :: c.bankRead (a + 1) n

/-- Write marked bytes into the bank: marks travel with their words, a word written in part keeps the mark it had, and whole units
become written (R260, R275, R421). -/
def RCore.bankWrite (c : RCore) (a : Nat) (d : List (Byte × Bool)) : RCore :=
  let words := (List.range ((a + d.length + 7) / 8 - a / 8)).map (fun i => a / 8 + i)
  let isMarked := fun w => ((d.drop (8 * w - a)).take (8 * (w + 1) - max a (8 * w))).any (·.2)
  let part := fun w : Nat => decide (8 * w < a ∨ a + d.length < 8 * w + 8)
  let units := ((List.range ((a + d.length) / 64 - (a + 63) / 64)).map (fun i => (a + 63) / 64 + i)).filter
    (fun u => decide (a ≤ 64 * u ∧ 64 * u + 64 ≤ a + d.length) && !c.written.contains u)
  { c with bank := csetBytes c.bank a (d.map (·.1))
           bankPoison := c.bankPoison.filter (fun w => !words.contains w) ++ words.filter (fun w => isMarked w || (part w && c.bankPoison.contains w))
           written := c.written ++ units }

/-- The numbers of the cores that run a packet's job, ascending. -/
def State.jobCores (s : State) (key : Nat) : List Nat :=
  (s.cores.filter (fun p => p.2.packet == some key)).map (·.1)

/-- Record the first poisoned unit a job loads, on every core of the job (Table Ruhaic 8). -/
def State.firstPoison (s : State) (key addr : Nat) : State :=
  { s with cores := tmapv s.cores (fun _ c =>
      if c.packet = some key ∧ c.firstPoison = none then { c with firstPoison := some addr } else c) }

/-- What a window names (Table Ruhaic 5). -/
inductive Region
  | own (core : Nat)
  | bytes (d : List Byte)
  | object (o : Object) (base len : Nat)
  | staging (len : Nat)
  | peers (cores : List Nat)
  deriving DecidableEq, Repr

/-- The windows of a job: those of R166 for RUN PROGRAM, and the scale block for EMBED (R271, R299). -/
def State.region (s : State) (core win : Nat) : Option Region := do
  let c := s.core core
  let key ← c.packet
  let p ← tget? s.packets.live key
  let program := p.hdr.opcode = 0x0601
  match win with
  | 0 => some (.own core)
  | 1 => if program then some (.bytes (p.param.drop 32)) else none
  | 2 =>
    if program then do
      let o ← p.snap.find? (fun o => o.handle == p.hdr.secondary)
      some (.object o (leAt p.param 8 8) (leAt p.param 16 8))
    else none
  | 3 =>
    if program then do
      let o ← p.snap.find? (fun o => o.handle == p.hdr.primary)
      some (.object o 0 o.size)
    else none
  | 4 => if program then some (.staging p.hdr.answerLen) else none
  | 5 => if program then some (.peers (s.jobCores key)) else none
  | 6 => if p.hdr.opcode = 0x0401 ∨ p.hdr.opcode = 0x0402 then some (.bytes p.scales) else none
  | _ => none

/-- A local range that may be written: inside the bank, in the scratch or free region (Table Ruhaic 5). -/
def RCore.writable (c : RCore) (a n : Nat) : Bool := decide (c.scratchBase ≤ a ∧ a + n ≤ bankBytes)

/-- A read of `n` bytes at window offset `off` is inside the window and permitted (R271). -/
def State.mayRead (_s : State) (r : Region) (off n : Nat) : Bool :=
  match r with
  | .own _ => decide (off + n ≤ bankBytes)
  | .bytes d => decide (off + n ≤ d.length)
  | .object _ _ len => decide (off + n ≤ len)
  | .staging _ => false
  | .peers cs => decide (off / bankBytes < cs.length ∧ off % bankBytes + n ≤ bankBytes)

/-- A write is inside the window and permitted (R271). -/
def State.mayWrite (s : State) (r : Region) (off n : Nat) : Bool :=
  match r with
  | .own k => (s.core k).writable off n
  | .staging len => decide (off + n ≤ len)
  | .peers cs =>
    match cs[off / bankBytes]? with
    | some k => (s.core k).writable (off % bankBytes) n
    | none => false
  | _ => false

/-- The window lodes a read touches. -/
def regionLodes (r : Region) (off n : Nat) : List Nat :=
  match r with
  | .object o base _ => o.wlodes (base + off) n
  | _ => []

/-- Read marked bytes through a window. -/
def State.readRegion (s : State) (r : Region) (off n : Nat) : List (Byte × Bool) :=
  match r with
  | .own k => (s.core k).bankRead off n
  | .bytes d => (sliceBytes d off n).map (fun b => (b, false))
  | .object o base _ => objBytes s.cage o (base + off) n
  | .staging _ => List.replicate n (0, false)
  | .peers cs => ((s.core (cs.getD (off / bankBytes) 0))).bankRead (off % bankBytes) n

/-- The device address of the first marked byte of a read, if any. -/
def State.markedAddress (s : State) (r : Region) (off : Nat) (d : List (Byte × Bool)) : Option Nat :=
  match d.findIdx? (·.2) with
  | none => none
  | some i =>
    match r with
    | .own k => some (bankAddress k ((off + i) / 64 * 64))
    | .object o base _ => some (unitAddress s.cage o ((base + off + i) / 64))
    | .peers cs => some (bankAddress (cs.getD (off / bankBytes) 0) ((off % bankBytes + i) / 64 * 64))
    | _ => none

/-- Write marked bytes through a window (R260: marks travel with the bytes). -/
def State.writeRegion (s : State) (key : Nat) (r : Region) (off : Nat) (d : List (Byte × Bool)) : State :=
  match r with
  | .own k => s.setCore k ((s.core k).bankWrite off d)
  | .peers cs =>
    let k := cs.getD (off / bankBytes) 0
    s.setCore k ((s.core k).bankWrite (off % bankBytes) d)
  | .staging _ =>
    let us := (List.range ((off + d.length + 63) / 64 - off / 64)).map (fun i => off / 64 + i)
    let isMarked := fun u => ((d.drop (64 * u - off)).take (64 * (u + 1) - max off (64 * u))).any (·.2)
    { s with packets := { s.packets with live := tupd s.packets.live key (fun p =>
        { p with staging := csetBytes p.staging off (d.map (·.1))
                 stagingPoison := p.stagingPoison.filter (fun u => !us.contains u) ++ us.filter isMarked }) } }
  | _ => s

/-! ### Loads and stores -/

/-- The pieces of a stream: (source offset, target offset, bytes), by kind; a gather has one piece a row. -/
def Stream.pieces (st : Stream) : List (Nat × Nat × Nat) :=
  (st.offs.zipIdx).map (fun (o, i) => (o, st.localAddr + i * st.rowLen, st.rowLen))

/-- Land one 64-byte unit of the bank from an inbound stream that covers it, ahead of its completion. -/
def State.landUnit (s : State) (core key : Nat) (st : Stream) (u : Nat) : State :=
  match s.region core st.win with
  | none => s
  | some r =>
    if !s.cage.allResident (st.pieces.flatMap (fun (o, _, n) => regionLodes r o n)) then s
    else st.pieces.foldl (fun s (o, t, n) =>
      let lo := max t (64 * u)
      let hi := min (t + n) (64 * u + 64)
      if lo < hi then s.writeRegion key (.own core) lo (s.readRegion r (o + (lo - t)) (hi - lo)) else s) s

/-- Before a load, each unit of it that an inbound stream covers is old or new as the module chooses (R274). -/
def State.settle (s : State) (core a n : Nat) : State :=
  let c := s.core core
  match c.packet with
  | none => s
  | some key =>
    (c.streams.filter (fun st => st.kind != .put)).foldl (fun s st =>
      ((List.range (n / 64 + 1)).map (fun i => a / 64 + i)).foldl (fun s u =>
        if st.pieces.any (fun (_, t, m) => decide (t < 64 * u + 64 ∧ 64 * u < t + m)) then
          let (k, s) := s.draw
          if Config.freeChoice k then s.landUnit core key st u else s
        else s) s) s

/-- The address of an M slot access, before alignment: XA, plus OFF unless POST (Table Ruhaic 3). -/
def mAddress (c : RCore) (xa : Nat) (off : BitVec 32) (post : Bool) : Nat :=
  ((c.readX xa).val + (if post then 0 else sext32 off)).toNat

/-- The POST update of the base register. -/
def RCore.postUpdate (c : RCore) (xa : Nat) (off : BitVec 32) (post : Bool) : RCore :=
  if post then
    c.queue (1 + Config.postDelay) (.x xa) (.x { val := (c.readX xa).val + sext32 off, poison := (c.readX xa).poison })
  else c

/-- The base register that POST writes is a destination of the M slot beside `own`: another slot that names it makes the bundle
illegal (R264; notes/assumptions/7.md). -/
def RCore.postDest (c : RCore) (core : Nat) (own : Option Dest) (xa : Nat) (post : Bool) (k : RCore → RCore) : RCore :=
  if !post ∨ own = some (.x xa) then k c
  else if c.dests.contains (.x xa) then c.illegal core
  else k { c with dests := c.dests ++ [.x xa] }

/-- A load of `n` bytes at an address aligned down to `al`, given to `k` with the marks (R266, R270). -/
def State.loadOp (s : State) (core : Nat) (g : Guard) (d : Dest) (xa : Nat) (off : BitVec 32) (post : Bool)
    (al n : Nat) (k : RCore → List (Byte × Bool) → RCore) : State :=
  let c0 := s.core core
  let a := mAddress c0 xa off post / al * al
  let s := if c0.issuing ∧ c0.acts g ∧ a + n ≤ bankBytes then s.settle core a n else s
  let s := match c0.packet with
    | some key =>
      if c0.issuing ∧ c0.acts g ∧ a + n ≤ bankBytes ∧ ((s.core core).bankRead a n).any (·.2) then
        s.firstPoison key (bankAddress core (a / 64 * 64))
      else s
    | none => s
  s.issueOn core .m (some d) (fun c => c.postDest core (some d) xa post (fun c =>
    if !c.acts g then c
    else if (c.readX xa).poison then c.consumed
    else if bankBytes < a + n then c.outOfWindow core
    else (k c (c.bankRead a n)).postUpdate xa off post))

/-- A store of marked bytes at an aligned address: the code and data sections are read-only (Table Ruhaic 8). -/
def State.storeOp (s : State) (core : Nat) (g : Guard) (xa : Nat) (off : BitVec 32) (post : Bool)
    (al : Nat) (d : RCore → List (Byte × Bool)) : State :=
  s.issueOn core .m none (fun c => c.postDest core none xa post (fun c =>
    if !c.acts g then c
    else
      let a := mAddress c xa off post / al * al
      let bytes := d c
      if c.writable a bytes.length then (c.bankWrite a bytes).postUpdate xa off post
      else c.outOfWindow core))

/-- A register value from marked bytes, one mark for each 4-byte lane. -/
def vOfBytes (d : List (Byte × Bool)) : VVal :=
  { val := BitVec.ofNat 2048 (fromLe (d.map (·.1)))
    poison := BitVec.ofNat 64 (packElems 1 ((List.range 64).map (fun i => bit (((d.drop (4 * i)).take 4).any (·.2))))) }

/-- LDX: 8 bytes, address bits [2:0] ignored, latency 4 (R266). -/
def execLdx (core : Nat) (g : Guard) (rd xa : BitVec 5) (off : BitVec 32) (post : Bool) (s : State) : Result :=
  .next (s.loadOp core g (.x rd.toNat) xa.toNat off post 8 8 (fun c d =>
    c.queue 4 (.x rd.toNat) (.x { val := BitVec.ofNat 64 (fromLe (d.map (·.1))), poison := d.any (·.2) })))

/-- STX: 8 bytes, address bits [2:0] ignored; the mark goes with the data (R260, R266). -/
def execStx (core : Nat) (g : Guard) (rd xa : BitVec 5) (off : BitVec 32) (post : Bool) (s : State) : Result :=
  .next (s.storeOp core g xa.toNat off post 8 (fun c =>
    (le 8 (c.readX rd.toNat).val.toNat).map (fun b => (b, (c.readX rd.toNat).poison))))

/-- LDV: 256 bytes, address bits [7:0] ignored, latency 4 (R266). -/
def execLdv (core : Nat) (g : Guard) (rd xa : BitVec 5) (off : BitVec 32) (post : Bool) (s : State) : Result :=
  .next (s.loadOp core g (.v rd.toNat) xa.toNat off post 256 256 (fun c d =>
    c.queue 4 (.v rd.toNat) (.v (vOfBytes d) (BitVec.allOnes 64))))

/-- STV: 256 bytes, address bits [7:0] ignored (R266). -/
def execStv (core : Nat) (g : Guard) (rd xa : BitVec 5) (off : BitVec 32) (post : Bool) (s : State) : Result :=
  .next (s.storeOp core g xa.toNat off post 256 (fun c =>
    let v := c.readV rd.toNat
    ((le 256 v.val.toNat).zipIdx).map (fun (b, i) => (b, v.poison.getLsbD (i / 4)))))

/-- LDVB: the 4 bytes at the address, broadcast to all 64 lanes, latency 4 (R266). -/
def execLdvb (core : Nat) (g : Guard) (rd xa : BitVec 5) (off : BitVec 32) (post : Bool) (s : State) : Result :=
  .next (s.loadOp core g (.v rd.toNat) xa.toNat off post 1 4 (fun c d =>
    c.queue 4 (.v rd.toNat) (.v (vOfBytes ((List.range 64).flatMap (fun _ => d))) (BitVec.allOnes 64))))

/-! ### Streams -/

/-- Issue a stream: out of its window it faults before any byte moves, and a 33rd outstanding one is illegal
(R271, R272). Streams never consume poison, their addresses included (R271 edges). -/
def State.streamOp (s : State) (core : Nat) (g : Guard) (kind : StreamKind) (localAddr : Nat) (win : Nat)
    (offs : List Nat) (rowLen token : Nat) (sig : Bool) : State :=
  let c0 := s.core core
  let n := offs.length * rowLen
  let ok := match s.region core win with
    | none => false
    | some r => match kind with
      | .put => s.mayWrite r (offs.headD 0) n && decide (localAddr + n ≤ bankBytes)
      | _ => offs.all (fun o => s.mayRead r o rowLen) && c0.writable localAddr n
  let lodes := match s.region core win, kind with
    | some r, .get => offs.flatMap (fun o => regionLodes r o rowLen)
    | some r, .gather => offs.flatMap (fun o => regionLodes r o rowLen)
    | _, _ => []
  let starts := c0.issuing && c0.acts g && ok && decide (c0.streams.length < 32) && !c0.slots.contains .m
  let s := if starts then { s with cage := lodes.foldl (fun cg w => cg.want w) s.cage } else s
  s.issueOn core .m none (fun c =>
    if !c.acts g then c
    else if c.streams.length ≥ 32 then c.illegal core
    else if !ok then c.outOfWindow core
    else { c with streams := c.streams ++ [{ id := c.nextStream, kind := kind, localAddr := localAddr, win := win,
                                             offs := offs, rowLen := rowLen, token := token, sig := sig,
                                             issued := c.bundles }]
                  nextStream := c.nextStream + 1 })

/-- SGET: XC bytes from window offset XB to local address XA (R266). -/
def execSget (core : Nat) (g : Guard) (xa xb xc : BitVec 5) (token win : BitVec 4) (s : State) : Result :=
  let c := s.core core
  .next (s.streamOp core g .get (c.readX xa.toNat).val.toNat win.toNat [(c.readX xb.toNat).val.toNat]
    (c.readX xc.toNat).val.toNat token.toNat false)

/-- SPUT: XC bytes from local address XA to window offset XB (R266). -/
def execSput (core : Nat) (g : Guard) (xa xb xc : BitVec 5) (token win : BitVec 4) (sig : Bool) (s : State) : Result :=
  let c := s.core core
  .next (s.streamOp core g .put (c.readX xa.toNat).val.toNat win.toNat [(c.readX xb.toNat).val.toNat]
    (c.readX xc.toNat).val.toNat token.toNat sig)

/-- SGATHER: XC rows of OFF bytes, at window offsets listed as 8-byte values at local address XB (R266). -/
def execSgather (core : Nat) (g : Guard) (xa xb xc : BitVec 5) (off : BitVec 32) (token win : BitVec 4) (s : State) :
    Result :=
  let c := s.core core
  let list := (c.readX xb.toNat).val.toNat
  let rows := min (c.readX xc.toNat).val.toNat (bankBytes / 8 + 1)
  let offs := (List.range rows).map (fun i => fromLe ((c.bankRead (list + 8 * i) 8).map (·.1)))
  if c.issuing ∧ c.acts g ∧ bankBytes < list + 8 * rows then
    .next (s.issueOn core .m none (fun c => if c.streams.length ≥ 32 then c.illegal core else c.outOfWindow core))
  else
    .next (s.streamOp core g .gather (c.readX xa.toNat).val.toNat win.toNat offs off.toNat token.toNat false)

/-- Raise a token by one; it saturates at 0xFFFF (R272). -/
def RCore.raiseToken (c : RCore) (t : Nat) : RCore := { c with tokens := tset c.tokens t (satAdd 16 (tgetD c.tokens t 0) 1) }

/-- A stalled core whose wait is over issues its bundle: the count is taken from the token, and a drained core
has no stream left (R273). -/
def RCore.release (c : RCore) : RCore :=
  match c.stall with
  | some (.token t n) =>
    if n ≤ tgetD c.tokens t 0 then { c with tokens := tset c.tokens t (tgetD c.tokens t 0 - n), stall := none } else c
  | some .drain => if c.streams.isEmpty then { c with stall := none } else c
  | _ => c

/-- WAIT: stall until TOKEN holds at least OFF[15:0], then take that count from it (R273). -/
def execWait (core : Nat) (g : Guard) (token : BitVec 4) (off : BitVec 32) (s : State) : Result :=
  .next (s.issueOn core .m none (fun c =>
    if c.acts g then ({ c with stall := some (.token token.toNat (off.toNat % 2 ^ 16)) }).release else c))

/-- DRAIN: stall until every store and stream issued earlier is complete and visible (R273). -/
def execDrain (core : Nat) (g : Guard) (s : State) : Result :=
  .next (s.issueOn core .m none (fun c => if c.acts g then ({ c with stall := some .drain }).release else c))

/-- TCLR: set TOKEN to zero (R273). -/
def execTclr (core : Nat) (g : Guard) (token : BitVec 4) (s : State) : Result :=
  .next (s.issueOn core .m none (fun c => if c.acts g then { c with tokens := tset c.tokens token.toNat 0 } else c))

end Sys2Proof.Machine
end

