-- ==== Sys2Proof/Machine/RuhaicBundle.lean ====
section
/-!
DEFINITION. The end of a bundle: faults, results that land, Assay samples, loops and branches, and the end of a job
(spec/10_the_ruhaic_core.md, R257, R263, R264, R267 to R269, R283 to R285; spec/11_narrow_numbers.md, R304 to R307).
-/
namespace Sys2Proof.Machine

/-- The Assay set a core feeds (R565). -/
def assaySetOf (core : Nat) : Nat := if core < 64 then core else 64 + (core - 64) / 16

/-- A tap of a tenant. -/
def Assay.tap (a : Assay) (tenant tap : Nat) : Tap := tgetD a.taps (tenant * 256 + tap) {}

/-- The histogram bin and FP32 magnitude of a sample (RuhaicVector.tapSample). -/
def sampleBin (v : Nat) : Nat := v / 2 ^ 32

/-- Add samples and saturations to a pair's statistics of the frame (R306). -/
def TapStat.feed (st : TapStat) (samples : List Nat) (sats : Nat) : TapStat :=
  let mags := (samples.map (· % 2 ^ 32)).filter (fun c => decide (c ≤ 0x7F800000))
  { st with maxabs := max st.maxabs (maxNat mags), any := st.any || !samples.isEmpty, sat := st.sat + sats
            hist := samples.foldl (fun h v => tmod h (sampleBin v) 0 (· + 1)) st.hist }

/-- Feed a set, which tracks at most 64 pairs a frame (R312). -/
def AssaySet.feed (a : AssaySet) (tenant tap : Nat) (samples : List Nat) (sats : Nat) : AssaySet :=
  if a.stats.any (fun st => st.tenant = tenant ∧ st.tap = tap) then
    { a with stats := a.stats.map (fun st => if st.tenant = tenant ∧ st.tap = tap then st.feed samples sats else st) }
  else if a.stats.length < 64 then
    { a with stats := a.stats ++ [({ tenant := tenant, tap := tap } : TapStat).feed samples sats] }
  else { a with overflow := satAdd 16 a.overflow 1, overflowNow := a.overflowNow + 1 }

/-- Feed a declared tap from a core; an undeclared tap records nothing (R304). -/
def State.feedTap (s : State) (core tenant tap : Nat) (samples : List Nat) (sats : Nat) : State :=
  if (s.assay.tap tenant tap).cfg.mode = 2 then s
  else
    let k := assaySetOf core
    { s with assay := { s.assay with sets := tmod s.assay.sets k {} (fun a => a.feed tenant tap samples sats) } }

/-- Saturations of a core count toward its current tap, or its set's untapped counter; the run is SATURATED (R307). -/
def State.countSats (s : State) (core key tenant : Nat) (tap : Option Nat) (n : Nat) : State :=
  if n = 0 then s
  else
    let s := match tap with
      | some t => s.feedTap core tenant t [] n
      | none =>
        { s with assay := { s.assay with sets := tmod s.assay.sets (assaySetOf core) {} (fun a =>
            { a with untapped := satAdd 32 a.untapped n }) } }
    s.modPacket key (fun p => { p with satd := true })

/-- Land every result that is due, in issue order (R264). -/
def RCore.landDue (c : RCore) : RCore :=
  let due := c.pending.filter (fun w => decide (w.due ≤ c.bundles))
  let c := { c with pending := c.pending.filter (fun w => decide (c.bundles < w.due)) }
  due.foldl (fun c w => c.land w.dest w.val) c

/-- Write the tables of one TLOAD or TBUILD. -/
def RCore.landTables (c : RCore) (t : PendingTables) : RCore :=
  let on := (List.range 128).filter (fun p => t.lanes.getLsbD (p / 4))
  { c with
    tables := on.foldl (fun m p => (List.range 16).foldl (fun m j =>
      tset m (16 * (t.base + p) + j) (t.entries.getD (16 * p + j) 0)) m) c.tables
    tablePoison := c.tablePoison.filter (fun x => !on.contains (x - t.base) || decide (x < t.base)) ++
      (on.filter (fun p => t.poison.getD p false)).map (· + t.base) }

/-- Land the table writes that are due (R263). -/
def RCore.landDueTables (c : RCore) : RCore :=
  let due := c.pendingTables.filter (fun w => decide (w.due ≤ c.bundles))
  due.foldl RCore.landTables { c with pendingTables := c.pendingTables.filter (fun w => decide (c.bundles < w.due)) }

/-- The loop-back at the last bundle of active loops, innermost first (R268): the core, and where the body repeats. -/
def loopBack (c : RCore) (pc : Nat) : List Loop → RCore × Option Nat
  | [] => (c, none)
  | l :: rest =>
    if l.last ≠ pc then (c, none)
    else
      let n := tgetD c.lc l.lc 0 - 1
      let c := { c with lc := tset c.lc l.lc n }
      if n ≠ 0 then (c, some l.first)
      else loopBack { c with loops := c.loops.filter (fun x => x.lc ≠ l.lc) } pc rest

/-- The next bundle: a taken branch wins over a loop-back, and a skipped loop body is passed over (R267, R268). -/
def RCore.advance (c : RCore) : RCore :=
  let (c, back) := loopBack c c.pc c.loops.reverse
  let c := match c.newLoop with
    | some l => { c with loops := c.loops ++ [l], newLoop := none }
    | none => c
  let next := match c.skipTo, back with
    | some t, _ => t
    | none, some t => t
    | none, none => c.pc + 1
  let c := { c with skipTo := none }
  match c.branch with
  | some (1, t) => { c with pc := t, branch := none }
  | some (k + 1, t) => { c with pc := next, branch := some (k, t) }
  | _ => { c with pc := next }

/-- The event of a precedence rank (R284). -/
def rankEvent : Nat → FaultEvent
  | 0 => .illegalBundle | 1 => .poison | 2 => .outOfWindow | 3 => .watchdog | _ => .unitLoss

/-- The locator of consumed poison: the Tier F sector a Tier H unit was staged from, where one is known (R410). -/
def State.poisonLocator (s : State) (loc : Nat) : Nat :=
  let a := field loc 0 52
  match tget? (s.cage.entry (a / 65536)).poison (a % 65536 / 64) with
  | some f => if a < 0x8000000000 ∧ f ≠ 0 then f else loc
  | none => loc

/-- The job ends when every core has exited and every stream is complete: its payload is staged (R269). -/
def State.jobEnd (s : State) (key : Nat) : State :=
  let cs := s.cores.filter (fun p => p.2.packet == some key)
  if cs.isEmpty ∨ cs.any (fun p => !p.2.exited || !p.2.slots.isEmpty || !p.2.streams.isEmpty) then s
  else
    let len := (cs.find? (fun p => p.2.index == 0)).elim 0 (·.2.payloadLen)
    let s := s.modPacket key (fun p => { p with phase := .finished, payload := cgetBytes p.staging 0 len, cores := [] })
    s.stopCores key

/-- The bundle of a core ends: its fault, or its results (RESULT_WRITEBACK). -/
def State.endBundle (s : State) (n : Nat) : State :=
  let c := s.core n
  match c.packet with
  | none => s
  | some key =>
    if c.stall.isSome ∨ (c.exited ∧ c.slots.isEmpty) then s
    else
      let c := if c.watchdog < c.bundles + 1 then c.noteFault 3 (coreLocator 3 n c.pc) else c
      match c.fault with
      | some f =>
        let loc := if f.rank = 1 then s.poisonLocator f.locator else f.locator
        s.faultJob key (rankEvent f.rank) loc
      | none =>
        let tenant := (s.packet? key).elim 0 (·.tenant)
        let s := c.tapped.foldl (fun s (t, vs) => s.feedTap n tenant t vs 0) s
        let tap := match c.tapped.getLast? with | some (t, _) => some t | none => c.tap
        let s := s.countSats n key tenant tap c.bundleSat
        let c := { c with bundles := c.bundles + 1, tap := tap, tapped := [], bundleSat := 0, slots := [], dests := [] }
        let c := if c.exited then { c with pending := [], pendingTables := [] } else (c.landDue.landDueTables).advance
        (s.setCore n c).jobEnd key

/-- RESULT_WRITEBACK: the bundle that a core is issuing ends (R263, R264). -/
def execResultWriteback (core : Nat) (s : State) : Result := .next (s.endBundle core)

/-- A stream completes: every byte lands, marks with it, and its token is raised, on a signalled peer too (R272).
A stream that still waits for a lode in transit does not (R334). -/
def execStreamComplete (core id : Nat) (s : State) : Result :=
  let c := s.core core
  match c.packet, c.streams.find? (fun st => st.id == id) with
  | some key, some st =>
    match s.region core st.win with
    | none => .next s
    | some r =>
      if !s.cage.allResident (st.pieces.flatMap (fun (o, _, n) => regionLodes r o n)) then .next s
      else
        let s := st.pieces.foldl (fun s (o, t, n) =>
          match st.kind with
          | .put => s.writeRegion key r o (s.readRegion (.own core) t n)
          | _ =>
            let s := match r with
              | .object ob base _ => s.snoopObject ob (base + o) n
              | _ => s
            let s := { s with cage := (regionLodes r o n).foldl (fun c w => (c.find w).elim c c.touch) s.cage }
            let d := s.readRegion r o n
            let d := match st.badRead with
              | some a => (d.zipIdx).map (fun (b, i) =>
                  (b.1, b.2 || (match r with
                    | .object ob base _ => decide (unitAddress s.cage ob ((base + o + i) / 64) = a)
                    | _ => false)))
              | none => d
            let s := match s.markedAddress r o d with
              | some a => s.firstPoison key a
              | none => s
            s.writeRegion key (.own core) t d) s
        let s := match st.kind, r with
          | .put, .peers cs =>
            if st.sig then
              let k := cs.getD (st.offs.headD 0 / bankBytes) 0
              s.setCore k (((s.core k).raiseToken st.token).release)
            else s
          | _, _ => s
        let c := s.core core
        let c := { c with streams := c.streams.filter (fun x => x.id != id) }
        .next ((s.setCore core ((c.raiseToken st.token).release)).jobEnd key)
  | _, _ => .next s


end Sys2Proof.Machine
end

