-- ==== Sys2Proof/Machine/Cage.lean ====
section
/-!
DEFINITION. The Stope allocator and the Cage: charges and quotas, clocks, page-ins, holds, scrubbing and errors of
Tier H (spec/12_tiers_stope_and_cage.md, R317 to R343).
-/
namespace Sys2Proof.Machine

/-! ### Charges and room -/

/-- Lodes of an object that its placement reserves against the quota: its fixed Tier H components, and every lode of
a PINNED_H or HOT object (R175, R210, R318). -/
def Object.fullReservation (o : Object) : Nat :=
  o.fixedLodes + (if o.cls = .pinnedH ∨ o.cls = .hot then o.lodes else 0)

/-- What an object's placement reserves now: nothing while it is uncharged (R537). -/
def Object.reservation (o : Object) : Nat := if o.uncharged then 0 else o.fullReservation

/-- The objects that hold storage, those that outstanding packets are creating among them (R163, R314, R315). -/
def State.allObjects (s : State) : List Object := s.objects.live.map (·.2) ++ s.packets.live.filterMap (·.2.create)

/-- The objects of a tenant that hold storage. -/
def State.objectsOf (s : State) (n : Nat) : List Object := s.allObjects.filter (fun o => handleTenant o.handle == n)

/-- Held through the current frame or a later one (Table Tiers 5 HOLD). -/
def LodeEntry.heldAt (e : LodeEntry) (frame : Nat) : Bool := e.hold.elim false (fun f => decide (frame ≤ f))

/-- A lode that its class's reservation already covers. -/
def LodeEntry.reservedClass (e : LodeEntry) : Bool := e.cls == .pinnedH || e.cls == .hot

/-- A lode charged to its tenant beside the reservations: a quota's own PAGED lode, or a pool lode pinned or held
(R323, R329). -/
def LodeEntry.charged (e : LodeEntry) (frame : Nat) : Bool :=
  (e.state == .resident || e.state == .transit) && !e.reservedClass &&
  (if e.pool then decide (0 < e.pin) || e.heldAt frame else !e.overdraft)

/-- Lodes of an object that are charged to its tenant now, beside a reservation. -/
def State.chargedOf (s : State) (o : Object) : Nat :=
  (s.cage.map.filter (fun p => p.2.charged s.meridian.frame && decide (o.base ≤ p.2.wlode ∧ p.2.wlode < o.base + o.lodes))).length

/-- What outstanding set placements reserve for a tenant: every lode of their object not already charged (R318). -/
def State.growth (s : State) (n : Nat) : Nat :=
  sumNat ((s.packets.live.filterMap (fun p => p.2.grow)).map (fun k => match tget? s.objects.live k with
    | some o => if handleTenant o.handle = n then o.lodes - s.chargedOf o else 0
    | none => 0))

/-- The charge of a tenant (R323, STP_USED). -/
def State.charge (s : State) (n : Nat) : Nat :=
  sumNat ((s.objectsOf n).map Object.reservation) + s.growth n +
  (s.cage.map.filter (fun p => p.2.tenant == n && p.2.charged s.meridian.frame)).length

/-- The non-evictable charge of a tenant (R322). -/
def State.fixedCharge (s : State) (n : Nat) : Nat :=
  sumNat ((s.objectsOf n).map Object.reservation) + s.growth n +
  (s.cage.map.filter (fun p => p.2.tenant == n && p.2.charged s.meridian.frame &&
    (decide (0 < p.2.pin) || p.2.heldAt s.meridian.frame || p.2.state == .transit))).length

/-- Lodes of Tier H that are not the check region (R321). -/
def Cage.usable (c : Cage) : Nat := if c.h2 then tierHLodes - 196608 else tierHLodes

/-- STP_QUOTABLE (R321). -/
def Cage.quotable (c : Cage) : Nat := c.usable - firmwareLodes - c.tailings - c.poolSize

/-- A lode of the check region, which follows the pool in the order of R321 (notes/assumptions/9.md). -/
def Cage.isCheck (c : Cage) (h : Nat) : Bool :=
  c.h2 && decide (firmwareLodes + c.tailings + c.poolSize ≤ h ∧ h < firmwareLodes + c.tailings + c.poolSize + 196608)

/-- The quota of a tenant. -/
def State.quota (s : State) (n : Nat) : Nat := tgetD s.cage.quotas n 0

/-- Lodes of the pool now in use by anything: its entries, reservations, retained lodes and annexes. -/
def Cage.poolTaken (c : Cage) : Nat :=
  (c.map.filter (fun p => (p.2.pool || p.2.state == .job) && p.2.state != .retired)).length +
  sumNat (c.reserved.map (·.2)) + c.retained.length + c.annexLodes

/-- Size of the pool, less its retired lodes (R342). -/
def Cage.poolLodes (c : Cage) : Nat := c.poolSize - c.retiredCnt

/-- STP_POOL_FREE: pool lodes with no reservation, retained lode, annex piece, pin or hold (Table Tiers 9). -/
def State.poolFree (s : State) : Nat :=
  let c := s.cage
  c.poolLodes - ((c.map.filter (fun p => (p.2.pool && (decide (0 < p.2.pin) || p.2.heldAt s.meridian.frame ||
    decide (0 < p.2.jobs))) || p.2.state == .job)).length + sumNat (c.reserved.map (·.2)) + c.retained.length + c.annexLodes)

/-! ### Freeing and the clocks -/

/-- The number of the pool's clock. -/
def poolClock : Nat := 64

/-- The clock that a resident lode belongs to, if any: PAGED lodes of a quota to the tenant's, pool lodes to the
pool's (R326 to R328). -/
def LodeEntry.clock (e : LodeEntry) : Option Nat :=
  if e.pool then some poolClock else if e.cls = .paged then some e.tenant else none

/-- Enter a clock at its end (R326). -/
def Cage.clockIn (c : Cage) (h k : Nat) : Cage :=
  { c with clocks := tmod c.clocks k {} (fun ck => { ck with lodes := ck.lodes ++ [h] }) }

/-- Leave every clock; a hand beyond the lode keeps its lode. -/
def Cage.clockOut (c : Cage) (h : Nat) : Cage :=
  { c with clocks := tmapv c.clocks (fun _ ck =>
      match ck.lodes.findIdx? (· == h) with
      | some i => { ck with lodes := ck.lodes.eraseIdx i, hand := if i < ck.hand then ck.hand - 1 else ck.hand }
      | none => ck) }

/-- Free a lode: out of its chain, the translation cache and its clock, to the dirty list (R324, R331, R332). -/
def Cage.free (c : Cage) (h : Nat) : Cage :=
  let c : Cage := match tget? c.map h with
    | some e => if e.state = .resident ∨ e.state = .transit then (c.cacheOut e.wlode).chainOut h e.wlode else c
    | none => c
  { c.clockOut h with map := terase c.map h }

/-- The units of a lode that were written and marked are forgotten: it is freed or filled. -/
def Coherence.forgetLode (c : Coherence) (h : Nat) : Coherence :=
  { c with hWritten := c.hWritten.filter (fun u => u / 1024 != h), hPoison := c.hPoison.filter (fun u => u / 1024 != h) }

/-- Free a lode; what stewards wrote in it is gone with it. -/
def State.freeLode (s : State) (h : Nat) : State := { s with cage := s.cage.free h, coherence := s.coherence.forgetLode h }

/-- Eligible for eviction (R326). -/
def LodeEntry.evictable (e : LodeEntry) (frame : Nat) : Bool :=
  e.state == .resident && decide (e.pin = 0) && decide (e.jobs = 0) && !e.heldAt frame && !e.dirty

/-- Run a clock's hand over at most `fuel` lodes to a victim, which leaves the clock (R326). -/
def Cage.sweep (c : Cage) (k frame : Nat) : Nat → Cage × Option Nat
  | 0 => (c, none)
  | fuel + 1 =>
    let ck := tgetD c.clocks k {}
    let i := ck.hand % ck.lodes.length
    match ck.lodes[i]? with
    | none => (c, none)
    | some h =>
      let e := c.entry h
      if !e.evictable frame then
        ({ c with clocks := tset c.clocks k { ck with hand := i + 1 } } : Cage).sweep k frame fuel
      else if e.ref then
        ({ c with clocks := tset c.clocks k { ck with hand := i + 1 }
                  map := tupd c.map h (fun e => { e with ref := false }) } : Cage).sweep k frame fuel
      else
        ({ c with clocks := tset c.clocks k { lodes := ck.lodes.eraseIdx i, hand := i } }, some h)

/-- Evict one lode of a clock: the lode freed, if the clock has a victim. -/
def State.evictOne (s : State) (k : Nat) : State × Bool :=
  match s.cage.sweep k s.meridian.frame (2 * (tgetD s.cage.clocks k {}).lodes.length + 1) with
  | (c, some h) => (({ s with cage := c } : State).freeLode h, true)
  | (c, none) => ({ s with cage := c }, false)

/-- Evict from a tenant's clock until its charge is at most `goal`, at most `fuel` lodes. -/
def State.evictTo (s : State) (n goal : Nat) : Nat → State
  | 0 => s
  | fuel + 1 =>
    if s.charge n ≤ goal then s
    else match s.evictOne n with
      | (s, true) => s.evictTo n goal fuel
      | (s, false) => s

/-- Lodes of a tenant's clock that may be evicted now. -/
def State.evictableOf (s : State) (n : Nat) : Nat :=
  ((tgetD s.cage.clocks n {}).lodes.filter (fun h => (s.cage.entry h).evictable s.meridian.frame)).length

/-- The quota can hold `k` more lodes, after evicting the tenant's own evictable lodes as needed (R329). -/
def State.canCharge (s : State) (n k : Nat) : Bool := decide (s.charge n + k ≤ s.quota n + s.evictableOf n)

/-- Make room for `k` more lodes in the quota (R329). -/
def State.makeRoom (s : State) (n k : Nat) : State :=
  s.evictTo n (s.quota n - k) (tgetD s.cage.clocks n {}).lodes.length

/-- Make room in the pool for `k` more lodes by the pool clock, at most `fuel` evictions (R327, R328). -/
def State.poolRoom (s : State) (k : Nat) : Nat → State
  | 0 => s
  | fuel + 1 =>
    if s.cage.poolTaken + k ≤ s.cage.poolLodes then s
    else match s.evictOne poolClock with
      | (s, true) => s.poolRoom k fuel
      | (s, false) => s

/-- Pool evictions possible at most. -/
def State.poolFuel (s : State) : Nat := (tgetD s.cage.clocks poolClock {}).lodes.length

/-- QUOTA_HIGH when the charge first reaches QWARN percent within a frame (R329 edges). -/
def State.quotaHigh (s : State) (n before : Nat) : State :=
  let q := s.quota n
  let w := tgetD s.cage.qwarn n 90
  let now := s.charge n
  if w ≠ 0 ∧ before * 100 < w * q ∧ w * q ≤ now * 100 ∧ !s.cage.quotaHighFrame.contains n then
    ({ s with cage := { s.cage with quotaHighFrame := s.cage.quotaHighFrame ++ [n] } } : State).raise
      0x0406 n (le 4 now ++ le 4 q)
  else s

/-- POOL_WAIT, at most once per frame (R327). -/
def State.poolWait (s : State) : State :=
  if s.cage.poolWaitFrame then s
  else ({ s with cage := { s.cage with poolWaitFrame := true } } : State).raiseM 0x0404 (le 4 s.poolFree)

/-! ### Page-ins -/

/-- Where a page-in takes its lode (R327). -/
inductive Source
  | reservation (key : Nat)
  | quota
  | overdraft
  | pool
  deriving DecidableEq, Repr

/-- The class of a lode of an object: its fixed components, its last lodes, are PINNED_H (R175, R210). -/
def Object.lodeClass (o : Object) (w : Nat) : PlaceClass :=
  if o.base + (o.lodes - o.fixedLodes) ≤ w then .pinnedH else o.cls

/-- The source of R327 for a lode of object `o`, with room made for it; none where the pool has no eligible lode. -/
def State.pageSource (s : State) (o : Object) (w : Nat) (planned : Option Nat) : State × Option Source :=
  let n := handleTenant o.handle
  let cls := o.lodeClass w
  match planned with
  | some key => (s, some (.reservation key))
  | none =>
    if cls = .pinnedH ∨ cls = .hot then (s, some .quota)
    else
      let fromPool := fun (s : State) (src : Source) =>
        let s := s.poolRoom 1 s.poolFuel
        if s.cage.poolTaken < s.cage.poolLodes then (s, some src) else (s.poolWait, none)
      if cls = .paged then
        if s.charge n < s.quota n then (s, some .quota)
        else match s.evictOne n with
          | (s, true) => (s, some .quota)
          | (s, false) => fromPool s .overdraft
      else fromPool s .pool

/-- Unplanned paging (R336): a lode that the plan of the job treats as resident. -/
def Packet.treatsResident (p : Packet) (o : Object) (w : Nat) : Bool :=
  (o.lodeClass w == .pinnedH || o.cls == .hot || (match o.body with
    | .kv _ => (tget? o.tierF (w - o.base)).isNone
    | _ => false)) &&
  (p.hdr.opcode != 0x0601 || p.residentAtAdmit.contains w)

/-- The lode of an object as R333 fills it: a read of its Tier F copy, the zeroed list or the scrubbed list. -/
def fillState (o : Object) (w : Nat) (have_ : LodeState) : Bool :=
  if (tget? o.tierF (w - o.base)).isSome then have_ == .scrubbed || have_ == .zeroed
  else if o.zeroed then have_ == .zeroed
  else have_ == .scrubbed

/-- Enter a lode in transit for a window lode (R331, R333). -/
def Cage.enterTransit (c : Cage) (h w : Nat) (o : Object) (src : Source) (now kind : Nat) : Cage :=
  let n := handleTenant o.handle
  let e : LodeEntry := { wlode := w, state := .transit, cls := o.lodeClass w, tenant := n
                         pool := match src with | .quota => false | _ => true
                         overdraft := src == .overdraft, missNs := now, pageKind := kind
                         jobs := match src with | .reservation _ => 1 | _ => 0 }
  let c := c.cacheOut w
  let c := { c with map := tset c.map h e
                    reserved := match src with
                      | .reservation k => tmod c.reserved k 0 (· - 1)
                      | _ => c.reserved }
  let c := c.chainIn h w
  if src = .overdraft then
    { c with overdraftCnt := satAdd 32 c.overdraftCnt 1, overdraftFrame := tmod c.overdraftFrame n 0 (· + 1) }
  else c

/-- PAGE_IN: on a miss of window lode `w`, the Cage takes lode `h` from the list it needs, makes room under R327 and
enters it in transit. `job` is the packet whose access missed, and `planned` says its plan staged the lode. -/
def execPageIn (t w h : Nat) (job : Option Nat) (planned : Bool) (s : State) : Result :=
  let s := s.at t
  match s.cage.find w, s.objectAt w with
  | none, some o =>
    let e := s.cage.entry h
    let key := if planned then job.filter (fun k => decide (0 < tgetD s.cage.reserved k 0)) else none
    if !s.cage.prepared ∨ tierHLodes ≤ h ∨ s.cage.isCheck h ∨ !fillState o w e.state then .next s
    else
      let before := s.charge (handleTenant o.handle)
      let s := if s.cage.wanted.contains w then s
        else { s with cage := { s.cage with wanted := s.cage.wanted ++ [w], missCnt := satAdd 32 s.cage.missCnt 1 } }
      match s.pageSource o w key with
      | (s, some src) =>
        let unplanned := !planned && (job.bind s.packet?).elim false (fun p => p.treatsResident o w)
        let kind := if planned then 0 else if unplanned then 1
          else if (job.bind s.packet?).elim false (fun p => p.hdr.opcode == 0x0601) then 2 else 3
        let s := { s with cage := s.cage.enterTransit h w o src s.now kind }
        let s := if unplanned then
          { s with cage := { s.cage with unplannedCnt := satAdd 32 s.cage.unplannedCnt 1 } } else s
        .next (s.quotaHigh (handleTenant o.handle) before)
      | (s, none) => .next s
  | _, _ => .next s

/-- The marks of a lode as its Tier F copy brings them. -/
def Object.lodeMarks (o : Object) (w : Nat) : Tbl Nat :=
  (o.badUnits.filter (fun p => p.1 / 1024 == w - o.base)).map (fun p => (p.1 % 1024, p.2))

/-- PAGE_IN_COMPLETE: the fill ends, the lode is resident and enters its clock; accesses that waited proceed. A lode
whose object is gone is freed (R333 to R337). -/
def execPageInComplete (t w : Nat) (s : State) : Result :=
  let s := s.at t
  match s.cage.find w with
  | none => .next s
  | some h =>
    if (s.cage.entry h).state ≠ .transit then .next s
    else
      let s := { s with cage := { s.cage with wanted := s.cage.wanted.filter (· != w) } }
      match s.objectAt w with
      | none => .next (s.freeLode h)
      | some o =>
        let s := s.invalidateHeld (h * lodeBytes) lodeBytes
        let s := { s with coherence := s.coherence.forgetLode h }
        let e := { s.cage.entry h with state := .resident, poison := (o.lodeMarks w).foldl (fun m x => tset m x.1 x.2) (s.cage.entry h).poison }
        let drift := (tget? o.tierF (w - o.base)).elim 0xFF (·.1)
        let s := s.trace 7 (handleTenant o.handle) o.handle (le 4 w ++ [BitVec.ofNat 8 drift, BitVec.ofNat 8 e.pageKind, 0, 0] ++ le 4 (s.now - e.missNs))
        let c := { s.cage.cacheOut w with map := tset s.cage.map h e }
        .next { s with cage := match e.clock with
          | some k => c.clockIn h k
          | none => c }

/-- SCRUB_LODE: the engine scrubs, or zeroes, a lode of the dirty list (R324, R325). -/
def execScrubLode (t h : Nat) (zero : Bool) (s : State) : Result :=
  let s := s.at t
  if !s.cage.prepared ∨ tierHLodes ≤ h ∨ (s.cage.entry h).state ≠ .dirty ∨ s.cage.retained.any (fun r => r.1 == h) then .next s
  else
    let e : LodeEntry := { state := if zero then .zeroed else .scrubbed, dirty := false }
    .next { s with cage := { s.cage with map := tset s.cage.map h e } }

/-- HOLD_END: a hold whose last frame is over ends; a pool or STREAM lode is then uncharged (R329). -/
def execHoldEnd (t w : Nat) (s : State) : Result :=
  let s := s.at t
  match s.cage.find w with
  | some h =>
    let e := s.cage.entry h
    if e.hold.isSome ∧ !e.heldAt s.meridian.frame then
      .next { s with cage := { s.cage with map := tupd s.cage.map h (fun e => { e with hold := none }) } }
    else .next s
  | none => .next s

/-! ### Quotas -/

/-- A write of STP_QUOTA_n: accepted for the next tick, or ignored with QREJ (R322). -/
def State.writeQuota (s : State) (n v : Nat) : State :=
  let accepted := fun m => (tget? s.cage.quotaPending m).elim (s.quota m) (·.1)
  let total := v + sumNat (((List.range 64).filter (· != n)).map accepted)
  if s.cage.quotable < total ∨ v < s.fixedCharge n then { s with cage := { s.cage with qrej := true } }
  else
    let s := { s with cage := { s.cage with quotaPending := tset s.cage.quotaPending n (v, s.meridian.frame) } }
    s.save (fun b => { b with quotas := tset b.quotas n v })

/-- The kinds whose PINNED_H components are fixed (R175, R210). -/
def Object.isFixed (o : Object) : Bool :=
  match o.body with
  | .index _ => true
  | .kv _ => true
  | _ => false

/-- The window lodes of an object that its class keeps in Tier H: its fixed components, or all of a PINNED_H object. The
components outside the offset space are its last lodes. -/
def Object.pinnedLodes (o : Object) : List Nat :=
  if o.cls = .pinnedH then (List.range o.lodes).map (fun i => o.base + i)
  else (List.range o.fixedLodes).map (fun i => o.base + (o.lodes - o.fixedLodes) + i)

/-! ### Who still sees an earlier version (R158, R177, R415, R446) -/

/-- The reader that a record held for the twin is: past every key of this module's own packets. -/
def twinReader (k : Nat) : Nat := k + 2 ^ 64

/-- A reader that is a record held for the twin. -/
def State.twinReads (s : State) (k : Nat) : Bool := decide (2 ^ 64 ≤ k) && (tget? s.packets.twin (k - 2 ^ 64)).isSome

/-- The packets other than one that see an object at their admission version and are not answered, and the twin's records that do
(R158, R415, R446). -/
def State.readersOf (s : State) (h key : Nat) : List Nat :=
  ((s.packets.live.map (·.2)).filter (fun p => p.key != key && p.open_ && (objIn p.snap h).isSome)).map (·.key) ++
    (s.packets.twin.filter (fun (x : Nat × Packet) => (objIn x.2.snap h).isSome)).map (fun (x : Nat × Packet) => twinReader x.1)

/-- A reader `a` becomes reader `b`. -/
def IndexBody.renameReader (x : IndexBody) (a b : Nat) : IndexBody :=
  { x with emptied := x.emptied.map (fun (e : Nat × List Nat) => (e.1, e.2.map (fun k => if k = a then b else k))) }

/-- A record of the twin that is taken over keeps what was kept for it (R446, R455). -/
def State.renameReader (s : State) (a b : Nat) : State :=
  let new := fun (k : Nat) => if k = a then b else k
  { s with cage := { s.cage with retained := s.cage.retained.map (fun (r : Nat × List Nat) => (r.1, r.2.map new)) }
           objects := { s.objects with live := tmapv s.objects.live (fun _ o =>
             { o with keepFor := o.keepFor.map new
                      body := match o.body with
                        | .index x => .index (x.renameReader a b)
                        | y => y }) } }

/-- Ask for the page-in of every lode that an object keeps in Tier H, as firmware's own work (R320, R537, R538). -/
def State.wantPinned (s : State) (o : Object) : State :=
  { s with cage := { s.cage with wanted := o.pinnedLodes.foldl (fun l w =>
      if l.contains w ∨ (s.cage.translate w matches .hit _) then l else l ++ [w]) s.cage.wanted } }

/-- Charge the objects of a tenant that stayed uncharged, in ascending object number, as far as they fit (R537). -/
def State.rechargeObjects (s : State) (n : Nat) : State :=
  ((s.objectsOf n).filter (·.uncharged)).foldl (fun s o =>
    if s.charge n + o.fullReservation ≤ s.quota n then
      let o := { o with uncharged := false }
      ({ s with objects := { s.objects with live := tset s.objects.live (field o.handle 0 48) o } } : State).wantPinned o
    else s) s

/-- QUOTA_EFFECT: at the tick after its write the quota takes effect; the tenant's clock evicts PAGED lodes until the
charge fits, and objects left uncharged at start-up are charged again (R322, R537). -/
def execQuotaEffect (t n : Nat) (s : State) : Result :=
  let s := s.at t
  match tget? s.cage.quotaPending n with
  | some (v, f) =>
    if f < s.meridian.frame then
      let s := { s with cage := { s.cage with quotas := tset s.cage.quotas n v
                                              quotaPending := terase s.cage.quotaPending n } }
      .next ((s.evictTo n v (tgetD s.cage.clocks n {}).lodes.length).rechargeObjects n)
    else .next s
  | none => .next s

/-! ### Errors of Tier H -/

/-- The packet that holds a lode as a job lode. -/
def State.jobOfLode (s : State) (h : Nat) : Option Nat :=
  (s.packets.live.find? (fun p => p.2.jobLodes.contains h)).map (·.1)

/-- A lode is tested after an uncorrectable error: it is retired on a failure, unless the pool would fall below
65,536 usable lodes (R341, R342). -/
def State.testLode (s : State) (h : Nat) (pass : Bool) : State :=
  if pass then s
  else
    let keep := decide (s.cage.poolLodes ≤ 65536)
    let s := if keep then s
      else { s with cage := { s.cage with retiredCnt := s.cage.retiredCnt + 1
                                          map := tset s.cage.map h { state := .retired, dirty := false } } }
    s.raiseM 0x0405 (le 4 h ++ [BitVec.ofNat 8 (bit keep)])

/-- HECC_UNCORRECTABLE at a device address: the data is marked for its reader, the counts and the event follow, a clean
resident lode leaves the map and is tested; PINNED_H and HOT lodes are wanted again at once (R341, R342). `reader` is
the core and stream whose read met the error. -/
def execHeccUncorrectable (t addr : Nat) (pass : Bool) (reader : Option (Nat × Nat)) (s : State) : Result :=
  let s := s.at t
  let h : Nat := addr / lodeBytes
  let unit := addr % lodeBytes / 64
  if tierHLodes ≤ h then .next s
  else
    let s := { s with cage := { s.cage with ueCnt := satAdd 32 s.cage.ueCnt 1 } }
    let s := s.raiseM 0x0402 (le 8 addr)
    let s := match reader with
      | some (n, id) =>
        let c := s.core n
        s.setCore n { c with streams := c.streams.map (fun (st : Stream) =>
          if st.id = id then { st with badRead := some (addr / 64 * 64) } else st) }
      | none => s
    let e : LodeEntry := s.cage.entry h
    if e.state = .resident ∧ !e.dirty then
      let s := match reader with
        | some (n, _) => (s.core n).packet.elim s (fun k => s.firstPoison k (addr / 64 * 64))
        | none => s
      let s := if e.reservedClass then
          { s with cage := { s.cage with wanted := if s.cage.wanted.contains e.wlode then s.cage.wanted
                                                   else s.cage.wanted ++ [e.wlode] } } else s
      .next ((s.freeLode h).testLode h pass)
    else match s.jobOfLode h with
      | some key => .next ((s.faultJob key .poison (deviceLocator (addr / 64 * 64))).testLode h pass)
      | none =>
        if e.state = .resident ∨ e.state = .transit then
          .next { s with cage := { s.cage with map := tupd s.cage.map h (fun e => { e with poison := tset e.poison unit 0 }) } }
        else
          .next { s with coherence := { s.coherence with
            hPoison := if s.coherence.hPoison.contains (addr / 64) then s.coherence.hPoison
                       else s.coherence.hPoison ++ [addr / 64] } }

end Sys2Proof.Machine
end

