-- ==== Sys2Proof/Machine/Records.lean ====
section
/-!
DEFINITION. What the module keeps on record: the event log and log page C0h, Tally with log pages C1h and C2h, the
shift book page C3h, the unit table page C4h, and the Tailings trace (spec/15_faults_and_replay.md, R407, R424 to R428;
spec/21_tally_and_tailings.md; spec/24_status_and_events.md).
-/
namespace Sys2Proof.Machine

/-! ### Get Log Page -/

/-- Bytes a Get Log Page asks for: NUMD in CDW10 [31:16] and CDW11 [15:0], a 0's based count of dwords. -/
def logLength (q : Sqe) : Nat := 4 * (dwField q.d10 16 16 + dwField q.d11 0 16 * 65536 + 1)

/-- The log page offset, in bytes: CDW12 and CDW13. -/
def logOffset (q : Sqe) : Nat := q.d12.toNat + q.d13.toNat * 2 ^ 32

/-- The Log Specific Identifier: CDW11 [31:16]. -/
def logId (q : Sqe) : Nat := dwField q.d11 16 16

/-- Bit 0 of the Log Specific Field, CDW10 bit 8, and RAE, CDW10 bit 15. -/
def logBit (q : Sqe) : Bool := bitAt q.d10.toNat 8

/-- See `logBit`. -/
def logRae (q : Sqe) : Bool := bitAt q.d10.toNat 15

/-- Return the part of a page that the command asks for; an offset past its end fails. -/
def State.logPage (s : State) (q : Sqe) (page : List Byte) : State :=
  if page.length < logOffset q then s.complete q .invalidField
  else (s.toHost q ((page.drop (logOffset q)).take (logLength q))).complete q .success

/-- The tenant a page is for: a VF's own, or the one the PF names (R574, Table Host 8 edges). -/
def logTenant (q : Sqe) : Nat := if q.fn = 0 then logId q else q.fn

/-! ### The event log (R424 to R427, R637 to R641) -/

/-- A record as 32 bytes (Table Event 3). -/
def EventRec.encode (r : EventRec) : List Byte :=
  le 2 r.code ++ le 1 r.tenant ++ le 1 r.seq ++ le 6 (r.timeNs / 1000) ++ padTo 22 r.data

/-- The flash log area keeps the newest 131,072 records, discarding the oldest power-up first (R641). -/
def keepNewest (l : List (Nat × EventRec)) : List (Nat × EventRec) := l.drop (l.length - ringRecords)

/-- Copy what the ring holds and the flash log area does not; a power-up whose records the area discards has lost records (R424, R639,
R641). -/
def State.persistLog (s : State) : State :=
  let l := s.log
  if l.stage = 3 then s
  else
    let all := l.flash ++ (l.ring.drop l.persisted).map (fun r => (s.meridian.bootCount, r))
    let gone := dedupNat ((all.take (all.length - ringRecords)).map (·.1))
    { s with log := { l with flash := keepNewest all, persisted := l.ring.length, lastPersistNs := s.now
                             lostBoots := l.lostBoots ++ gone.filter (fun b => !l.lostBoots.contains b)
                             recordsLost := l.recordsLost || gone.contains s.meridian.bootCount } }

/-- Enter stage 3: LOG_LAST_GASP goes to the next register and to the twin (R426). -/
def State.lastGasp (s : State) (cause : Nat) (readable : Bool) : State :=
  let s := { s with log := { s.log with stage := 3, regionReadable := readable } }
  (s.raiseM 0x0C02 [BitVec.ofNat 8 cause]).platformEvent 17 3

/-- EVENT_LOG_PERSIST, once per second in stages 1 and 2; a failed program, erase or read-back takes the log to stage 3
(R424). -/
def execEventLogPersist (t : Nat) (failed : Bool) (s : State) : Result :=
  let s := s.at t
  if s.log.stage = 3 ∨ !s.powered 4 ∨ s.global.mfault ∨ s.now < s.log.lastPersistNs + 1000000000 then .next s
  else if failed then .next (s.lastGasp 1 true)
  else .next s.persistLog

/-- LOG_RELOCATED: a page of the ring takes an uncorrectable error that leaves the records `lost` unreadable. When the
flash log area failed in the same second, the log goes to stage 3 instead (R425, R426 edges). -/
def execLogRelocated (t : Nat) (lost : List Nat) (areaFailed : Bool) (s : State) : Result :=
  let s := s.at t
  let l := s.log
  if l.stage ≠ 1 ∨ !s.powered 4 then .next s
  else
    let readable := fun (r : EventRec) => !lost.contains r.seq
    let n := (l.ring.filter (fun r => !readable r)).length
    let s := { s with log := { l with ring := (l.ring.drop l.persisted).filter readable, persisted := 0
                                      recordsLost := l.recordsLost || decide (0 < n) } }
    if areaFailed then .next (s.lastGasp 1 true)
    else
      let s := { s with log := { s.log with stage := 2 } }
      .next ((s.raiseM 0x0C01 (le 4 n ++ le 8 l.lastPersistNs)).platformEvent 17 2)

/-- LOG_LAST_GASP: the spare region failed (cause 0) in stage 2, or the flash log area (cause 1) in stage 1 or 2; whether
the region can still be read (R424, R426). -/
def execLogLastGasp (t cause : Nat) (readable : Bool) (s : State) : Result :=
  let s := s.at t
  if (cause = 0 ∧ s.log.stage = 2) ∨ (cause = 1 ∧ s.log.stage ≠ 3) then .next (s.lastGasp cause readable)
  else .next s

/-- STRUCT_REPAIRED: a copy of a shift record, of the key store or of another firmware structure was rewritten from
the intact copy: kind 0, 1 or 2 (R403, R600 edges). With no copy left it is a module fault: cause 1 for a shift record
that no mirror holds, 2 otherwise (R422). -/
def execStructRepaired (t kind : Nat) (intact mirrored : Bool) (s : State) : Result :=
  let s := s.at t
  if intact ∨ (kind = 0 ∧ mirrored) then .next (s.raiseM 0x0504 [BitVec.ofNat 8 kind])
  else .next (s.moduleFault (if kind = 0 then 1 else 2))

/-- Boot counts of the earlier power-ups whose records remain, newest first (R639). -/
def EventLog.earlier (l : EventLog) (boot : Nat) : List Nat :=
  (dedupNat (l.flash.map (·.1))).reverse.filter (· != boot)

/-- The records of the current power-up: persisted ones that the ring no longer holds, then the ring; in stage 3 what is
readable of the region (R639). -/
def State.currentRecords (s : State) : List EventRec :=
  let l := s.log
  let ring := if l.regionReadable then l.ring else []
  if l.stage = 3 then ring
  else
    let old := (l.flash.filter (fun p => p.1 == s.meridian.bootCount)).map (·.2)
    let first := ring.head?.elim l.nextSeq (·.seq)
    old.filter (fun r => decide (r.seq < first)) ++ ring

/-- GET_LOG_PAGE_EVENT_LOG (R639, R640, R609). -/
def execGetLogPageEventLog (q : Sqe) (s : State) : Result :=
  .next (s.command q true (fun s =>
    let l := s.log
    let n := logId q
    let boots := l.earlier s.meridian.bootCount
    if logOffset q % 32 ≠ 0 ∨ (q.fn ≠ 0 ∧ logBit q) ∨ (!logBit q ∧ boots.length < n) then s.complete q .invalidField
    else
      let boot := if logBit q then s.pair.twinBoot else if n = 0 then s.meridian.bootCount else boots.getD (n - 1) 0
      let all := if logBit q then l.fromTwin
        else if n = 0 then s.currentRecords
        else (l.flash.filter (fun p => p.1 == boot)).map (·.2)
      let rs := all.filter (fun r => q.fn == 0 || r.tenant == q.fn)
      let lost := if logBit q then false else if n = 0 then l.recordsLost else l.lostBoots.contains boot
      let head := le 4 boot ++ le 1 l.stage ++ le 1 (bit lost) ++ le 2 0 ++ le 4 rs.length ++
        le 4 (if q.fn = 0 then l.overwritten else 0) ++ le 8 (rs.head?.elim 0 (·.seq)) ++
        le 2 (if q.fn = 0 then l.lgLost else 0)
      let s := if logRae q then s
        else s.setCtrl q.fn { s.ctrl q.fn with eventUnread := false }
      s.logPage q (padTo 64 head ++ rs.flatMap EventRec.encode)))

/-- ASYNCHRONOUS_EVENT_REQUEST: it waits for an event to announce (R640). -/
def execAsynchronousEventRequest (q : Sqe) (s : State) : Result :=
  .next (s.command q true (fun s =>
    s.setCtrl q.fn { s.ctrl q.fn with aers := (s.ctrl q.fn).aers ++ [(q.sqid, q.cid)] }))

/-! ### Tally (R566, R567, R570 to R578) -/

/-- A tenant's partition. -/
def Tally.part (t : Tally) (n : Nat) : Partition := tgetD t.parts n {}

/-- The bin of a sample in µs (R89). -/
def sampleHistBin (us : Nat) : Nat := if us < 1024 then us / 8 else min 255 (128 + (us - 1024) / 128)

/-- The upper edge of a bin, in µs (R89). -/
def binEdge (b : Nat) : Nat := if b < 128 then 8 * (b + 1) else if b < 255 then 1024 + 128 * (b - 127) else 0xFFFFFFFF

/-- The answer statuses that a partition counts: those of R567 at 0x300 to 0x32C. -/
def statusSlot (x : Nat) : Option Nat :=
  if 0x10 ≤ x ∧ x ≤ 0x15 then some (x - 0x10)
  else if 0x20 ≤ x ∧ x ≤ 0x23 then some (6 + (x - 0x20))
  else if x = 0x30 then some 10 else if x = 0x31 then some 11 else none

/-- Add a sample in ns to a record (R88, R89). -/
def PartRec.sample (r : PartRec) (ns : Nat) : PartRec :=
  { r with samples := satAdd 64 r.samples 1, maxUs := max r.maxUs (min (ceilDiv ns 1000) 0xFFFFFFFF)
           bins := tmod r.bins (sampleHistBin (ns / 1000)) 0 (fun n => satAdd 32 n 1) }

/-- What one count adds to a partition (Table Tally 1). -/
def Partition.add (p : Partition) (c : Tallied) : Partition :=
  let on := fun (f : PartRec → PartRec) => { p with recs := tmod p.recs c.record {} f }
  match c.field with
  | .sample => on (fun r => r.sample c.value)
  | .breach => on (fun r => { r with breach := satAdd 64 r.breach c.value })
  | .demoted => on (fun r => { r with demoted := satAdd 64 r.demoted c.value })
  | .refused => on (fun r => { r with refused := satAdd 64 r.refused c.value })
  | .cost => on (fun r => { r with cost := satAdd 64 r.cost c.value })
  | .energy => on (fun r => { r with energy := satAdd 64 r.energy c.value })
  | .hostHeld => on (fun r => { r with hostHeld := satAdd 32 r.hostHeld c.value })
  | .status => match statusSlot c.value with
    | some i => { p with statuses := tmod p.statuses i 0 (fun n => satAdd 32 n 1) }
    | none => p

/-- Packets of a tenant that are outstanding: receipt point passed, no CQE posted (R174). -/
def State.outstanding (s : State) (n : Nat) : Nat :=
  (s.packets.live.filter (fun p => p.2.tenant == n && !p.2.sub && (p.2.phase != .answered || p.2.cqeHeld))).length

/-- Halves of a 64-bit field. -/
def half (v : Nat) (hi : Bool) : Nat := if hi then v / 2 ^ 32 % 2 ^ 32 else v % 2 ^ 32

/-- The 32-bit word of a partition at an offset (Table Reg 8). -/
def Partition.word (p : Partition) (off : Nat) : Nat :=
  if off < 0x240 then
    let r := tgetD p.recs (off / 0x40) {}
    let o := off % 0x40
    if o < 0x08 then half r.samples (o == 4)
    else if o < 0x10 then (if off / 0x40 = 8 then 0 else half r.breach (o == 0xC))
    else if o < 0x18 then half r.demoted (o == 0x14)
    else if o < 0x20 then half r.refused (o == 0x1C)
    else if o < 0x28 then half r.cost (o == 0x24)
    else if o < 0x30 then half r.energy (o == 0x2C)
    else if o = 0x30 then r.hostHeld
    else if o = 0x34 then r.maxUs
    else 0
  else if off < 0x300 then 0
  else if off < 0x330 then tgetD p.statuses ((off - 0x300) / 4) 0
  else if off = 0x330 then p.outstanding
  else if off = 0x334 then p.used
  else if off = 0x338 then p.quota
  else if off = 0x340 then half p.firstFrame false
  else if off = 0x344 then half p.firstFrame true
  else if off < 0x400 then 0
  else if off < 0x2800 then tgetD (tgetD p.recs ((off - 0x400) / 0x400) {}).bins ((off - 0x400) % 0x400 / 4) 0
  else 0

/-- The 12,288 bytes of a partition. -/
def Partition.bytes (p : Partition) : List Byte := (List.range 3072).flatMap (fun i => le 4 (p.word (4 * i)))

/-- Log page C1h (Table Tally 2). -/
def State.pageC1 (s : State) (n : Nat) (cleared : Bool) : List Byte :=
  let p := s.tally.part n
  padTo 64 (le 8 s.tally.closed ++ le 8 p.firstFrame ++ le 4 s.meridian.bootCount ++ le 4 p.clearBoot ++ le 1 n ++
    le 1 (bit p.lost + 2 * bit cleared)) ++ p.bytes

/-- Log page C1h with or without its clear (R575, R576). -/
def State.tallyPage (s : State) (q : Sqe) (clear : Bool) : State :=
  s.command q true (fun s =>
    if (q.fn ≠ 0 ∧ clear) ∨ (q.fn = 0 ∧ 63 < logId q) then s.complete q .invalidField
    else if clear then
      { s with tally := { s.tally with reads := s.tally.reads ++
          [{ fn := q.fn, sqid := q.sqid, cid := q.cid, tenant := logTenant q, buf := q.buf, offset := logOffset q
             length := logLength q, frame := s.meridian.frame }] } }
    else s.logPage q (s.pageC1 (logTenant q) false))

/-- GET_LOG_PAGE_TALLY_SNAPSHOT (R575). -/
def execGetLogPageTallySnapshot (q : Sqe) (s : State) : Result := .next (s.tallyPage q (logBit q))

/-- TALLY_READ_AND_CLEAR: C1h with bit 0 of the Log Specific Field; it completes after the next tick (R576). -/
def execTallyReadAndClear (q : Sqe) (s : State) : Result := .next (s.tallyPage q true)

/-- TAL_CLEAR: a write asks for a clear at the next tick (R566). -/
def State.askClear (s : State) (v : Nat) : State :=
  let f := s.meridian.frame
  if bitAt v 9 then { s with tally := { s.tally with clearAll := some f } }
  else if bitAt v 8 then { s with tally := { s.tally with clears := s.tally.clears ++ [(field v 0 6, f)] } }
  else s

/-- TAL_CLEAR (R566). -/
def execTalClear (t : Nat) (v : BitVec 32) (s : State) : Result :=
  let s := s.at t
  if s.powered 4 then .next (s.askClear v.toNat) else .next s.offWrite

/-- A partition after a clear (R577): the current frame is the first one counted. -/
def State.clearPart (s : State) (n : Nat) : State :=
  let p : Partition := { firstFrame := s.meridian.frame, clearBoot := s.meridian.bootCount }
  { s with tally := { s.tally with parts := tset s.tally.parts n p } }

/-- PARTITION_CLEAR: the clears asked for before this tick take effect after its frame close. Read-and-clears complete
in arrival order: the first of a tenant with the counts before the clear, later ones with the cleared partition (R576 to
R578). -/
def execPartitionClear (t : Nat) (s : State) : Result :=
  let s := s.at t
  let f := s.meridian.frame
  let due := s.tally.reads.filter (fun r => decide (r.frame < f))
  let s := due.foldl (fun s r =>
    let page := s.pageC1 r.tenant true
    let s := s.clearPart r.tenant
    if s.global.mfault then s
    else
      let s := { s with link := { s.link with mem := writeRuns s.link.mem r.buf ((page.drop r.offset).take r.length) } }
      s.completeOn r.fn r.sqid r.cid .success 0 0) s
  let all := s.tally.clearAll.any (fun g => decide (g < f))
  let named := s.tally.clears.filter (fun c => decide (c.2 < f))
  let s := (if all then List.range 64 else dedupNat (named.map (·.1))).foldl (fun s n =>
    if due.any (fun r => r.tenant == n) then s else s.clearPart n) s
  let s := { s with tally := { s.tally with reads := s.tally.reads.filter (fun r => decide (f ≤ r.frame))
                                            clears := s.tally.clears.filter (fun c => decide (f ≤ c.2))
                                            clearAll := if all then none else s.tally.clearAll } }
  .next (if all then { s with tally := { s.tally with replayCost := 0, preemptCost := 0, reservedCf := 0, pitCf := 0
                                                      modEnergy := 0 } }
    else s)

/-- Persist Tally and the counts of log 02h (R551, R611 edges). -/
def State.persistTally (s : State) : State :=
  let y := s.tally
  let acct := [y.replayCost, y.preemptCost, y.reservedCf, y.pitCf, y.modEnergy]
  { s with tally := { y with persisted := y.parts, persistedAcct := acct, persistedAt := s.now }
           manage := { s.manage with smartSaved := tmapv s.manage.smart (fun _ c => { c with busySince := none })
                                     tempSaved := (s.manage.warnTempNs, s.manage.critTempNs) } }

/-- TALLY_PERSIST, every 60 s of powered time (R551). -/
def execTallyPersist (t : Nat) (s : State) : Result :=
  let s := s.at t
  if !s.powered 4 ∨ s.global.mfault ∨ s.now < s.tally.persistedAt + 60000000000 then .next s
  else .next s.persistTally

/-- The p-th percentile of a record, p in thousandths (R89). -/
def PartRec.percentile (r : PartRec) (p : Nat) : Nat :=
  if r.samples = 0 then 0
  else
    let want := ceilDiv (p * r.samples) 1000
    let rec go (b acc : Nat) : Nat → Nat
      | 0 => binEdge 255
      | n + 1 =>
        let acc := acc + tgetD r.bins b 0
        if want ≤ acc then binEdge b else go (b + 1) acc n
    go 0 0 256

/-- A record of log page C2h (Table Orrery 6). -/
def PartRec.encode (r : PartRec) (best : Bool) : List Byte :=
  le 8 r.samples ++ le 4 (r.percentile 500) ++ le 4 (r.percentile 900) ++ le 4 (r.percentile 990) ++
  le 4 (r.percentile 999) ++ le 4 r.maxUs ++ le 8 (if best then 0 else r.breach) ++ le 8 r.demoted ++ le 8 r.refused ++
  le 4 r.hostHeld ++ le 8 (r.energy / 1000)

/-- GET_LOG_PAGE_TENANT_PERCENTILES (R90). -/
def execGetLogPageTenantPercentiles (q : Sqe) (s : State) : Result :=
  .next (s.command q true (fun s =>
    let n := logTenant q
    if 63 < n then s.complete q .invalidField
    else
      let p := s.tally.part n
      s.logPage q (padTo 64 (le 8 p.firstFrame ++ le 8 s.tally.closed ++ le 4 s.meridian.bootCount ++ le 1 n) ++
        (List.range 9).flatMap (fun c => (tgetD p.recs c {}).encode (c == 8)))))

/-! ### The shift book and the unit table as pages (R407, R506) -/

/-- STATE of a shift record (Table Fault 2). -/
def Phase.code : Phase → Nat
  | .received => 0 | .admitted => 1 | .running => 2 | .finished => 2 | .replaying => 3 | .answered => 4

/-- ADMIT_FRAME of a shift record (Table Fault 2). -/
def Packet.admitWord (p : Packet) : Nat := p.admitFrame.getD (2 ^ 64 - 1)

/-- An entry of log page C3h (Table Fault 3). -/
def Packet.encodeC3 (p : Packet) : List Byte :=
  padTo 16 (le 8 p.hdr.packetId ++ le 1 p.tenant ++ le 1 p.phase.code ++ le 1 p.replays ++
    le 1 (bit p.mirrored + 2 * bit (p.forTwin || p.takenOver) + 4 * bit p.contracted)) ++ le 8 p.admitWord ++ le 8 p.lastLoc

/-- GET_LOG_PAGE_SHIFT_BOOK_STATUS: the PF's 0xFF names every tenant (R407, Table Fault 3). -/
def execGetLogPageShiftBookStatus (q : Sqe) (s : State) : Result :=
  .next (s.command q true (fun s =>
    let n := if q.fn = 0 then logId q % 256 else q.fn
    if q.fn = 0 ∧ 63 < logId q ∧ logId q ≠ 0xFF then s.complete q .invalidField
    else
      let wanted := fun (p : Packet) => n == 0xFF || p.tenant == n
      let own := (s.packets.live.map (·.2)).filter (fun p => wanted p && (p.phase != .answered || p.cqeHeld))
      let twin := if q.fn = 0 then (s.packets.twin.map (·.2)).filter wanted else []
      let all := own ++ twin
      let oldest := all.foldl (fun m p => min m p.admitWord) (2 ^ 64 - 1)
      let mirror := if !s.pair.id.pairId != 0 then 0 else if s.binaryLive then 1 else 2
      s.logPage q (padTo 64 (le 4 own.length ++ le 4 twin.length ++ le 4 (all.filter (fun p => !p.mirrored)).length ++
        le 1 mirror ++ le 3 0 ++ le 8 (sumNat (all.map (·.annexBytes))) ++ le 8 oldest ++ le 4 s.meridian.bootCount) ++
        all.flatMap Packet.encodeC3)))

/-- UT_STATE.DOMAIN (Table Unit 3). -/
def unitDomainField (u : Nat) : Nat := if u = 356 ∨ u = 357 then 5 else unitDomain u

/-- The 32-bit word of a unit's entry at an offset 0x0 to 0xC (Table Unit 3). -/
def State.unitWord (s : State) (u off : Nat) : Nat :=
  let e := s.unit u
  if off = 0 then
    e.state.code + 16 * bit e.wrq + 32 * bit e.mgmt + 64 * bit e.probe + 256 * unitDomainField u +
    4096 * min 15 (e.recov.filter (fun x => decide (s.now < x + 86400000000000))).length + 65536 * (e.epoch / 2 ^ 32 % 65536)
  else if off = 4 then e.epoch % 2 ^ 32
  else if off = 8 then e.faults
  else e.changed

/-- GET_LOG_PAGE_UNIT_TABLE, on the PF (R138, R506). -/
def execGetLogPageUnitTable (q : Sqe) (s : State) : Result :=
  .next (s.command q true (fun s =>
    if q.fn ≠ 0 then s.complete q .invalidLogPage
    else s.logPage q (padTo 64 (le 4 s.meridian.bootCount ++ le 4 0 ++ le 8 s.meridian.frame) ++
      (List.range unitCount).flatMap (fun u => [0, 4, 8, 12].flatMap (fun o => le 4 (s.unitWord u o))))))

/-! ### Tailings (R582) -/

/-- TRACE_ENABLE: a change of ENABLE from 0 to 1 takes effect at a tick: WPTR and SEQ restart at 0, and the first record
is START (R582). -/
def execTraceEnable (t : Nat) (s : State) : Result :=
  let s := s.at t
  match s.tailings.restart with
  | none => .next s
  | some f =>
    if s.meridian.frame ≤ f then .next s
    else
      let c := s.tailings.cfgNext
      let s := { s with tailings := { s.tailings with restart := none, cfg := c, seq := 0 } }
      .next (s.trace 15 0xFF 0 (le 4 s.tailings.size ++ le 8 c.tenants.toNat ++ le 2 c.kinds.toNat ++ le 2 c.evgroups.toNat))

end Sys2Proof.Machine
end

