-- ==== Sys2Proof/Machine/Flags.lean ====
section
/-!
DEFINITION. The status and the flags of an answer, its record, its CQE, and how it is delivered and counted
(spec/06_work_packets.md, R169 to R173; spec/02_meridian_frame.md, R37 to R40, R48 to R51; R149, R174, R456 to R459).
-/
namespace Sys2Proof.Machine

/-! ### Status, flags, locator (R171, R172) -/

/-- The deadline frame of a packet (R37): none before its admission or outside a contract. -/
def Packet.deadline (p : Packet) : Option Nat :=
  if p.contracted ∧ !p.sub then p.admitFrame.map (fun a => a + (if bitAt p.hdr.flags 1 then 3 else 2)) else none

/-- LATE of a packet whose CQE is posted in `frame` (R40). -/
def Packet.isLate (p : Packet) (frame : Nat) : Bool := p.deadline.elim false (fun d => decide (d ≤ frame))

/-- The flags byte of an answer (Table Packet 8): each flag only where Table Packet 10 permits it for the status. -/
def Packet.flags (p : Packet) : Nat :=
  let done := p.status == .done
  let lates := done || p.status.failed
  let ran := !p.status.refused
  bit (p.late && lates) + 2 * bit (decide (0 < p.replays) && ran) + 4 * bit (p.truncated && done) +
    8 * bit (p.takenOver && ran) + 16 * bit (p.partialAns && done) + 32 * bit (p.demoted && ran) +
    64 * bit (p.satd && done)

/-- REPLAYS of an answer: a refused answer never ran. -/
def Packet.replayField (p : Packet) : Nat := if p.status.refused then 0 else p.replays

/-- LOCATOR of an answer (R171). -/
def Packet.locator (p : Packet) : Nat :=
  if p.status.refused ∨ p.status.failed ∨ 0 < p.replays then p.lastLoc else 0

/-- A refusal locator (Table Packet 9). -/
def refusalLocator (reason off : Nat) (inParam : Bool) : Nat :=
  8 * 2 ^ 60 + reason * 2 ^ 48 + bit inParam * 2 ^ 32 + off % 2 ^ 32

/-- The answer record (Table Packet 8). -/
def Packet.answer (p : Packet) (admitted deliver : Nat) : List Byte :=
  let pay := if p.status = .done then p.payload else []
  let done := p.status == .done
  padTo 64 (le 8 p.hdr.packetId ++ le 1 p.status.code ++ le 1 p.flags ++ le 1 p.replayField ++ le 1 0 ++ le 4 pay.length ++
    le 8 admitted ++ le 8 deliver ++ le 4 (if done then min p.cost (2 ^ 32 - 1) else 0) ++ le 4 (if done then p.energy else 0) ++
    le 8 (if pay.isEmpty then 0 else crc64 pay) ++ le 8 p.locator)

/-- The NVMe status of an answer: Data Transfer Error where its region could not be written (R145); for a run that EXECUTE
PROGRAM started, by its answer status (R135). -/
def Packet.nvmeStatus (p : Packet) : NvmeStatus :=
  if !p.viaExecute then (if p.writeFailed then .dataTransfer else .success)
  else if p.status = .done then .success
  else if p.status.refused then .invalidField
  else if p.status.failed then .internalError
  else .abortRequested

/-- The CQE of an answer (R135, R173, R458): under takeover it carries the original SQID and CID. -/
def Packet.cqe (p : Packet) : Cqe :=
  { sqid := p.sqid, cid := p.cid, status := p.nvmeStatus
    dw0 := p.status.code + 256 * p.flags + (if p.viaExecute then 0 else 65536 * p.replayField)
    dw1 := if p.viaExecute then 0 else p.hdr.packetId % 2 ^ 32 }

/-- The record of the partition that an answer's sample enters (R88). -/
def Packet.sampleRecord (p : Packet) : Nat := if p.contracted then p.hdr.cls else 8

/-! ### Deadlines (R48 to R51) -/

/-- A deadline that has come in `frame` and has not been counted (R48 to R50). -/
def Packet.overdue (p : Packet) (frame : Nat) : Bool :=
  p.open_ && !p.breached && !p.heldCounted && p.deadline.elim false (fun d => decide (d ≤ frame))

/-- Count the deadlines of a tenant that came at this tick: a breach, or a host-held completion where only a full
completion queue holds the CQE (R48, R49); one event of each kind (R51). -/
def State.tenantDeadlines (s : State) (n : Nat) : State :=
  let due := (s.packets.live.map (·.2)).filter (fun p => p.tenant == n && p.overdue s.meridian.frame)
  let held := due.filter (·.cqeHeld)
  let miss := due.filter (fun p => !p.cqeHeld)
  let s := miss.foldl (fun s p => (s.modPacket p.key (fun p => { p with breached := true, late := true })).count n p.hdr.cls .breach 1) s
  let s := held.foldl (fun s p => (s.modPacket p.key (fun p => { p with heldCounted := true, late := true })).count n p.hdr.cls .hostHeld 1) s
  let s := match miss with
    | [] => s
    | p :: _ => s.raise 0x0101 n ([BitVec.ofNat 8 p.hdr.cls] ++ le 4 miss.length)
  match held with
  | [] => s
  | p :: _ => s.raise 0x0105 n (le 2 p.cqid ++ le 4 held.length)

/-- Every deadline that has come. -/
def State.deadlines (s : State) : State :=
  let due := (s.packets.live.map (·.2)).filter (fun p => p.overdue s.meridian.frame)
  (sortBy (fun a b => decide (a < b)) (dedupNat (due.map (·.tenant)))).foldl State.tenantDeadlines s

/-! ### Delivery (R169, R173) -/

/-- The runs of a region from an offset on. -/
def dropRuns : List (Nat × Nat) → Nat → List (Nat × Nat)
  | [], _ => []
  | (a, n) :: rs, o => if n ≤ o then dropRuns rs (o - n) else (a + o, n - o) :: rs

/-- The frame that ADMIT_FRAME reports: the frame of the refusal where none was admitted (R36, Table Packet 8). -/
def State.admitOf (s : State) (p : Packet) : Nat := p.admitFrame.getD s.meridian.frame

/-- A frame as a packet's answer numbers it: a constellation answer's frames are in constellation numbering (R464, R470). -/
def State.answerFrame (s : State) (p : Packet) (f : Nat) : Nat :=
  if bitAt p.hdr.flags 1 ∧ !p.status.refused then ((f : Int) + s.const.frameOff).toNat else f

/-- Write the payload, then the record, to host memory (R38, R169). A run of EXECUTE PROGRAM has no record, and a region that
could not be written keeps what it held (R135, R145). -/
def State.writeAnswer (s : State) (p : Packet) : State :=
  if s.global.mfault ∨ p.viaExecute ∨ p.writeFailed then s
  else
    let pay := if p.status = .done then p.payload else []
    let m := writeRuns s.link.mem (dropRuns p.region 64) pay
    let m := writeRuns m p.region (p.answer (s.answerFrame p (s.admitOf p)) (s.answerFrame p s.meridian.frame))
    { s with link := { s.link with mem := m } }

/-- An outstanding change claim ends (R157, R158). -/
def State.releaseClaims (s : State) (key : Nat) : State :=
  let free := fun (o : Object) =>
    { o with changingBy := if o.changingBy = some key then none else o.changingBy
             deletingBy := if o.deletingBy = some key then none else o.deletingBy }
  let s := { s with objects := { s.objects with live := tmapv s.objects.live (fun _ o => free o) } }
  s.modPacket key (fun p => { p with create := none, grow := none })

/-- Complete the ABORT WORK commands that named a packet, after its own CQE (R148, R149): 0 removed before admission,
1 stopped after it, 2 the packet posted its own CQE first. -/
def State.answerAborts (s : State) (p : Packet) : State :=
  let dw0 := if p.status ≠ .aborted then 2 else if p.admitFrame.isSome then 1 else 0
  let mine := s.packets.aborts.filter (fun a => a.packet == p.key)
  let s := { s with packets := { s.packets with aborts := s.packets.aborts.filter (fun a => a.packet != p.key) } }
  mine.foldl (fun s a => s.completeOn a.fn a.sqid a.cid .success dw0 0) s

/-- TAKEOVER_DONE when the last taken-over record is answered (R456). -/
def State.takeoverStep (s : State) (p : Packet) : State :=
  if !p.takenOver then s
  else
    let s := { s with pair := { s.pair with takeoverAnswered := s.pair.takeoverAnswered + 1 } }
    if s.pair.takeoverRuns ∧ !s.packets.live.any (fun x => x.2.takenOver && x.2.phase != .answered) then
      let s := { s with pair := { s.pair with takeoverRuns := false } }
      s.raiseM 0x0605 (le 4 s.pair.takeoverAnswered)
    else s

/-- The CQE of a packet is posted: the record is answered, its counts and its sample are noted (a run of EXECUTE PROGRAM has no answer
record and adds none), its claims end (R88, R135, R174, R404, R571). -/
def State.answered (s : State) (p : Packet) : State :=
  let f := s.meridian.frame
  let s := s.updateRecord p.key (fun q => { q with phase := .answered, cqeHeld := false, recordWritten := true
                                                   late := p.late, deliverFrame := some f, cqeNs := s.now })
  let s := if p.viaExecute then s else s.count p.tenant p.sampleRecord .status p.status.code
  let s := if p.status = .failedMedia then
      { s with manage := { s.manage with smart := tmod s.manage.smart p.fn {} (fun c => { c with mediaErrors := c.mediaErrors + 1 }) } }
    else s
  let s := if p.status.refused ∨ p.viaExecute then s
    else (((s.count p.tenant p.sampleRecord .sample (s.now - p.receiptNs)).count p.tenant p.sampleRecord .cost
      (if p.status = .done then p.cost else 0)).count p.tenant p.sampleRecord .energy (if p.status = .done then p.energy else 0))
  let s := s.trace 2 p.tenant p.hdr.packetId ([BitVec.ofNat 8 p.status.code, BitVec.ofNat 8 p.flags, BitVec.ofNat 8 p.replayField, 0] ++
    le 2 p.hdr.opcode ++ le 4 p.cost ++ le 4 p.energy ++ le 4 ((s.now - p.receiptNs) / 1000) ++ le 4 (s.admitOf p))
  ((s.releaseClaims p.key).answerAborts p).takeoverStep p

/-- TAKEOVER_NO_CQ: a taken-over answer without a takeover queue, announced once for its function (R459). -/
def State.noTakeoverCq (s : State) (p : Packet) : State :=
  let c := s.ctrl p.fn
  let s := s.setCtrl p.fn { c with noCqCount := c.noCqCount + 1 }
  if s.pair.noCqRaised.contains p.fn then s
  else ({ s with pair := { s.pair with noCqRaised := s.pair.noCqRaised ++ [p.fn] } } : State).raise 0x0606 p.tenant
    (le 2 p.fn ++ le 4 (c.noCqCount + 1))

/-- Deliver a packet's answer: deadlines that have come first, then payload and record, then the CQE, which is held back
only while its queue is full (R49). -/
def State.deliver (s : State) (key : Nat) : State :=
  let s := s.deadlines
  match s.packet? key with
  | none => s
  | some p =>
    let p := { p with late := p.isLate s.meridian.frame }
    let s := s.writeAnswer p
    if p.takenOver ∧ (s.ctrl p.fn).takeoverCq.isNone then (s.noTakeoverCq p).answered p
    else
      let cq := if p.takenOver then (s.ctrl p.fn).takeoverCq.getD 0 else p.cqid
      let q := tgetD (s.ctrl p.fn).cqs cq {}
      let full := decide (q.depth ≤ q.posted.length + 1) || !q.held.isEmpty
      let s := s.postOn p.fn cq p.cqe (some key)
      if full ∧ s.canPost p.fn then
        s.updateRecord key (fun q => { q with phase := .answered, cqeHeld := true, recordWritten := true, late := p.late })
      else s.answered p

end Sys2Proof.Machine
end

