-- ==== Sys2Proof/Machine/Fabric.lean ====
section
/-!
DEFINITION. The fabric ports: wire frames, NAKs, credits, links going down and up, session keys and routes
(spec/16_pairs_and_constellations.md, R430 to R439, R463).
-/
namespace Sys2Proof.Machine

/-! ### Wire frames (R430 to R432) -/

/-- The receiver drops a frame and names the SEQ it expects in a NAK record (R431). -/
def State.dropFrame (s : State) (p : Nat) : State :=
  let s := s.modPort p (fun x => { x with crcErr := satAdd 32 x.crcErr 1, retry := satAdd 32 x.retry 1 })
  s.sendControl p (le 1 2 ++ le 1 0 ++ le 2 (s.port p).rxNext)

/-- The partner has every flit up to a SEQ (R432). -/
def Port.acked (p : Port) (ack : Nat) : Port :=
  match p.replay.findIdx? (fun f => f.seq == ack) with
  | some i => { p with replay := p.replay.drop (i + 1) }
  | none => p

/-- A data flit received in order joins its channel's message; a credit for it goes back (R433, R435). -/
def State.takeFlit (s : State) (p vc : Nat) (first last : Bool) (flit : List Byte) (poison : BitVec 4) : State :=
  let port := s.port p
  let old : Partial := if first then {} else tgetD port.assembling vc {}
  let n := old.bytes.length / 64
  let now : Partial := { bytes := old.bytes ++ flit
                         poison := old.poison ++ (List.range 4).filterMap (fun i =>
                           if poison.getLsbD i then some (n + i) else none) }
  let s := s.sendControl p (le 1 1 ++ le 1 vc ++ le 2 1)
  if last then
    let s := s.modPort p (fun x => { x with assembling := terase x.assembling vc })
    let len := leAt now.bytes 4 4
    let m : Message := { port := p, vc := vc, dst := leAt now.bytes 0 1, src := leAt now.bytes 1 1
                         typ := leAt now.bytes 2 1, tag := leAt now.bytes 8 8
                         body := (now.bytes.take len).drop 16, poison := now.poison }
    { s with fabric := { s.fabric with received := s.fabric.received ++ [m] } }
  else s.modPort p (fun x => { x with assembling := tset x.assembling vc now })

/-- WIRE_FRAME_RECEIVED: the frame's header, flit and CRC after the RS decoders, whether they corrected it or failed, and
the poison bits of its four 64-byte units (R430 to R433, R439). -/
def execWireFrameReceived (t p : Nat) (frame : List Byte) (corrected failed : Bool) (poison : BitVec 4) (s : State) :
    Result :=
  let s := s.at t
  let port := s.port p
  if port.state = .down ∨ port.state = .training ∨ 12 ≤ p then .next s
  else
    let s := if corrected then s.modPort p (fun x => { x with fecCorr := satAdd 32 x.fecCorr 1 }) else s
    let h := leAt frame 0 4
    let typ := field h 0 4
    if failed ∨ 2 < typ ∨ crc32 (frame.take 260) ≠ leAt frame 260 4 then .next (s.dropFrame p)
    else
      let s := s.modPort p (fun x => x.acked (field h 20 12))
      if typ = 0 then .next (s.pump p)
      else if field h 8 12 ≠ port.rxNext then .next (s.pump p)
      else
        let s := s.modPort p (fun x => { x with rxNext := (x.rxNext + 1) % 4096 })
        let flit := sliceBytes frame 4 256
        let vc := field h 4 2
        if typ = 2 then
          let recs := ((List.range 16).map (fun i => sliceBytes flit (16 * i) 16)).filter (fun r => leAt r 0 1 != 0)
          .next ((s.modPort p (fun x => { x with inbox := x.inbox ++ recs })).pump p)
        else if isBinary p ∧ !port.secured ∧ vc ≠ 0 then .next (s.pump p)
        else .next ((s.takeFlit p vc (bitAt h 6) (bitAt h 7) flit poison).pump p)

/-- Take the first record of a kind out of a port's inbox. -/
def State.takeRecord (s : State) (p kind : Nat) : Option (List Byte × State) :=
  let box := (s.port p).inbox
  match box.find? (fun r => leAt r 0 1 == kind), box.findIdx? (fun r => leAt r 0 1 == kind) with
  | some r, some i => some (r, s.modPort p (fun x => { x with inbox := x.inbox.eraseIdx i }))
  | _, _ => none

/-- NAK: the sender resends from the named SEQ, in order (R432). -/
def execNak (t p : Nat) (s : State) : Result :=
  let s := s.at t
  match s.takeRecord p 2 with
  | none => .next s
  | some (r, s) =>
    let seq := leAt r 2 2 % 4096
    .next (s.modPort p (fun x =>
      let i := (x.replay.findIdx? (fun f => f.seq == seq)).getD x.replay.length
      let rest := x.replay.drop i
      { x with replay := rest, resent := x.resent + rest.length
               nakRun := if x.nakSeq = seq ∧ x.nakRun ≠ 0 then x.nakRun + 1 else 1, nakSeq := seq }))

/-- CREDIT_RETURN: flit credits of a channel come back (R433, R434). -/
def execCreditReturn (t p : Nat) (s : State) : Result :=
  let s := s.at t
  match s.takeRecord p 1 with
  | none => .next s
  | some (r, s) =>
    .next ((s.modPort p (fun x => { x with credits := tmod x.credits (leAt r 1 1 % 4) 0 (· + leAt r 2 2) })).pump p)

/-- FAULT_NOTICE: the twin reports a module fault (R434, R448). -/
def execFaultNotice (t p : Nat) (s : State) : Result :=
  let s := s.at t
  match s.takeRecord p 4 with
  | none => .next s
  | some (r, s) => if isBinary p then .next { s with pair := { s.pair with notice := some (leAt r 1 1) } } else .next s

/-! ### Links -/

/-- Both binary ports are down: the lantern state counts as present (R436, R448). -/
def State.binaryDown (s : State) : Bool :=
  [10, 11].all (fun p => (s.port p).state == .down || (s.port p).state == .training)

/-- MIRROR_LAPSED when the binary link goes down with records that the twin has not acknowledged (R405). -/
def State.mirrorLapsed (s : State) : State :=
  let n := (s.packets.live.filter (fun p => bitAt p.2.hdr.flags 2 && !p.2.mirrored && p.2.phase != .answered)).length
  if n = 0 then s else s.raiseM 0x0503 (le 4 n)

/-- A link of a port goes down and retrains; a binary port's SPDM sessions end, and it carries VC0 only until it authenticates again (R432,
R439). -/
def State.linkDown (s : State) (p : Nat) : State :=
  let was := s.binaryDown
  let s := s.modPort p (fun x =>
    { x with state := .training, downCnt := satAdd 16 x.downCnt 1, nakRun := 0, credits := [], assembling := []
             secured := false, control := [], inbox := [] })
  let s := if isBinary p then { s with manage := { s.manage with sessions := terase s.manage.sessions (p - 8) } } else s
  let s := if p = 10 ∧ s.fabric.mirrorPort = 10 then { s with fabric := { s.fabric with mirrorPort := 11 } } else s
  if isBinary p ∧ !was ∧ s.binaryDown then
    ({ s with pair := { s.pair with auth := false } } : State).mirrorLapsed
  else s

/-- FABRIC_PORT_DOWN: 8 NAKs in a row for one SEQ, or 10 µs without a frame (`silent`); or a retraining failed, and
after the third the link stays down (R432, R515). -/
def execFabricPortDown (t p : Nat) (silent retrainFailed : Bool) (s : State) : Result :=
  let s := s.at t
  let x := s.port p
  if 12 ≤ p then .next s
  else if x.state = .training ∧ retrainFailed then
    let n := x.retrainFails + 1
    .next (s.modPort p (fun x => { x with retrainFails := n, state := if 3 ≤ n then .down else .training }))
  else if (x.state = .up ∨ x.state = .lantern) ∧ (silent ∨ 8 ≤ x.nakRun) then .next (s.linkDown p)
  else .next s

/-- A port comes up: 256 credits a channel, and the flits that were not acknowledged go first (R432, R433). -/
def State.linkUp (s : State) (p : Nat) : State :=
  s.modPort p (fun x => { x with state := .up, retrainFails := 0, sinceVc3 := 0
                                 credits := [(0, 256), (1, 256), (2, 256), (3, 256)]
                                 resent := x.resent + x.replay.length })

/-- The unit of a port serves: its unit is not being reset or out of service, and its domain is on (Table Unit 1). -/
def State.portServes (s : State) (p : Nat) : Bool :=
  let st := (s.unit (363 + p)).state
  st != .resetting && st != .outOfService && st != .off && s.powered (if p < 6 then 2 else 3) && s.power.lossDeclared.isNone &&
  !(s.port p).cageRefused

/-- FABRIC_PORT_LINK_UP of a constellation port (R433). -/
def execFabricPortLinkUp (t p : Nat) (s : State) : Result :=
  let s := s.at t
  if 10 ≤ p ∨ (s.port p).state = .up ∨ !s.portServes p then .next s
  else .next ((s.linkUp p).pump p)

/-- PAIR_AUTH_FAIL: the port carries VC0 only until it retrains (R439). -/
def State.authFail (s : State) (p : Nat) : State :=
  (s.modPort p (fun x => { x with secured := false })).raiseM 0x0609 [BitVec.ofNat 8 p]

/-- KEY_UPDATE of a binary port's session keys, due every 2^32 flits (R439). -/
def execKeyUpdate (t p : Nat) (ok : Bool) (s : State) : Result :=
  let s := s.at t
  if !isBinary p ∨ !(s.port p).secured ∨ (s.port p).underKey < 2 ^ 32 then .next s
  else if ok then .next (s.modPort p (fun x => { x with underKey := 0 }))
  else .next (s.authFail p)

/-! ### Routes (R463) -/

/-- Move every flit of a link that is down to the port of its message's destination: whole messages from the last
acknowledged flit, in order (R436 edges). -/
def moveFlits (routes : Tbl Nat) (old : Nat) : List Flit → Nat → List (Nat × Flit)
  | [], _ => []
  | f :: fs, cur =>
    let p := if f.first then tgetD routes (leAt f.bytes 0 1) old else cur
    (p, { f with seq := 0 }) :: moveFlits routes old fs p

/-- Messages in flight on a port that is down go to the new routes. -/
def State.reroute (s : State) (p : Nat) : State :=
  let x := s.port p
  let moved := moveFlits s.const.routes p (x.replay ++ x.queued) p
  let s := s.modPort p (fun x => { x with replay := [], queued := (moved.filter (fun m => m.1 == p)).map (·.2) })
  let s := (moved.filter (fun m => m.1 != p)).foldl (fun s (k, f) =>
    s.modPort k (fun x => { x with queued := x.queued ++ [f] })) s
  (dedupNat (moved.map (·.1))).foldl (fun s k => s.pump k) s

/-- A route table on the wire: 64 output ports, 0xFF for none. -/
def routeBytes (r : Tbl Nat) : List Byte := (List.range 64).map (fun m => BitVec.ofNat 8 (tgetD r m 0xFF))

/-- ROUTE_CHANGED: after link `down` fails, the foreman has computed new routes: it uses them, sends every member its
table on VC0, and notes the members to measure again (R463). Each table is (member, its routes). -/
def execRouteChanged (t down : Nat) (routes : List (Nat × Nat)) (tables : List (Nat × List (Nat × Nat))) (s : State) :
    Result :=
  let s := s.at t
  if s.const.role ≠ .foreman ∨ !s.const.formed ∨ (s.port down).state = .up then .next s
  else
    let new := routes.foldl (fun r (m, p) => tset r m p) ([] : Tbl Nat)
    let changed := s.const.members.filter (fun m => m != s.const.member && tget? new m != tget? s.const.routes m)
    let l := s.lodestar
    let again : List SurveyJob := if changed.isEmpty then [] else [{ own := true, left := changed }]
    let s := { s with const := { s.const with routes := new }, lodestar := { l with surveys := l.surveys ++ again } }
    let s := s.reroute down
    let s := tables.foldl (fun s (m, r) =>
      match tget? new m with
      | some p => s.sendMessage { port := p, vc := 0, dst := m, src := 0, typ := MsgType.routes.code, tag := 0
                                  body := routeBytes (r.foldl (fun r (a, b) => tset r a b) []) }
      | none => s) s
    .next (s.raiseM 0x0705 [BitVec.ofNat 8 changed.length])

/-- ROUTE_TABLE_RECEIVED: a member routes by the table its foreman sent, from the next tick; `deputy` says that the foreman is
its twin (R461 to R463). -/
def execRouteTableReceived (t : Nat) (routes : List (Nat × Nat)) (deputy : Bool) (s : State) : Result :=
  let s := s.at t
  if s.const.role ≠ .hewer then .next s
  else .next { s with const := { s.const with routesNext := some (routes.foldl (fun r (m, p) => tset r m p) []), formed := true
                                              deputy := deputy && s.pair.id.pairId != 0 } }

end Sys2Proof.Machine
end

