-- ==== Sys2Proof/Machine/Media.lean ====
section
/-!
DEFINITION. The NAND media: dies and suspensions, decoding, checkpoints, refresh, garbage collection, retirement and
the capacitor bank (spec/14_flash_media.md, R365 to R397).
-/
namespace Sys2Proof.Machine

/-! ### Geometry (Table Flash 1) -/

/-- Pages per block. -/
def Media.pagesPerBlock (m : Media) : Nat := if m.q246 then 3072 else 1536

/-- Reads per quad before refresh, and days of age before refresh (Table Flash 1, R390). -/
def Media.readLimit (m : Media) : Nat := if m.q246 then 60000 else 200000

/-- See `readLimit`. -/
def Media.ageDays (m : Media) : Nat := if m.q246 then 15 else 45

/-- User capacity in bytes (Table Scope 1). -/
def Media.userBytes (m : Media) : Nat := if m.q246 then 245760000000000 else 122880000000000

/-- A drift, a die of it, and a quad of a die. -/
def Media.drift (m : Media) (c : Nat) : Drift := tgetD m.drifts c {}

/-- See `drift`. -/
def Drift.die (d : Drift) (i : Nat) : Die := tgetD d.dies i {}

/-- The key of a quad: die and block. -/
def quadKey (die block : Nat) : Nat := die * 2048 + block

/-- See `drift`. -/
def Drift.quad (d : Drift) (die block : Nat) : Quad := tgetD d.quads (quadKey die block) {}

/-- Change a drift. -/
def State.modDrift (s : State) (c : Nat) (f : Drift → Drift) : State :=
  { s with media := { s.media with drifts := tset s.media.drifts c (f (s.media.drift c)) } }

/-- Change a die. -/
def State.modDie (s : State) (c i : Nat) (f : Die → Die) : State :=
  s.modDrift c (fun d => { d with dies := tset d.dies i (f (d.die i)) })

/-- Change a quad. -/
def State.modQuad (s : State) (c i b : Nat) (f : Quad → Quad) : State :=
  s.modDrift c (fun d => { d with quads := tset d.quads (quadKey i b) (f (d.quad i b)) })

/-- A locator of kind 0x2 (Table Packet 9; R366 for the block field). -/
def tierFLocator (drift die plane block page sector : Nat) : Nat :=
  2 <<< 60 + (drift % 64) <<< 48 + (die % 256) <<< 40 + ((plane * 1360 + block) % 2 ^ 20) <<< 20 +
    (page % 2 ^ 16) <<< 4 + sector % 4

/-! ### Operations on a die (R377 to R379) -/

/-- GC_THROTTLE at most once per drift per second, when a die of it falls to 2 erased quads (R391). -/
def State.throttle (s : State) (c i : Nat) : State :=
  let d := s.media.drift c
  let n := (d.die i).erased
  if 2 < n then s
  else
    let s := s.modDrift c (fun d => { d with waiting := true })
    if d.gcThrottleAt.elim true (fun x => decide (x + 1000000000 ≤ s.now)) then
      (s.modDrift c (fun d => { d with gcThrottleAt := some s.now })).raiseM 0x030A
        [BitVec.ofNat 8 c, BitVec.ofNat 8 n]
    else s

/-- NAND_OPERATION_START on a die: nothing runs on it, no frame-critical slot is pending, and it has held at most 4 a
millisecond over the last 64 ms; a program of data goes only to a quad the last checkpoint lists (R379, R383). -/
def execNandOperationStart (t drift die block : Nat) (erase data : Bool) (planned : Nat) (s : State) : Result :=
  let s := s.at t
  let x := (s.media.drift drift).die die
  let recent := x.slotTimes.filter (fun y => decide (s.now < y + 64000000))
  let listed := x.openQuads.any (fun p => p.1 == block) || x.nextQuads.contains block
  if x.op.isSome ∨ x.critical ≠ 0 ∨ 256 < recent.length ∨ (!erase ∧ data ∧ !listed) ∨ drift ≥ 64 ∨ die ≥ 16 then .next s
  else
    let opens := !erase && !((s.media.drift drift).quad die block).opened
    let s := s.modDie drift die (fun x =>
      { x with op := some (if erase then .erase else .program), endNs := planned, suspensions := 0, suspended := false
               limited := false, slotTimes := recent, opBlock := block
               erased := if opens then x.erased - 1 else x.erased })
    if opens then .next ((s.modQuad drift die block (fun q => { q with opened := true })).throttle drift die)
    else .next s

/-- The suspension limit of an operation (R377). -/
def DieOp.limit : DieOp → Nat
  | .program => 8
  | .erase => 16

/-- NAND_SUSPEND: frame-critical slots need the die. They form one suspension; an operation at its limit runs to
completion and raises SUSPEND_LIMIT (R377, R378). -/
def execNandSuspend (t drift die slots : Nat) (s : State) : Result :=
  let s := s.at t
  let x := (s.media.drift drift).die die
  let s := s.modDie drift die (fun x =>
    { x with critical := x.critical + slots, slotTimes := x.slotTimes ++ List.replicate slots s.now })
  match x.op with
  | none => .next s
  | some op =>
    if x.suspended ∨ slots = 0 then .next s
    else if x.suspensions < op.limit then
      let s := s.modDie drift die (fun x => { x with suspended := true, suspensions := x.suspensions + 1 })
      let s := s.trace 8 0xFF 0 [BitVec.ofNat 8 drift, BitVec.ofNat 8 die, BitVec.ofNat 8 (match op with | .program => 0 | .erase => 1),
        BitVec.ofNat 8 (x.suspensions + 1)]
      .next (s.modDrift drift (fun d => { d with suspCnt := satAdd 32 d.suspCnt 1 }))
    else if x.limited then .next s
    else
      let s := s.modDie drift die (fun x => { x with limited := true })
      let s := s.modDrift drift (fun d => { d with limitCnt := satAdd 16 d.limitCnt 1 })
      let s := s.trace 8 0xFF 0 [BitVec.ofNat 8 drift, BitVec.ofNat 8 die, BitVec.ofNat 8 (match op with | .program => 0 | .erase => 1),
        BitVec.ofNat 8 x.suspensions, 1]
      .next (s.raiseM 0x0306 ([BitVec.ofNat 8 drift, BitVec.ofNat 8 die,
        BitVec.ofNat 8 (match op with | .program => 0 | .erase => 1)] ++ le 8 x.endNs))

/-- NAND_RESUME: no frame-critical slot is pending on the die any more (R377). -/
def execNandResume (t drift die planned : Nat) (s : State) : Result :=
  let s := s.at t
  let x := (s.media.drift drift).die die
  if x.suspended ∧ x.critical = 0 then
    .next (s.modDie drift die (fun x => { x with suspended := false, endNs := planned }))
  else .next s

/-! ### Retirement and spares (R392 to R394) -/

/-- Spare blocks of the module that are still unused, in percent of the original ones, rounded down (R393). -/
def Media.availableSpare (m : Media) : Nat :=
  let total := 64 * 16 * 4 * 40
  let used := sumNat (m.drifts.map (fun p => sumNat (p.2.spares.map (fun q => 40 - q.2))))
  100 * (total - used) / total

/-- Withdrawn quads. -/
def Media.withdrawn (m : Media) : Nat :=
  sumNat (m.drifts.map (fun p => (p.2.quads.filter (fun q => q.2.withdrawn)).length))

/-- Bytes left as free space beside the user capacity: the quads without spares and without withdrawn ones
(R393, R394; notes/assumptions/10.md). -/
def Media.freeBytes (m : Media) : Nat :=
  (64 * 16 * 1320 - m.withdrawn) * (m.pagesPerBlock * 65536) - m.userBytes

/-- The consequences of spares and withdrawn quads: SPARE_LOW, Critical Warning bits 0 and 2, and write protection with
SPARE_EXHAUSTED (R393, R394). -/
def State.checkSpares (s : State) : State :=
  let m := s.media
  let av := m.availableSpare
  let free := m.freeBytes
  let pct := 100 * free / m.userBytes
  let low := decide (av < 10)
  let s := if decide (m.avSpare < 10) = decide (av < 10) then s else s.platformEvent 14 av
  let s := { s with media := { m with avSpare := av, spareLow := m.spareLow || low
                                      smartBit0 := m.smartBit0 || low
                                      smartBit2 := m.smartBit2 || decide (100 * free < 3 * m.userBytes) } }
  let s := if low ∧ !m.spareLow then s.raiseM 0x0304 [BitVec.ofNat 8 av] else s
  if 100 * free < m.userBytes ∧ !m.wp then
    ({ s with media := { s.media with wp := true } } : State).raiseM 0x0305 [BitVec.ofNat 8 pct]
  else s

/-- Retire a block: a spare of its plane rebuilds the quad, or the quad is withdrawn (R392). -/
def State.retireBlock (s : State) (drift die plane block page : Nat) : State :=
  let k := die * 4 + plane
  let left := tgetD (s.media.drift drift).spares k 40
  let s :=
    if left = 0 then s.modQuad drift die block (fun q => { q with withdrawn := true, valid := 0 })
    else s.modDrift drift (fun d => { d with spares := tset d.spares k (left - 1) })
  let s := s.raiseM 0x0303 (le 8 (tierFLocator drift die plane block page 0) ++ [BitVec.ofNat 8 (left - 1)])
  s.checkSpares

/-! ### Completion -/

/-- NAND_OPERATION_COMPLETE on a die: a program makes the listed buffered sectors durable and uses one SEQ a page; a
failed plane retires its block (R373, R379, R381, R392). -/
def execNandOperationComplete (t drift die pages : Nat) (failed : Option Nat) (programmed : List (Nat × Nat))
    (s : State) : Result :=
  let s := s.at t
  let x := (s.media.drift drift).die die
  match x.op with
  | none => .next s
  | some op =>
    if x.suspended then .next s
    else
      let b := x.opBlock
      let s := s.modDie drift die (fun x => { x with op := none, limited := false, suspensions := 0 })
      let s := match op with
        | .erase =>
          let s := s.modQuad drift die b (fun q =>
            { valid := 0, erases := q.erases + 1, withdrawn := q.withdrawn, writtenNs := s.now })
          s.modDie drift die (fun x => { x with erased := x.erased + 1 })
        | .program =>
          let s := s.modQuad drift die b (fun q => { q with valid := q.valid + pages, writtenNs := s.now })
          { s with media := { s.media with
              seqNo := s.media.seqNo + pages
              buffer := if failed.isSome then s.media.buffer
                else s.media.buffer.filter (fun e => !programmed.contains (e.nsid, e.lba)) } }
      match failed with
      | some plane => .next (s.retireBlock drift die plane b 0)
      | none => .next s

/-- The drift a 16 KiB unit of a namespace lies on (R367). -/
def nsDrift (nsid unit : Nat) : Nat := (unit + nsid) % 64

/-- Bytes of a logical block (Table Host 4). -/
def Namespace.lbaBytes (n : Namespace) : Nat := if n.lbaf < 2 then 4096 else 16384

/-- The sectors of a namespace that a map page of a drift covers: 4,096 of those that lie on the drift (R367, R368). -/
def mapPageSectors (nsid drift page : Nat) : List Nat :=
  (List.range 4096).map (fun i =>
    let k := page * 4096 + i
    4 * (64 * (k / 4) + (drift + 64 - nsid % 64) % 64) + k % 4)

/-- Sectors of a namespace become lost (R368, R375). -/
def Namespace.lose (n : Namespace) (sectors : List Nat) : Namespace :=
  sectors.foldl (fun n sector =>
    let lba := sector / (n.lbaBytes / 4096)
    if lba < n.size then { n with blocks := tset n.blocks lba .lost, durable := tset n.durable lba .lost } else n) n

/-- What a 4 KiB sector that stays uncorrectable does to its owner: a namespace sector is lost, as is every sector that a map page
covers (R371 edges), and an object keeps the sector as unreadable (R375). -/
def State.loseSector (s : State) (o : PageOwner) (loc : Nat) : State :=
  match o with
  | .space nsid sector =>
    { s with link := { s.link with namespaces := tupd s.link.namespaces nsid (fun n =>
        let lba := sector / (n.lbaBytes / 4096)
        { n with blocks := tset n.blocks lba .lost, durable := tset n.durable lba .lost }) } }
  | .mapPage nsid page =>
    { s with link := { s.link with namespaces := tupd s.link.namespaces nsid (fun n => n.lose (mapPageSectors nsid (loc / 2 ^ 48 % 64) page)) } }
  | .lode num lode sector =>
    { s with objects := { s.objects with live := tupd s.objects.live num (fun o =>
        { o with badUnits := (List.range 64).foldl (fun m i => tset m (lode * 1024 + sector * 64 + i) loc) o.badUnits }) } }
  | .own _ => s

/-- The tenant an uncorrectable sector belongs to: the owner, else the module (Table Event 4). -/
def State.pageTenant (s : State) : PageOwner → Nat
  | .space nsid _ => ((tget? s.link.namespaces nsid).bind (·.fn)).getD 0xFF
  | .mapPage nsid _ => ((tget? s.link.namespaces nsid).bind (·.fn)).getD 0xFF
  | .lode num _ _ => (tget? s.objects.live num).elim 0xFF (fun o => handleTenant o.handle)
  | .own _ => 0xFF

/-- OWNER and KIND of a page's tag (Table Flash 3). -/
def pageTag : PageOwner → Nat × Nat
  | .space nsid _ => (nsid, 1)
  | .lode num _ _ => (num % 2 ^ 32, 2)
  | .mapPage nsid _ => (nsid, 3)
  | .own k => (0, k)

/-- NAND_READ_COMPLETE of a 4 KiB sector, decoded at level D0 to D3, or uncorrectable (level 4). A frame-critical slot
is served; a read above D0 is a retry; D2 and above asks for a refresh. An uncorrectable sector raises
MEDIA_UNCORRECTABLE and marks the lode filled from it; `recovered` is the result of the one further attempt (R374, R375, R389, R390). -/
def execNandReadComplete (t drift die plane block page sector level : Nat) (critical patrol recovered : Bool)
    (owner : PageOwner) (s : State) : Result :=
  let s := s.at t
  let s := if critical then s.modDie drift die (fun x => { x with critical := x.critical - 1 }) else s
  let s := s.modQuad drift die block (fun q =>
    { q with reads := q.reads + 1, decodedHigh := q.decodedHigh || decide (2 ≤ level) })
  let s := if 0 < level ∧ level < 4 then s.modDrift drift (fun d => { d with retryCnt := satAdd 32 d.retryCnt 1 }) else s
  let s := if patrol then
      { s with media := { s.media with patrolPages := s.media.patrolPages + 1
                                       patrolHigh := s.media.patrolHigh + (if 0 < level then 1 else 0) } }
    else s
  if level < 4 then .next s
  else
    let loc := tierFLocator drift die plane block page sector
    let s := s.modDrift drift (fun d => { d with ueCnt := satAdd 16 d.ueCnt 1 })
    let (own, kind) := pageTag owner
    let s := s.raise 0x0301 (s.pageTenant owner) (le 8 loc ++ le 4 own ++ [BitVec.ofNat 8 kind])
    let s := match owner with
      | .lode num lode sec =>
        match tget? s.objects.live num with
        | some o =>
          match s.cage.find (o.base + lode) with
          | some h => { s with cage := { s.cage with map := tupd s.cage.map h (fun e =>
              { e with poison := (List.range 64).foldl (fun m i => tset m (sec * 64 + i) loc) e.poison }) } }
          | none => s
        | none => s
      | _ => s
    if recovered then .next s else .next (s.loseSector owner loc)

/-! ### Checkpoints (R382, R383) -/

/-- Begin a checkpoint: its number, and the mark on what it covers. -/
def State.beginCheckpoint (s : State) : State :=
  let mark := fun (n : Namespace) => { n with volatile := n.volatile.map (fun v => { v with marked := true }) }
  { s with media := { s.media with ckptRunning := some (s.media.ckptDone + 1), ckptBegan := s.now
                                   buffer := s.media.buffer.map (fun e => { e with marked := true }) }
           link := { s.link with namespaces := tmapv s.link.namespaces (fun _ n => mark n) } }

/-- CHECKPOINT_BEGIN: every 64 ms of powered time, or at once when a die needs a fifth quad (R382, R383). -/
def execCheckpointBegin (t : Nat) (fifth : Bool) (s : State) : Result :=
  let s := s.at t
  if s.media.ckptRunning.isSome ∨ (!fifth ∧ s.now < s.media.ckptBegan + 64000000) then .next s
  else .next s.beginCheckpoint

/-- Apply one write to a map; `none` removes the entry, which then reads zeros. -/
def applySectors (m : Tbl SectorState) (lba : Nat) : List (Option SectorState) → Tbl SectorState
  | [] => m
  | x :: xs => applySectors (match x with | some v => tset m lba v | none => terase m lba) (lba + 1) xs

/-- What a completed checkpoint makes durable in a namespace: the writes it marked. -/
def Namespace.commitMarked (n : Namespace) : Namespace :=
  { n with durable := (n.volatile.filter (·.marked)).foldl (fun m v => applySectors m v.lba [v.sector]) n.durable
           volatile := n.volatile.filter (fun v => !v.marked) }

/-- A function's Flush waits: its controller is busy from now on (Table Mgmt 9). -/
def State.busyBegin (s : State) (fn : Nat) : State :=
  { s with manage := { s.manage with smart := tmod s.manage.smart fn {} (fun c => { c with busySince := some (c.busySince.getD s.now) }) } }

/-- The last Flush of a function that waits has completed. -/
def State.busyEnd (s : State) (fn : Nat) : State :=
  if s.media.flushes.any (fun f => f.fn == fn) then s
  else { s with manage := { s.manage with smart := tmod s.manage.smart fn {} (fun c =>
      { c with busyNs := c.busyNs + c.busySince.elim 0 (s.now - ·), busySince := none }) } }

/-- Complete every Flush whose checkpoint is done (R129, R382). -/
def State.answerFlushes (s : State) : State :=
  let ready := s.media.flushes.filter (fun f => decide (f.needs ≤ s.media.ckptDone))
  let s := { s with media := { s.media with flushes := s.media.flushes.filter (fun f => decide (s.media.ckptDone < f.needs)) } }
  ready.foldl (fun s f => (s.completeOn f.fn f.sqid f.cid .success 0 0).busyEnd f.fn) s

/-- The checkpoint in progress becomes durable with its commit record. -/
def State.finishCheckpoint (s : State) : State :=
  match s.media.ckptRunning with
  | none => s
  | some n =>
    let s := { s with media := { s.media with ckptRunning := none, ckptDone := n, deltaLog := []
                                              buffer := s.media.buffer.filter (fun e => !(e.marked && e.classJ)) }
                      link := { s.link with namespaces := tmapv s.link.namespaces (fun _ x => x.commitMarked) } }
    s.answerFlushes

/-- CHECKPOINT_COMPLETE, with the open and next quads it lists for each die: at most 2 of each (R382, R383). -/
def execCheckpointComplete (t : Nat) (quads : List (Nat × Nat × List (Nat × Nat) × List Nat)) (s : State) : Result :=
  let s := s.at t
  if s.media.ckptRunning.isNone ∨ quads.any (fun (_, _, o, n) => decide (2 < o.length ∨ 2 < n.length)) then .next s
  else
    let s := quads.foldl (fun s (c, i, o, n) =>
      s.modDie c i (fun x => { x with openQuads := o, nextQuads := n })) s
    .next s.finishCheckpoint

/-! ### Patrol, refresh and garbage collection -/

/-- Nanoseconds of an hour and of a day. -/
def hourNs : Nat := 3600000000000

/-- PATROL_DONE at the end of a period, with the overrun in seconds (R389). -/
def execPatrolDone (t : Nat) (s : State) : Result :=
  let s := s.at t
  let m := s.media
  let due := m.patrolStart + m.patrolHours * hourNs
  if s.now < due then .next s
  else
    let s := { s with media := { m with patrolStart := s.now, patrolPages := 0, patrolHigh := 0 } }
    .next (s.raiseM 0x0308 (le 8 m.patrolPages ++ le 8 m.patrolHigh ++ le 4 ((s.now - due) / 1000000000)))

/-- Move a quad's valid pages to an open quad and erase it (R390, R391). -/
def State.moveQuad (s : State) (drift die block dest : Nat) : State :=
  let n := ((s.media.drift drift).quad die block).valid
  let s := s.modQuad drift die dest (fun q => { q with valid := q.valid + n, opened := true, writtenNs := s.now })
  let s := s.modQuad drift die block (fun q =>
    { valid := 0, erases := q.erases + 1, withdrawn := q.withdrawn, writtenNs := s.now })
  let s := s.modDie drift die (fun x => { x with erased := x.erased + 1 })
  { s with media := { s.media with seqNo := s.media.seqNo + n } }

/-- REFRESH of a quad for a cause of R390 that holds; `again` names a plane whose page failed at D3 a second time, which
retires its block (R392). -/
def execRefresh (t drift die block dest cause : Nat) (again : Option Nat) (s : State) : Result :=
  let s := s.at t
  let q := (s.media.drift drift).quad die block
  let due := match cause with
    | 0 => q.decodedHigh
    | 1 => decide (s.media.readLimit ≤ q.reads)
    | 2 => decide (q.writtenNs + s.media.ageDays * 24 * hourNs < s.now)
    | _ => false
  if !due ∨ dest = block then .next s
  else
    let s := s.moveQuad drift die block dest
    let s := s.raiseM 0x0302 (le 8 (tierFLocator drift die 0 block 0 0) ++ [BitVec.ofNat 8 cause])
    match again with
    | some plane => .next (s.retireBlock drift die plane block 0)
    | none => .next s

/-- The victim of garbage collection on a die: the written quad with the fewest valid pages, then the fewest erases. -/
def Drift.victim (d : Drift) (die dest : Nat) : Option Nat :=
  let cand := (d.quads.filter (fun p => decide (p.1 / 2048 = die ∧ p.1 % 2048 ≠ dest) && p.2.opened && !p.2.withdrawn &&
    !((d.die die).openQuads.any (fun o => o.1 == p.1 % 2048))))
  ((sortBy (fun a b => decide (a.2.valid < b.2.valid ∨ (a.2.valid = b.2.valid ∧ a.2.erases < b.2.erases))) cand).head?).map
    (fun p => p.1 % 2048)

/-- GARBAGE_COLLECTION on a die: the victim's pages move and it is erased; with 3 erased quads on every die again, the
writes that waited go on (R391). -/
def execGarbageCollection (t drift die dest : Nat) (s : State) : Result :=
  let s := s.at t
  match (s.media.drift drift).victim die dest with
  | none => .next s
  | some b =>
    let s := s.moveQuad drift die b dest
    .next (s.modDrift drift (fun d => { d with waiting := d.waiting && d.dies.any (fun p => decide (p.2.erased < 3)) }))

/-! ### The capacitor bank (R130, R387, R388) -/

/-- A cause of R388: hold-up is degraded from the next tick. -/
def State.degrade (s : State) (cond : Nat) : State :=
  if s.media.holdupDegr then { s with media := { s.media with restorePending := none } }
  else { s with media := { s.media with degrPending := s.media.degrPending.or (some (cond, s.meridian.frame)) } }

/-- CAP_TEST: the result of a test, with HEALTH, capacitance in mF and series resistance in µΩ (R388). The first one of a
power-up is stage 6a of start-up, which ends with it whatever it found (R387, R533). -/
def execCapTest (t : Nat) (completed : Bool) (health capMf resUohm : Nat) (s : State) : Result :=
  let s := s.at t
  let warn := completed && decide (100 ≤ health ∧ health ≤ 119)
  let first := s.startup.ended.contains .tierH && !s.startup.ended.contains .holdup
  let level := fun (h : Nat) => if h < 100 then 2 else if h < 120 then 1 else 0
  let s := if level s.media.healthPct = level health then s else s.platformEvent 13 health
  let s := { s with media := { s.media with healthPct := health, capTestAt := some s.now }
                    startup := { s.startup with ended := if first then s.startup.ended ++ [Stage.holdup] else s.startup.ended } }
  let s := s.raiseM 0x0803 ([BitVec.ofNat 8 (min health 255), BitVec.ofNat 8 (bit warn)] ++ le 4 capMf ++ le 4 resUohm)
  if !completed then .next (s.degrade 0)
  else if health < 100 then .next (s.degrade 1)
  else if s.media.holdupDegr then
    .next { s with media := { s.media with restorePending := some s.meridian.frame } }
  else .next { s with media := { s.media with degrPending := none } }

/-- HOLDUP_DEGRADED at the first tick of the degraded state: the event, and with MEDIA_STATUS.HOLDUP_DEGR Critical Warning
bit 4 and class A writes handled as FUA (R130); a test of start-up degrades from the first tick after stage 7. -/
def execHoldupDegraded (t : Nat) (s : State) : Result :=
  let s := s.at t
  match s.media.degrPending with
  | some (c, f) =>
    if s.meridian.frame ≤ f ∨ !s.startup.ended.contains .ready then .next s
    else
      let s := { s with media := { s.media with holdupDegr := true, degrPending := none } }
      .next (s.raiseM 0x0801 [BitVec.ofNat 8 (min s.media.healthPct 255), BitVec.ofNat 8 c])
  | none => .next s

/-- HOLDUP_RESTORED at the tick after a test that passed (R130, R388). -/
def execHoldupRestored (t : Nat) (s : State) : Result :=
  let s := s.at t
  match s.media.restorePending with
  | some f =>
    if s.meridian.frame ≤ f then .next s
    else
      let s := { s with media := { s.media with holdupDegr := false, restorePending := none } }
      .next (s.raiseM 0x0802 [BitVec.ofNat 8 (min s.media.healthPct 255)])
  | none => .next s

/-- BANK_VOLTAGE_LOW: the bank has been below its charge threshold for `lowNs` with input power present (R388). -/
def execBankVoltageLow (t lowNs : Nat) (s : State) : Result :=
  let s := s.at t
  if 100000000 < lowNs ∧ s.power.lossDeclared.isNone ∧ !s.power.off then .next (s.degrade 2) else .next s

end Sys2Proof.Machine
end

