-- ==== Sys2Proof/Machine/Namespaces.lean ====
section
/-!
DEFINITION. Namespaces: reads, writes, Write Zeroes, deallocation and Flush, with protection information, durability,
pair namespaces and the marks of solo mode (spec/05_host_link.md, R119 to R133; spec/14_flash_media.md, R381, R394 to
R396; spec/16_pairs_and_constellations.md, R443, R444, R451).
-/
namespace Sys2Proof.Machine

/-! ### Protection information (R122) -/

/-- A format with 16 bytes of metadata (Table Host 4). -/
def Namespace.hasMd (n : Namespace) : Bool := n.lbaf == 1 || n.lbaf == 3

/-- Bytes of one logical block with its metadata. -/
def Namespace.fullBytes (n : Namespace) : Nat := n.lbaBytes + (if n.hasMd then 16 else 0)

/-- A number as bytes, most significant first: the fields of the protection information. -/
def bigEndian (k v : Nat) : List Byte := (le k v).reverse

/-- The number that bytes stand for, most significant first. -/
def fromBig (d : List Byte) : Nat := fromLe d.reverse

/-- The metadata that the module generates: Guard, Application Tag and Reference Tag (64b Guard format). -/
def piOf (data : List Byte) (app refTag : Nat) : List Byte :=
  bigEndian 8 (crc64 data) ++ bigEndian 2 app ++ bigEndian 6 refTag

/-- The check of one block's metadata that PRCHK asks for: bits 2 Guard, 1 Application Tag, 0 Reference Tag. A Type 1
block with Application Tag 0xFFFF, and a Type 3 block whose Reference Tag is all ones as well, is not checked. -/
def piCheck (pi prchk : Nat) (data md : List Byte) (app appMask refTag : Nat) : Option NvmeStatus :=
  let a := fromBig ((md.drop 8).take 2)
  let r := fromBig ((md.drop 10).take 6)
  let off := a == 0xFFFF && (pi == 1 || r == 2 ^ 48 - 1)
  if pi = 0 ∨ off then none
  else if bitAt prchk 2 ∧ fromBig (md.take 8) ≠ crc64 data then some .guardCheck
  else if bitAt prchk 1 ∧ a &&& appMask ≠ app &&& appMask then some .appTagCheck
  else if bitAt prchk 0 ∧ pi = 1 ∧ r % 2 ^ 32 ≠ refTag % 2 ^ 32 then some .refTagCheck
  else none

/-! ### The map of a namespace -/

/-- Change blocks; the cut rises (R414). A change that is durable at once replaces what was waiting for its blocks. -/
def Namespace.change (n : Namespace) (lba : Nat) (sectors : List (Option SectorState)) (durableNow : Bool) : Namespace :=
  let hi := lba + sectors.length
  let out := fun (v : VolatileWrite) => decide (v.lba < lba ∨ hi ≤ v.lba)
  let n := { n with blocks := applySectors n.blocks lba sectors, cut := n.cut + 1 }
  if durableNow then { n with durable := applySectors n.durable lba sectors, volatile := n.volatile.filter out }
  else { n with volatile := n.volatile ++ (sectors.zipIdx).map (fun (x, i) => { lba := lba + i, sector := x }) }

/-- A write without FUA is durable when its CQE is posted in class A; class J waits for a checkpoint (Table Host 6). -/
def Namespace.durableAt (n : Namespace) (fua : Bool) : Bool := !n.classJ || fua

/-- A 1 GiB region of a pair namespace (R451). -/
def regionKey (nsid byte : Nat) : Nat := nsid * 2 ^ 32 + byte / 2 ^ 30

/-- Add keys to a list without repeats. -/
def addKeys (l ks : List Nat) : List Nat := ks.foldl (fun l k => if l.contains k then l else l ++ [k]) l

/-- In SOLO the regions a command touches are marked before it is applied (R451). -/
def State.markRegions (s : State) (n : Namespace) (lba count : Nat) : State :=
  if !n.pair ∨ s.pair.state ≠ .solo ∨ count = 0 then s
  else
    let b := n.lbaBytes
    let ks := (List.range ((lba + count) * b / 2 ^ 30 - lba * b / 2 ^ 30 + 1)).map
      (fun i => regionKey n.nsid (lba * b) + i)
    { s with pair := { s.pair with dirty := addKeys s.pair.dirty ks } }

/-- Pages of 16 KiB that a change of `k` blocks programs. -/
def Namespace.pages (n : Namespace) (k : Nat) : Nat := (k * n.lbaBytes + 16383) / 16384

/-- Apply a change to a namespace: the map, the write buffer or the pages programmed, and the A delta log
(R128, R373, R381). -/
def State.changeSpace (s : State) (nsid lba : Nat) (sectors : List (Option SectorState)) (fua data : Bool) : State :=
  match tget? s.link.namespaces nsid with
  | none => s
  | some n =>
    let s := s.markRegions n lba sectors.length
    let now := n.durableAt fua
    let onNand := fua || (!n.classJ && s.media.holdupDegr)
    let keys := (List.range sectors.length).map (fun i => (nsid, lba + i))
    let m := s.media
    let m := if data then
        if onNand then { m with seqNo := m.seqNo + n.pages sectors.length }
        else { m with buffer := m.buffer ++ keys.map (fun (a, b) =>
          { nsid := a, lba := b, classJ := n.classJ, bytes := n.fullBytes, old := tget? n.blocks b }) }
      else m
    let m := if n.classJ then m else { m with deltaLog := m.deltaLog ++ keys }
    { s with media := m, link := { s.link with namespaces := tset s.link.namespaces nsid (n.change lba sectors now) } }

/-! ### Commands -/

/-- Pair namespaces of a twin are served: Table Host 5. -/
def State.anaOptimized (s : State) : Bool :=
  match s.pair.state with
  | .paired => true
  | .solo => true
  | .resync => s.pair.isSource
  | _ => false

/-- The twin takes part in every command to a pair namespace (R444). -/
def State.mirrors (s : State) : Bool := s.pair.state == .paired || s.pair.state == .resync

/-- The first LBA and the number of blocks of a read or write command. -/
def slbaOf (q : Sqe) : Nat := q.d10.toNat + q.d11.toNat * 2 ^ 32

/-- See `slbaOf`. -/
def nlbOf (q : Sqe) : Nat := dwField q.d12 0 16 + 1

/-- Feature 06h and FUA make a class J write durable at its CQE, hold-up degradation a class A one (R128, R130). -/
def State.fuaOf (s : State) (q : Sqe) (n : Namespace) : Bool :=
  bitAt q.d12.toNat 30 || (if n.classJ then !(s.ctrl q.fn).wce else s.media.holdupDegr)

/-- A command to a namespace attached to its function; a pair namespace answers by its ANA state (R124). -/
def State.nvm (s : State) (q : Sqe) (k : State → Namespace → State) : State :=
  s.command q false (fun s =>
    match tget? s.link.namespaces q.nsid with
    | none => s.complete q .invalidNamespace
    | some n =>
      if n.fn ≠ some q.fn then s.complete q .invalidField
      else if n.pair ∧ !s.anaOptimized then s.complete q .anaInaccessible
      else k s n)

/-- Add to the SMART counts of a function (Table Mgmt 9): units of 1,000 times 512 bytes. -/
def State.smart (s : State) (fn : Nat) (f : SmartCounts → SmartCounts) : State :=
  { s with manage := { s.manage with smart := tmod s.manage.smart fn {} f } }

/-- Count a read. -/
def SmartCounts.read (c : SmartCounts) (bytes : Nat) : SmartCounts :=
  let b := c.readBytes + bytes
  { c with reads := c.reads + 1, readBytes := b % 512000, unitsRead := c.unitsRead + b / 512000 }

/-- Count a write. -/
def SmartCounts.write (c : SmartCounts) (bytes : Nat) : SmartCounts :=
  let b := c.writtenBytes + bytes
  { c with writes := c.writes + 1, writtenBytes := b % 512000, unitsWritten := c.unitsWritten + b / 512000 }

/-- MDTS (Table Host 3). -/
def mdtsBytes : Nat := 2097152

/-- What a block reads as: data and metadata; none where its sector is lost (R132, R368, R386). -/
def Namespace.readBlock (n : Namespace) (lba : Nat) : Option (List Byte × List Byte) :=
  let md := if n.hasMd then List.replicate 16 (0xFF : Byte) else []
  match tget? n.blocks lba with
  | none => some (List.replicate n.lbaBytes 0, md)
  | some (.data d m) => some (padTo n.lbaBytes d, if n.hasMd then padTo 16 m else [])
  | some .lost => none

/-- NVM_READ (R122, R124, R126, R375, R420): the data of every block with its metadata, after the checks PRCHK asks for;
with PRACT set the metadata is not sent. A lost block ends the command with Unrecovered Read Error, and the module sends
the other blocks or nothing as it chooses. -/
def execNvmRead (q : Sqe) (s : State) : Result :=
  .next (s.nvm q (fun s n =>
    let k := nlbOf q
    let prinfo := dwField q.d12 26 4
    if mdtsBytes < k * n.lbaBytes then s.complete q .invalidField
    else if n.size < slbaOf q + k then s.complete q .lbaOutOfRange
    else
      let blocks := (List.range k).map (fun i => n.readBlock (slbaOf q + i))
      let send := fun (b : List Byte × List Byte) => if bitAt prinfo 3 then b.1 else b.1 ++ b.2
      if blocks.any (·.isNone) then
        let all := Config.freeChoice s.free
        let s := { s with free := s.free + 1 }
        let size := if bitAt prinfo 3 then n.lbaBytes else n.fullBytes
        let s := if all then (blocks.zipIdx).foldl (fun s (b, i) =>
            match b with
            | some b => { s with link := { s.link with mem := writeRuns s.link.mem (skipRuns q.buf (i * size)) (send b) } }
            | none => s) s
          else s
        (s.smart q.fn (fun c => { c with mediaErrors := c.mediaErrors + 1 })).complete q .unrecoveredRead
      else
        let bs := blocks.filterMap id
        let bad := (bs.zipIdx).findSome? (fun (b, i) =>
          if n.hasMd then piCheck n.pi (prinfo % 8) b.1 b.2 (dwField q.d15 0 16) (dwField q.d15 16 16)
            (q.d14.toNat + i) else none)
        match bad with
        | some st => s.complete q st
        | none =>
          ((s.toHost q (bs.flatMap send)).smart q.fn (fun c => c.read (k * n.lbaBytes))).complete q .success))
where
  /-- The runs of a data pointer from an offset on. -/
  skipRuns : List (Nat × Nat) → Nat → List (Nat × Nat)
    | [], _ => []
    | (a, n) :: rs, o => if n ≤ o then skipRuns rs (o - n) else (a + o, n - o) :: rs

/-- Bytes of a class that wait in the write buffer (R381). -/
def Media.buffered (m : Media) (classJ : Bool) : Nat :=
  sumNat ((m.buffer.filter (fun e => e.classJ == classJ)).map (·.bytes))

/-- The write buffer has room: 16 MiB for class A, 8 MiB for class J. -/
def Media.hasRoom (m : Media) (classJ : Bool) (bytes : Nat) : Bool :=
  decide (m.buffered classJ + bytes ≤ if classJ then 8388608 else 16777216)

/-- A drift that a write touches waits for garbage collection (R391). -/
def State.driftWaits (s : State) (n : Namespace) (lba k : Nat) : Bool :=
  let u0 := lba * n.lbaBytes / 16384
  let u1 := ((lba + k) * n.lbaBytes - 1) / 16384
  (List.range (min (u1 - u0 + 1) 64)).any (fun i => (s.media.drift (nsDrift n.nsid (u0 + i))).waiting)

/-- A change to a pair namespace waits until the twin has acknowledged it, and side B until it has a pair sequence
number (R443, R444, R449). -/
def State.pairReady (s : State) (n : Namespace) (ack : Bool) (seq : Option Nat) : Bool :=
  !n.pair || !s.mirrors || (s.binaryLive && ack && (!s.pair.id.side || seq.isSome))

/-- Give a change to a pair namespace its pair sequence number and send it to the twin (R443, R444). -/
def State.pairChange (s : State) (n : Namespace) (lba count : Nat) (seq : Option Nat) (body : List Byte) : State :=
  if !n.pair ∨ !s.mirrors then s
  else
    let num := if s.pair.id.side then seq.getD 0 else s.pair.nextSeq
    let s := { s with pair := { s.pair with
      nextSeq := if s.pair.id.side then s.pair.nextSeq else s.pair.nextSeq + 1
      applied := (List.range count).foldl (fun m i => tset m (n.nsid * 2 ^ 48 + lba + i) num) s.pair.applied } }
    s.toTwin 1 .mirrorWrite num (le 4 n.nsid ++ le 8 lba ++ body)

/-- The cut of a pair namespace is the pair sequence number last applied (R444). -/
def State.pairCut (s : State) (n : Namespace) (seq : Option Nat) : State :=
  if !n.pair ∨ !s.mirrors then s
  else
    let num := if s.pair.id.side then seq.getD 0 else s.pair.nextSeq - 1
    { s with link := { s.link with namespaces := tupd s.link.namespaces n.nsid (fun n => { n with cut := num }) } }

/-- NVM_WRITE (R122, R126, R128, R130, R381, R394, R443, R444): the data with its metadata, or with metadata the module
generates where PRACT is set. While its buffer share is full, its drift throttled or the twin has not acknowledged, it
waits: the command changes nothing and is presented again. -/
def execNvmWrite (q : Sqe) (ack : Bool) (seq : Option Nat) (s : State) : Result :=
  .next (s.nvm q (fun s n =>
    let k := nlbOf q
    let prinfo := dwField q.d12 26 4
    let gen := n.hasMd && bitAt prinfo 3 && n.pi != 0
    let size := if gen then n.lbaBytes else n.fullBytes
    if mdtsBytes < k * n.lbaBytes then s.complete q .invalidField
    else if n.size < slbaOf q + k then s.complete q .lbaOutOfRange
    else if s.media.wp then s.complete q .writeProtected
    else
      let app := dwField q.d15 0 16
      let blocks := (List.range k).map (fun i =>
        let d := sliceBytes q.data (i * size) n.lbaBytes
        let md := if gen then piOf d app (q.d14.toNat + i)
          else if n.hasMd then sliceBytes q.data (i * size + n.lbaBytes) 16 else []
        (d, md))
      let bad := if gen then none else (blocks.zipIdx).findSome? (fun (b, i) =>
        if n.hasMd then piCheck n.pi (prinfo % 8) b.1 b.2 app (dwField q.d15 16 16) (q.d14.toNat + i) else none)
      let fua := s.fuaOf q n
      match bad with
      | some st => s.complete q st
      | none =>
        if s.driftWaits n (slbaOf q) k ∨ !s.pairReady n ack seq ∨ (!fua ∧ !s.media.hasRoom n.classJ (k * n.fullBytes)) then s
        else
          let s := s.pairChange n (slbaOf q) k seq (blocks.flatMap (fun b => b.1 ++ b.2))
          let s := s.changeSpace q.nsid (slbaOf q) (blocks.map (fun b => some (.data b.1 b.2))) fua true
          ((s.pairCut n seq).smart q.fn (fun c => c.write (k * n.lbaBytes))).complete q .success))

/-- WRITE_ZEROES (R133, R396): zeros by map without metadata; with it, pages of zeros with the Guard over zeros, an
Application Tag of 0 and the Reference Tag of the command. -/
def execWriteZeroes (q : Sqe) (ack : Bool) (seq : Option Nat) (s : State) : Result :=
  .next (s.nvm q (fun s n =>
    let k := nlbOf q
    if n.size < slbaOf q + k then s.complete q .lbaOutOfRange
    else if s.media.wp then s.complete q .writeProtected
    else
      let fua := s.fuaOf q n
      if s.driftWaits n (slbaOf q) k ∨ !s.pairReady n ack seq ∨
          (n.hasMd ∧ !fua ∧ !s.media.hasRoom n.classJ (k * n.fullBytes)) then s
      else
        let z := List.replicate n.lbaBytes (0 : Byte)
        let sectors := (List.range k).map (fun i =>
          if n.hasMd then some (SectorState.data z (if n.pi = 0 then List.replicate 16 0 else piOf z 0 (q.d14.toNat + i)))
          else none)
        let s := s.pairChange n (slbaOf q) k seq []
        (((s.changeSpace q.nsid (slbaOf q) sectors fua n.hasMd).pairCut n seq)).complete q .success))

/-- What deallocation leaves of one block: a lost block becomes zero, any other keeps its data or becomes zero as the
module chooses (R131, R386, R395). -/
def State.deallocBlock (s : State) (nsid lba : Nat) : State :=
  match (tget? s.link.namespaces nsid).bind (fun n => tget? n.blocks lba) with
  | none => s
  | some x =>
    let zero := x == .lost || Config.freeChoice s.free
    let s := { s with free := s.free + 1 }
    if zero then
      let f := fun (n : Namespace) =>
        { n with blocks := terase n.blocks lba, cut := n.cut + 1
                 volatile := n.volatile ++ [{ lba := lba, sector := none }] }
      { s with link := { s.link with namespaces := tupd s.link.namespaces nsid f }
               media := { s.media with deltaLog := s.media.deltaLog ++ [(nsid, lba)] } }
    else s

/-- The ranges of a Dataset Management command (16 bytes each): (first LBA, blocks). -/
def dsmRanges (q : Sqe) : List (Nat × Nat) :=
  (List.range (dwField q.d10 0 8 + 1)).map (fun i => (leAt q.data (16 * i + 8) 8, leAt q.data (16 * i + 4) 4))

/-- DATASET_MANAGEMENT_DEALLOCATE: a hint, on both twins of a pair namespace (R131, R394, R395). -/
def execDatasetManagementDeallocate (q : Sqe) (ack : Bool) (seq : Option Nat) (s : State) : Result :=
  .next (s.nvm q (fun s n =>
    let rs := dsmRanges q
    if !bitAt q.d11.toNat 2 then s.complete q .success
    else if rs.any (fun r => decide (n.size < r.1 + r.2)) then s.complete q .lbaOutOfRange
    else if s.media.wp then s.complete q .writeProtected
    else if !s.pairReady n ack seq then s
    else
      let s := rs.foldl (fun s r => s.markRegions n r.1 r.2) s
      let s := s.pairChange n 0 0 seq (rs.flatMap (fun r => le 8 r.1 ++ le 4 r.2))
      let s := rs.foldl (fun s r => ((List.range r.2).map (r.1 + ·)).foldl (fun s l => s.deallocBlock q.nsid l) s) s
      (s.pairCut n seq).complete q .success))

/-- FLUSH of one namespace, or of every namespace attached to the function: a class J namespace waits for the first
checkpoint that begins from now on; with none in progress it begins at once (R129, R382, R444). -/
def execFlush (q : Sqe) (ack : Bool) (s : State) : Result :=
  .next (s.command q false (fun s =>
    let mine := (s.link.namespaces.map (·.2)).filter (fun n => n.fn == some q.fn)
    let named := if q.nsid = 0xFFFFFFFF then mine else mine.filter (fun n => n.nsid == q.nsid)
    if named.isEmpty ∧ q.nsid ≠ 0xFFFFFFFF then
      s.complete q (if (tget? s.link.namespaces q.nsid).isNone then .invalidNamespace else .invalidField)
    else if named.any (·.pair) ∧ q.nsid ≠ 0xFFFFFFFF ∧ !s.anaOptimized then s.complete q .anaInaccessible
    else if named.any (·.pair) ∧ s.mirrors ∧ !(s.binaryLive && ack) then s
    else if named.any (·.classJ) then
      let (s, needs) := match s.media.ckptRunning with
        | some c => (s, c + 1)
        | none => let s := s.beginCheckpoint; (s, s.media.ckptDone + 1)
      ({ s with media := { s.media with flushes := s.media.flushes ++
          [{ fn := q.fn, sqid := q.sqid, cid := q.cid, nsids := named.map (·.nsid), needs := needs }] } } : State).busyBegin q.fn
    else s.complete q .success))

end Sys2Proof.Machine
end

