-- ==== Sys2Proof/Machine/Pair.lean ====
section
/-!
DEFINITION. The binary pair: detection, authentication, pair states, mirroring, solo mode, split, rejoin, resync and
takeover, and the PAIR CONTROL commands (spec/16_pairs_and_constellations.md, R437 to R466).
-/
namespace Sys2Proof.Machine

/-- The code of a pair state (Table Pair 5). -/
def PairState.code : PairState → Nat
  | .unpaired => 0 | .paired => 1 | .solo => 2 | .fenced => 3 | .split => 4 | .resync => 5 | .conflict => 6
  | .waiting => 7

/-- The module holds solo changes (R451). -/
def Pair.solo (p : Pair) : Bool := !p.sanitized && (!p.dirty.isEmpty || !p.changed.isEmpty || !p.deleted.isEmpty)

/-- A module has a pair identity (R437). -/
def Pair.has (p : Pair) : Bool := p.id.pairId != 0

/-- Pair namespaces of the module. -/
def State.pairSpaces (s : State) : List Namespace := (s.link.namespaces.map (·.2)).filter (·.pair)

/-- Every region of every pair namespace. -/
def State.allRegions (s : State) : List Nat :=
  s.pairSpaces.flatMap (fun n =>
    (List.range (ceilDiv (n.size * n.lbaBytes) (2 ^ 30))).map (fun i => n.nsid * 2 ^ 32 + i))

/-- A Notice or other standard asynchronous event, where a request is outstanding (R640). -/
def State.notice (s : State) (fn dw0 : Nat) : State :=
  let c := s.ctrl fn
  match c.aers with
  | (sq, cid) :: rest => (s.setCtrl fn { c with aers := rest }).completeOn fn sq cid .success dw0 0
  | [] => s

/-- An ANA change notice on every function with a pair namespace, and a new ANA change count (R123). -/
def State.anaNotice (s : State) : State :=
  let s := { s with link := { s.link with anaCount := s.link.anaCount + 1 } }
  (dedupNat (s.pairSpaces.filterMap (·.fn))).foldl (fun s fn => s.notice fn 0x000C0302) s

/-- Change the pair state; a change of the ANA state is announced (R123, R447). -/
def State.setPair (s : State) (st : PairState) (source : Bool := false) : State :=
  let before := s.anaOptimized
  let s := if s.pair.state = st then s
    else (s.platformEvent 16 st.code).trace 0xB 0xFF 0 [BitVec.ofNat 8 s.pair.state.code, BitVec.ofNat 8 st.code]
  let s := { s with pair := { s.pair with state := st, isSource := source } }
  if before = s.anaOptimized then s else s.anaNotice

/-! ### Joining (R447, R453) -/

/-- Begin RESYNC as source or rejoiner. -/
def State.beginResync (s : State) (source : Bool) : State :=
  let p := s.pair
  let s := s.setPair .resync source
  let s := { s with pair := { s.pair with resyncLeft := if source then p.dirty else []
                                          resyncObjects := if source then addKeys p.changed p.deleted else []
                                          resyncCopied := 0 } }
  s.raiseM 0x0607 ([BitVec.ofNat 8 (bit (!source))] ++ le 4 s.pair.resyncLeft.length ++ le 4 s.pair.resyncObjects.length)

/-- The twins are authenticated: PAIRED, RESYNC or CONFLICT by the solo changes of both sides; a twin in SPLIT rejoins
only after REJOIN (Table Pair 5, R453). -/
def State.join (s : State) : State :=
  let p := s.pair
  if p.state = .paired ∨ p.state = .resync ∨ p.state = .split ∨ p.state = .conflict ∨ p.twinSplit then s
  else if p.sanitized ∧ !(p.twinSanitized ∧ !p.id.side) then
    ({ s with pair := { p with dirty := s.allRegions } } : State).beginResync false
  else if p.twinSanitized then
    ({ s with pair := { p with dirty := addKeys p.dirty (if p.sanitized then s.allRegions else p.twinDirty) } } : State).beginResync true
  else
    match p.solo, p.twinSolo with
    | false, false =>
      let s := s.setPair .paired
      let s := { s with pair := { s.pair with frameOff := s.pair.markerOff } }
      s.raiseM 0x0601 [BitVec.ofNat 8 p.state.code]
    | true, true => (s.setPair .conflict).raiseM 0x0608 (le 4 p.dirty.length)
    | true, false => s.beginResync true
    | false, true => s.beginResync false

/-- BINARY_PORT_LINK_UP with what SPDM found of the module at the other end: its certificates verify and chain to the
device root, the hash of its identity key, whether its own TWIN_KEY names this module, its PAIR_ID and SIDE; and what
it reports of itself: its boot count, solo changes, marks, change list and whether it waits in SPLIT (R433, R439,
R442, R447). -/
def execBinaryPortLinkUp (t p : Nat) (certs : Bool) (keyHash : List Byte) (namesUs : Bool) (pairId : Nat) (side : Bool)
    (boot : Nat) (solo inSplit : Bool) (marks changes : List Nat) (s : State) : Result :=
  let s := s.at t
  if !isBinary p ∨ (s.port p).state = .up ∨ !s.portServes p then .next s
  else
    let s := s.linkUp p
    let id := s.pair.id
    let ok := certs && namesUs && keyHash == id.twinKey && pairId == id.pairId && side != id.side && pairId != 0
    if !ok then .next ((s.authFail p).pump p)
    else
      let s := s.modPort p (fun x => { x with secured := true, underKey := 0 })
      let fresh := s.pair.fresh
      let s := { s with pair := { s.pair with
        auth := true, notice := none, twinBoot := boot, twinSplit := inSplit, partitionFrames := 0, fresh := false
        twinSolo := if fresh then id.side == false else solo
        twinDirty := marks, twinChanged := changes, twinSanitized := !fresh && !solo && !marks.isEmpty
        dirty := if fresh ∧ id.side then addKeys s.pair.dirty s.allRegions else s.pair.dirty } }
      if fresh then .next ((s.beginResync id.side).pump p) else .next (s.join.pump p)

/-- PAIR_DETECT_CHANGE: a level that has held for `heldNs`; it counts from 5 µs on. Deasserted while a binary port is up
and no fault notice has come, it is a fault of the wiring (R440, R448). -/
def execPairDetectChange (t heldNs : Nat) (level : Bool) (s : State) : Result :=
  let s := s.at t
  if heldNs < 5000 ∨ level = s.pair.detectIn then .next s
  else
    let s := { s with pair := { s.pair with detectIn := level, waitingSince := if s.pair.state = .waiting then s.now else s.pair.waitingSince } }
    if !level ∧ !s.binaryDown ∧ s.pair.notice.isNone ∧ s.pair.has then .next (s.raiseM 0x060B [])
    else .next s

/-! ### Takeover (R455, R456) -/

/-- The locator of an answer whose inputs the survivor does not hold: unit 0xFFFE with the twin's boot count (R455). -/
def State.twinLocator (s : State) : Nat := unitLocator s.pair.twinBoot 0xFFFE

/-- A named input can be read here: a pair namespace, or a mirrored object whose copy is complete (R445, R455). -/
def State.takeable (s : State) (h : Nat) : Bool :=
  if h / 2 ^ 48 = 0xFFFF then (tget? s.link.namespaces (h % 2 ^ 32)).elim false (·.pair)
  else match tget? s.objects.live (field h 0 48) with
    | some o => o.handle == h && !s.pair.toCopy.contains (field h 0 48)
    | none => false

/-- The inputs a record names: those recorded at admission, or the handles of its header before it. -/
def Packet.named (p : Packet) : List Nat :=
  if p.inputs.isEmpty then [p.hdr.primary, p.hdr.secondary].filter (· != 0) else p.inputs.map (·.1)

/-- Take over one record: it waits for admission, or for placement as a replay waits; one whose inputs are not here is
answered FAILED_UNIT (R455, R456). -/
def State.takeOver (s : State) (p : Packet) : State :=
  let key := s.packets.nextKey
  let ok := p.named.all (fun h => s.takeable h)
  let admitted := p.admitFrame.map (fun f => ((f : Int) + s.pair.frameOff).toNat)
  let q := { p with key := key, takenOver := true, forTwin := false, mirrored := false, admitFrame := admitted, fault := none
                    phase := if !ok then .finished else if p.phase = .received then .received else .replaying
                    status := if ok then p.status else .failedUnit
                    lastLoc := if ok then p.lastLoc else s.twinLocator }
  let s := { s with packets := { s.packets with nextKey := key + 1, live := tset s.packets.live key q } }
  let s := s.renameReader (twinReader p.key) key
  if ok then s else s.jobFailed q .failedUnit s.twinLocator

/-- Take over every acknowledged record of the twin with TAKEOVER_OK that is not answered (R455). -/
def State.takeOverAll (s : State) : State :=
  let rs := (s.packets.twin.map (·.2)).filter (fun p => bitAt p.hdr.flags 2 && p.phase != .answered)
  let s := { s with packets := { s.packets with twin := [] } }
  let s := rs.foldl State.takeOver s
  let s := rs.foldl (fun s p => s.trace 0xB p.tenant p.hdr.packetId
    ([BitVec.ofNat 8 s.pair.state.code, BitVec.ofNat 8 s.pair.state.code, 0, 0] ++ le 4 rs.length)) s
  { s with pair := { s.pair with takeoverBegun := some rs.length, takeoverRuns := true, takeoverAnswered := 0 } }

/-- The twin is lost (R448). -/
def State.twinLost (s : State) : Bool := !s.pair.detectIn && (s.binaryDown || s.pair.notice.isSome)

/-- PAIR_LOST: PAIR_DETECT is deasserted, and both binary ports are down or a fault notice has arrived. A PAIRED module
or a source enters SOLO and takes over; a rejoiner stays as it is (R448, R455, R460 edges). -/
def execPairLost (t : Nat) (s : State) : Result :=
  let s := s.at t
  let p := s.pair
  if s.twinLost ∧ (p.state = .paired ∨ (p.state = .resync ∧ p.isSource)) then
    let s := s.setPair .solo
    let s := { s with pair := { s.pair with auth := false } }
    .next ((s.raiseM 0x0602 [BitVec.ofNat 8 p.state.code, BitVec.ofNat 8 (bit p.notice.isSome)]).takeOverAll)
  else .next s

/-! ### Partition and waiting (R449, R450) -/

/-- A mirrored object: its tenant's MIRROR MASK bit is set (R445). -/
def State.mirrored (s : State) (h : Nat) : Bool := s.pair.has && s.pair.mask.getLsbD (handleTenant h)

/-- A packet's run would commit a change to a mirrored object. -/
def State.changesMirrored (s : State) (p : Packet) : Bool :=
  s.objects.live.any (fun (_, o) => (o.changingBy == some p.key || o.deletingBy == some p.key) && s.mirrored o.handle)

/-- A fenced module answers FAILED_UNIT every running packet that would change a mirrored object (R449). -/
def State.fence (s : State) : State :=
  let hit := s.packets.live.filter (fun (_, p) => p.inRun && s.changesMirrored p)
  hit.foldl (fun s (k, _) => s.conclude k .failedUnit s.twinLocator) s

/-- PAIR_PARTITION: both binary ports down for 2 frames with PAIR_DETECT asserted: side A enters SOLO, side B FENCED
(R449). -/
def execPairPartition (t : Nat) (s : State) : Result :=
  let s := s.at t
  let p := s.pair
  if s.binaryDown ∧ p.detectIn ∧ 2 ≤ p.partitionFrames ∧ (p.state = .paired ∨ (p.state = .resync ∧ p.isSource)) then
    let st := if p.id.side then PairState.fenced else .solo
    let s := (s.setPair st).raiseM 0x0603 [BitVec.ofNat 8 st.code]
    .next (if p.id.side then s.fence else s)
  else .next s

/-- PAIR_WAIT_EXPIRY: 30 s in WAITING without an authenticated twin (R450). -/
def execPairWaitExpiry (t : Nat) (s : State) : Result :=
  let s := s.at t
  let p := s.pair
  if p.state = .waiting ∧ !p.auth ∧ p.waitingSince + 30000000000 ≤ s.now then
    if !p.detectIn then .next ((s.setPair .solo).raiseM 0x0602 [BitVec.ofNat 8 p.state.code, BitVec.ofNat 8 0])
    else
      let st := if p.id.side then PairState.fenced else .solo
      .next ((s.setPair st).raiseM 0x0603 [BitVec.ofNat 8 st.code])
  else .next s

/-! ### Mirroring (R443 to R446) -/

/-- SHIFT_RECORD_MIRROR_ACK: the twin has acknowledged the latest update of a record (R404). -/
def execShiftRecordMirrorAck (t key : Nat) (s : State) : Result :=
  let s := s.at t
  .next (s.modPacket key (fun p => { p with mirrored := true }))

/-- The inputs of a record as this module holds them at the record's versions: those of an earlier update, else its own objects
at those versions, else as the record gives them (R415, R446). -/
def State.twinInputs (s : State) (p : Packet) : List Object :=
  match (tget? s.packets.twin p.key).filter (fun old => !old.snap.isEmpty) with
  | some old => old.snap
  | none => p.inputs.filterMap (fun (x : Nat × Nat) =>
      match (tget? s.objects.live (field x.1 0 48)).filter (fun o => o.handle == x.1 && o.version == x.2) with
      | some o => some o
      | none => objIn p.snap x.1)

/-- MIRRORED_SHIFT_RECORD_RECEIVED: the record or update is stored in the slots for the twin, with what this module keeps of its
inputs, and acknowledged; an answered one is retired on both twins (R406, R446). -/
def execMirroredShiftRecordReceived (t : Nat) (p : Packet) (s : State) : Result :=
  let s := s.at t
  if !s.binaryLive then .next s
  else
    let tw := if p.phase = .answered then terase s.packets.twin p.key
      else tset s.packets.twin p.key { p with forTwin := true, mirrored := true, snap := s.twinInputs p }
    if 16384 < tw.length then .next s
    else .next (({ s with packets := { s.packets with twin := tw } } : State).toTwin 1 .recordAck p.key [])

/-- TWIN_LOG_RECORD_RECEIVED: an event record that the twin sent in its log stage 3 (R426). -/
def execTwinLogRecordReceived (t code tenant seq timeNs : Nat) (data : List Byte) (s : State) : Result :=
  let s := s.at t
  if !s.binaryLive then .next s
  else
    let r : EventRec := { code := code, tenant := tenant, seq := seq, timeNs := timeNs, data := padTo 22 data }
    .next { s with log := { s.log with fromTwin := s.log.fromTwin ++ [r] } }

/-- PAIR_SEQUENCE_REQUEST: side A gives the number that side B asks for (R443). -/
def execPairSequenceRequest (t tag : Nat) (s : State) : Result :=
  let s := s.at t
  if s.pair.id.side ∨ !s.mirrors ∨ !s.binaryLive then .next s
  else
    let n := s.pair.nextSeq
    .next (({ s with pair := { s.pair with nextSeq := n + 1 } } : State).toTwin 1 .seqGrant tag (le 8 n))

/-- Apply a mirrored change to the blocks that no later number has changed (R443). -/
def State.applyMirror (s : State) (seq nsid lba : Nat) (sectors : List (Option SectorState)) (fua : Bool) : State :=
  (sectors.zipIdx).foldl (fun s (x, i) =>
    let k := nsid * 2 ^ 48 + lba + i
    if seq < tgetD s.pair.applied k 0 then s
    else
      let s := { s with pair := { s.pair with applied := tset s.pair.applied k seq } }
      s.changeSpace nsid (lba + i) [x] (fua || s.media.holdupDegr) true) s

/-- An object of the twin as this module holds it, in place of the version it held: it keeps the range of its copy here, and what
packets of this module do with it. -/
def Object.heldAs (o old : Object) : Object :=
  { o with base := old.base, tierF := old.tierF, keepFor := old.keepFor, changingBy := old.changingBy, deletingBy := old.deletingBy, uncharged := old.uncharged }

/-- The Tier H lodes that hold the object of a number. -/
def State.lodesHeld (s : State) (o : Object) : List Nat :=
  ((s.cage.map.filter (fun p => (p.2.state == .resident || p.2.state == .transit) &&
    decide (o.base ≤ p.2.wlode ∧ p.2.wlode < o.base + o.lodes)))).map (·.1)

/-- Lodes of a version that the twin's commit replaces leave the map; they are kept while a packet or a record needs them (R415). -/
def State.replaceLodes (s : State) (old : Object) : State :=
  let readers := s.readersOf old.handle s.packets.nextKey
  (s.lodesHeld old).foldl (fun s h =>
    let s := (s.invalidateHeld (h * lodeBytes) lodeBytes).freeLode h
    if readers.isEmpty then s else { s with cage := { s.cage with retained := s.cage.retained ++ [(h, readers)] } }) s

/-- Put an object of the twin in place of its copy here, with one handle and one version (R445). -/
def State.adopt (s : State) (o : Object) : State :=
  let num := field o.handle 0 48
  match tget? s.objects.live num with
  | some old =>
    let o := o.heldAs old
    let s := if o.version = old.version then s else s.replaceLodes old
    let s := ({ s with objects := { s.objects with live := tset s.objects.live num o } } : State)
    if o.version = old.version ∨ o.uncharged then s else s.wantPinned o
  | none =>
    let base := (s.objects.live.map (fun p => p.2.base + p.2.lodes)).foldl max 0
    ({ s with objects := { s.objects with live := tset s.objects.live num { o with base := base } } } : State).objectKey o

/-- The twin has deleted an object: its lodes are freed and it is forgotten, or it is kept for the packets and records that see it
(R158, R446). -/
def State.dropObject (s : State) (num : Nat) : State :=
  match tget? s.objects.live num with
  | none => s
  | some o =>
    let readers := s.readersOf o.handle s.packets.nextKey
    if !readers.isEmpty then
      { s with objects := { s.objects with live := tset s.objects.live num { o with dead := true, keepFor := readers } } }
    else
      let s := (s.lodesHeld o).foldl State.freeLode s
      { s with objects := { s.objects with live := terase s.objects.live num } }

/-- MIRROR_WRITE_RECEIVED: a command or commit of the twin, or a resync copy, is applied and acknowledged (R443 to R445,
R453). -/
def execMirrorWriteReceived (t seq : Nat) (op : MirrorOp) (s : State) : Result :=
  let s := s.at t
  if !s.binaryLive ∨ !s.mirrors then .next s
  else
    let s := { s with pair := { s.pair with nextSeq := max s.pair.nextSeq (seq + 1) } }
    let s := match op with
      | .write nsid lba sectors fua =>
        let s := s.applyMirror seq nsid lba sectors fua
        { s with link := { s.link with namespaces := tupd s.link.namespaces nsid (fun n => { n with cut := seq }) } }
      | .region nsid region blocks =>
        let f := fun (n : Namespace) =>
          let lo := region * 2 ^ 30 / n.lbaBytes
          let hi := (region + 1) * 2 ^ 30 / n.lbaBytes
          let keep : Tbl SectorState → Tbl SectorState := fun m => m.filter (fun (p : Nat × SectorState) => decide (p.1 < lo ∨ hi ≤ p.1))
          let put : Tbl SectorState → Tbl SectorState := fun m =>
            (blocks.filter (fun (p : Nat × SectorState) => decide (lo ≤ p.1 ∧ p.1 < hi))).foldl (fun (m : Tbl SectorState) (p : Nat × SectorState) => tset m p.1 p.2) (keep m)
          { n with blocks := put n.blocks, durable := put n.durable, cut := n.cut + 1 }
        { s with link := { s.link with namespaces := tupd s.link.namespaces nsid f }
                 pair := { s.pair with resyncCopied := s.pair.resyncCopied + 1 } }
      | .object o => s.adopt o
      | .remove h => s.dropObject (field h 0 48)
    .next (s.toTwin 1 .mirrorAck seq [])

/-! ### Resync (R453, R454) -/

/-- RESYNC_REGION_COPY: the source copies one marked region, or one listed or mirrored object, on VC3; `object` tells
them apart. -/
def execResyncRegionCopy (t item : Nat) (object : Bool) (s : State) : Result :=
  let s := s.at t
  let p := s.pair
  if !s.binaryLive then .next s
  else if object then
    if p.resyncObjects.contains item ∨ p.toCopy.contains item then
      let s := { s with pair := { p with resyncObjects := p.resyncObjects.filter (· != item)
                                         toCopy := p.toCopy.filter (· != item) } }
      match tget? s.objects.live item with
      | some o => .next (s.toTwin 3 .objectCopy item (le 8 o.handle ++ le 8 o.version))
      | none => .next (s.toTwin 3 .objectDelete item (le 8 item))
    else .next s
  else if p.state = .resync ∧ p.isSource ∧ p.resyncLeft.contains item then
    let s := { s with pair := { p with resyncLeft := p.resyncLeft.filter (· != item)
                                       resyncCopied := p.resyncCopied + 1 } }
    .next (s.toTwin 3 .regionCopy item (le 8 item))
  else .next s

/-- RESYNC_DONE: every copy is durable on the rejoiner; the twins are PAIRED and clear their marks (R453). -/
def execResyncDone (t : Nat) (s : State) : Result :=
  let s := s.at t
  let p := s.pair
  if p.state ≠ .resync ∨ (p.isSource ∧ (!p.resyncLeft.isEmpty ∨ !p.resyncObjects.isEmpty)) ∨ !s.binaryLive then .next s
  else
    let s := s.setPair .paired
    let s := { s with pair := { s.pair with dirty := [], changed := [], deleted := [], twinDirty := [], twinChanged := []
                                            sanitized := false, twinSanitized := false, twinSolo := false, frameOff := s.pair.markerOff } }
    .next ((s.raiseM 0x0601 [BitVec.ofNat 8 p.state.code]).raiseM 0x060D (le 4 p.resyncCopied))

/-! ### PAIR CONTROL (R441, R442, R452 to R460) -/

/-- PAIR_STATUS (Table Pair 9), its WRQ bit apart. -/
def State.pairStatus (s : State) : Nat :=
  s.pair.state.code + bit s.pair.id.side <<< 3 + bit s.pair.detectIn <<< 4 + bit s.pair.auth <<< 5 +
    bit s.pair.solo <<< 6

/-- PAIR_CONTROL_STATUS: PAIR_STATUS, PAIR_ID, dirty regions, changed objects, the twin's boot count and the pair frame
offset, one after the other (Table Pair 4; notes/assumptions/11.md); an operation that the table does not list fails (R441). -/
def execPairControlStatus (q : Sqe) (s : State) : Result :=
  .next (s.pfCommand q (fun s =>
    let p := s.pair
    let d := le 4 s.pairStatus ++ le 8 p.id.pairId ++ le 4 p.dirty.length ++
      le 4 (p.changed.length + p.deleted.length) ++ le 4 p.twinBoot ++ le 8 (unsigned 64 p.frameOff)
    if dwField q.d10 0 8 ≠ 0 then s.complete q .invalidField
    else (s.toHost q (padTo 64 d)).complete q .success))

/-- The pair identity record that a BIND STAGE writes (Table Pair 3). -/
def pairRecord (pairId : Nat) (side : Bool) (key : List Byte) : List Byte :=
  le 8 pairId ++ le 1 (bit side) ++ le 1 1 ++ le 6 0 ++ padTo 48 key

/-- BIND_STAGE; `peerKey` is the hash of the identity key of the module on the binary ports (R441, R442, R548). -/
def execBindStage (q : Sqe) (peerKey : List Byte) (s : State) : Result :=
  .next (s.pfCommand q (fun s =>
    if !s.pair.auth ∧ s.pair.has then s.complete q .commandSequence
    else if s.almanac.exhausted 3 then (s.exhaustedEvent 3).complete q .commandSequence
    else
      let (code, s) := s.stageBurn 3 (pairRecord (leAt q.data 0 8) (bitAt (leAt q.data 8 1) 0) peerKey) true
      s.complete q .success code))

/-- BIND_COMMIT, with the result of the burn's read-backs (R442, R547). -/
def execBindCommit (q : Sqe) (bad : Option Nat) (s : State) : Result :=
  .next (s.pfCommand q (fun s =>
    match s.almanac.staged with
    | none => s.complete q .commandSequence
    | some st =>
      if !st.firmware ∨ st.record ≠ 3 ∨ st.code ≠ q.d11.toNat then s.discardBurn.complete q .commandSequence
      else if s.almanac.exhausted 3 then (s.discardBurn.exhaustedEvent 3).complete q .commandSequence
      else
        let g := s.almanac.usedCount 3
        let s := s.burn 3 st.data bad
        match bad with
        | some _ => s.complete q .internalError
        | none =>
          let id := s.pair.id
          let s := { s with pair := { s.pair with fresh := true, waitingSince := s.now } }
          let s := s.setPair (if id.pairId = 0 then .unpaired else .waiting)
          (s.raiseM 0x060C (le 8 id.pairId ++ [BitVec.ofNat 8 (bit id.side), BitVec.ofNat 8 g])).complete q .success))

/-- UNBIND: a record with PAIR_ID 0 is staged and committed; not while PAIRED (Table Pair 4). -/
def execUnbind (q : Sqe) (bad : Option Nat) (s : State) : Result :=
  .next (s.pfCommand q (fun s =>
    if q.d11.toNat ≠ 0x5A5A0C7F then s.complete q .invalidField
    else if s.pair.state = .paired then s.complete q .commandSequence
    else if s.almanac.exhausted 3 then (s.exhaustedEvent 3).complete q .commandSequence
    else
      let g := s.almanac.usedCount 3
      let s := s.burn 3 (pairRecord 0 false []) bad
      match bad with
      | some _ => s.complete q .internalError
      | none =>
        let s := { s with pair := { s.pair with auth := false } }
        ((s.setPair .unpaired).raiseM 0x060C (le 8 0 ++ [BitVec.ofNat 8 0, BitVec.ofNat 8 g])).complete q .success))

/-- SPLIT: a PAIRED module first drains its mirrored records; the keeper enters SOLO, the other SPLIT. On a FENCED or
WAITING module it forces the state at once, and on a rejoiner that has lost its source it forces it into SOLO (R452, and the edges
of R460). -/
def execSplit (q : Sqe) (s : State) : Result :=
  .next (s.pfCommand q (fun s =>
    let keeper := !bitAt q.d11.toNat 0
    let go := fun (s : State) =>
      let s := s.setPair (if keeper then .solo else .split)
      let s := { s with pair := { s.pair with twinSplit := keeper, twinSolo := !keeper } }
      (s.raiseM 0x060A [BitVec.ofNat 8 (bit keeper)]).complete q .success
    match s.pair.state with
    | .paired =>
      if s.packets.live.any (fun (_, p) => p.mirrored && p.phase != .answered) ∨ !s.packets.twin.isEmpty then s else go s
    | .fenced => go s
    | .waiting => go s
    | .resync => if keeper && !s.pair.isSource && (s.twinLost || s.binaryDown) then go s else s.complete q .commandSequence
    | _ => s.complete q .commandSequence))

/-- REJOIN: a SPLIT module may join again; in CONFLICT it names the data that survives (R453, R454). -/
def execRejoin (q : Sqe) (s : State) : Result :=
  .next (s.pfCommand q (fun s =>
    let p := s.pair
    match p.state with
    | .split =>
      let s := s.setPair .waiting
      let s := { s with pair := { s.pair with waitingSince := s.now } }
      (if p.auth ∧ s.binaryLive then s.join else s).complete q .success
    | .conflict =>
      let source := !bitAt q.d11.toNat 0
      if source then
        let s := { s with pair := { p with dirty := addKeys p.dirty p.twinDirty, changed := addKeys p.changed p.twinChanged } }
        (s.beginResync true).complete q .success
      else
        let only := p.dirty.filter (fun k => !p.twinDirty.contains k)
        let s := s.pairSpaces.foldl (fun s n =>
          let k := (only.filter (fun r => decide (r / 2 ^ 32 = n.nsid))).map (fun r =>
            let b := (r % 2 ^ 32) * 2 ^ 30
            (min (2 ^ 30) (n.size * n.lbaBytes - b)) / 4096)
          s.raise 0x0309 (n.fn.getD 0xFF) (le 4 n.nsid ++ le 4 (sumNat k))) s
        (s.beginResync false).complete q .success
    | _ => s.complete q .commandSequence))

/-- TAKEOVER_CQ: a function's takeover completion queue, one that no submission queue uses (R457). -/
def execTakeoverCq (q : Sqe) (s : State) : Result :=
  .next (s.pfCommand q (fun s =>
    let fn := dwField q.d11 0 16
    let cq := dwField q.d11 16 16
    let c := s.ctrl fn
    if 63 < fn then s.complete q .invalidField
    else if cq = 0 then (s.setCtrl fn { c with takeoverCq := none }).complete q .success
    else if (tget? c.cqs cq).isNone ∨ c.sqs.any (fun p => p.2.cqid == cq) then s.complete q .invalidField
    else (s.setCtrl fn { c with takeoverCq := some cq }).complete q .success))

/-- MIRROR_MASK: tenants whose bit is set have their objects copied; a bit cleared deletes the twin's copies (R445). -/
def execMirrorMask (q : Sqe) (s : State) : Result :=
  .next (s.pfCommand q (fun s =>
    if s.pair.state ≠ .paired then s.complete q .commandSequence
    else
      let new := BitVec.ofNat 64 (leAt q.data 0 8)
      let old := s.pair.mask
      let of := fun (m : BitVec 64) => (s.objects.live.filter (fun (_, o) => m.getLsbD (handleTenant o.handle))).map (·.1)
      let add := of (new &&& ~~~old)
      let del := of (old &&& ~~~new)
      let s := { s with pair := { s.pair with mask := new
                                              toCopy := addKeys (s.pair.toCopy.filter (fun k => !del.contains k)) add } }
      (del.foldl (fun s k => s.toTwin 1 .objectDelete k (le 8 k)) s).complete q .success))

/-! ### Role and spans (R461, R465, R542) -/

/-- ROLE: role, constellation ID and member index, saved; role 0 clears the saved role (Table Pair 4, R461, R542). -/
def execRole (q : Sqe) (s : State) : Result :=
  .next (s.pfCommand q (fun s =>
    let r := dwField q.d11 0 2
    let id := dwField q.d11 8 8
    let m := dwField q.d11 16 8
    if s.const.formed then s.complete q .commandSequence
    else if 2 < r ∨ 63 < m then s.complete q .invalidField
    else
      let role := match r with | 1 => Role.foreman | 2 => .hewer | _ => .none
      let changed := (s.const.savedRole, s.const.savedId, s.const.savedMember) != (role, id, m)
      let s := { s with const := { s.const with role := role, id := id, member := m, savedRole := role, savedId := id
                                                savedMember := m
                                                savedMembers := if r = 0 then [] else s.const.savedMembers } }
      (if changed then s.measurementChanged 5 else s).complete q .success))

/-- The shards of a span as the host sends it (Table Pair 6). -/
def spanShards (d : List Byte) : List Shard :=
  (List.range (leAt d 9 1)).map (fun i =>
    let b := 32 + 32 * i
    { pref := leAt d b 1 % 64, alt := leAt d (b + 1) 1, prefH := leAt d (b + 8) 8, altH := leAt d (b + 16) 8 })

/-- SPAN_SET on the foreman (R465, R474). -/
def execSpanSet (q : Sqe) (s : State) : Result :=
  .next (s.pfCommand q (fun s =>
    let d := q.data
    let key := leAt d 0 8
    let tenant := leAt d 8 1 % 64
    let n := leAt d 9 1
    let sh := spanShards d
    let owned := match tget? s.objects.live (field key 0 48) with
      | some o => o.handle == key && handleTenant key == tenant && !o.dead
      | none => false
    let known := sh.all (fun x => s.const.members.contains x.pref && (x.alt == 0xFF || s.const.members.contains x.alt))
    if s.const.role ≠ .foreman then s.complete q .commandSequence
    else if n = 0 ∨ 64 < n ∨ !owned ∨ !known ∨
        ((tget? s.const.spans key).isNone ∧ 1024 ≤ s.const.spans.length) then s.complete q .invalidField
    else ({ s with const := { s.const with spans := tset s.const.spans key { key := key, tenant := tenant, shards := sh } } }
      : State).complete q .success))

/-- SPAN_CLEAR: the span of the key in CDW11 and CDW12 (Table Pair 4). -/
def execSpanClear (q : Sqe) (s : State) : Result :=
  .next (s.pfCommand q (fun s =>
    if s.const.role ≠ .foreman then s.complete q .commandSequence
    else
      let key := q.d11.toNat + q.d12.toNat * 2 ^ 32
      ({ s with const := { s.const with spans := terase s.const.spans key } } : State).complete q .success))

end Sys2Proof.Machine
end

