-- ==== Sys2Proof/Machine/Seam.lean ====
section
/-!
DEFINITION. Seam indexes: vectors, distances, product tables, top-k order, filters, insertion and training
(spec/07_seam_search.md, R175 to R208; spec/11_narrow_numbers.md, R297, R300, R301).
-/
namespace Sys2Proof.Machine

/-! ### Vectors and sums in FP32 -/

/-- FP32 codes of zero, one and plus infinity. -/
def f32One : Nat := 0x3F800000

/-- See `f32One`. -/
def f32Inf : Nat := 0x7F800000

/-- A sum of products in element order, one rounding for each addition (R277, R301). -/
def dot32 (q x : List Nat) : Nat := (q.zip x).foldl (fun acc p => ffma32 p.1 p.2 acc) 0

/-- The sum of the squared differences, in element order (Table Seam 2). -/
def l2of (q x : List Nat) : Nat :=
  (q.zip x).foldl (fun acc p => let d := fsub32 p.1 p.2; ffma32 d d acc) 0

/-- The distance of a metric from an inner product: IP, else COS (Table Seam 2). -/
def fromDot (metric d : Nat) : Nat := if metric = 1 then fneg32 d else fsub32 f32One d

/-- The distance of two FP32 vectors under a metric (Table Seam 2). -/
def distOf (metric : Nat) (q x : List Nat) : Nat := if metric = 0 then l2of q x else fromDot metric (dot32 q x)

/-- A distance as it is kept: what is not finite is plus infinity (R185). -/
def keptDist (d : Nat) : Nat := if notFinite32 d then f32Inf else d

/-- FP32 order of distances. -/
def lt32 (a b : Nat) : Bool := ltF (of32 a) (of32 b)

/-- Cut a list into groups of `n`, at most `fuel`. -/
def groupsOf {α : Type} (n : Nat) : Nat → List α → List (List α)
  | 0, _ => []
  | fuel + 1, l => if l.isEmpty then [] else l.take n :: groupsOf n fuel (l.drop n)

/-- Groups of `n`. -/
def chunks {α : Type} (n : Nat) (l : List α) : List (List α) := groupsOf n l.length l

/-- Bytes of an element of QFMT (Table Seam 3), none where it is not listed. -/
def qBytes : Nat → Option Nat
  | 0 => some 4 | 1 => some 2 | 2 => some 2 | 3 => some 1 | _ => none

/-- One element of QFMT as FP32; INT8 takes the scale QSCALE. -/
def qElem (qfmt scale v : Nat) : Nat :=
  match qfmt with
  | 0 => v
  | 1 => v * 65536
  | 2 => to32 (decodeF .fp16 v)
  | _ => fmul32 (to32 (ofInt (signed 8 v))) scale

/-- The elements of a vector in QFMT. -/
def readVec (qfmt scale dim : Nat) (d : List Byte) : List Nat :=
  let w := (qBytes qfmt).getD 4
  (List.range dim).map (fun i => qElem qfmt scale (leAt d (i * w) w))

/-- A query normalised in FP32 under COS; none for a zero vector, which has no direction (R179, R181). -/
def prepared (metric : Nat) (x : List Nat) : Option (List Nat) :=
  if metric ≠ 2 then some x
  else
    let n := fsqrt32 (dot32 x x)
    if n % 2 ^ 31 = 0 then none else some (x.map (fun v => fdiv32 v n))

/-- A vector that R181 accepts, prepared: every element finite, and not zero under COS. -/
def acceptVec (metric : Nat) (x : List Nat) : Option (List Nat) :=
  if x.any notFinite32 then none else prepared metric x

/-! ### MX groups -/

/-- The exponent of the smallest power of two that brings a magnitude m × 2^e within `top`, no less than 2^-127. -/
def mxExp (m : Nat) (e : Int) (topM : Nat) (topE : Int) : Int :=
  if m = 0 then 0
  else
    let k := (bitLen m : Int) + e - bitLen topM - topE
    let fits := fun k : Int => leF (.fin false m e) (.fin false topM (topE + k))
    max (-127) (if fits (k - 1) then k - 1 else if fits k then k else k + 1)

/-- The largest magnitude of a list of FP32 codes. -/
def maxAbs32 (l : List Nat) : Nat := l.foldl (fun a v => max a (v % 2 ^ 31)) 0

/-- The largest finite magnitude of an element format. -/
def FFmt.top (f : FFmt) : FVal := decodeF f f.maxCode

/-- An E8M0 scale for a group: the smallest power of two under which nothing saturates (R213). -/
def mxScale (f : FFmt) (g : List Nat) : Nat :=
  match of32 (maxAbs32 g), f.top with
  | .fin _ m e, .fin _ tm te => (mxExp m e tm te + 127).toNat
  | _, _ => 254

/-- An FP32 value divided by a power of two, exactly. -/
def scaleDown (v : FVal) (k : Int) : FVal :=
  match v with
  | .fin n m e => .fin n m (e - k)
  | v => v

/-- A group's elements under an E8M0 scale, to nearest even. -/
def mxElems (f : FFmt) (g : List Nat) : List Nat :=
  let k : Int := (mxScale f g : Int) - 127
  g.map (fun v => (narrowF f .nearest (scaleDown (of32 v) k)).1)

/-! ### The index -/

/-- The FP16 scale of 32 dimensions of an INT8 centroid table, for the values it must cover: the spec states how
the table is read, not how the scale is chosen (notes/assumptions/3.md). -/
opaque Config.centroidScale : List Nat → BitVec 16

/-- Centroid `j` as FP32 values (Table Seam 3). -/
def IndexBody.centroid (b : IndexBody) (j : Nat) : List Nat :=
  let c := b.centroids.getD j []
  if b.cfmt = 0 then
    (c.zipIdx).map (fun (v, i) => fmul32 (to32 (ofInt (signed 8 v))) (to32 (decodeF .fp16 (b.cscales.getD (i / 32) 0x3C00))))
  else c.map (· * 65536)

/-- The distance of a query to centroid `j`, group sums scaled under R297 (R182). -/
def IndexBody.centroidDist (b : IndexBody) (q : List Nat) (j : Nat) : Nat :=
  if b.cfmt = 0 ∧ b.metric ≠ 0 then
    let codes := (b.centroids.getD j []).map (fun v => to32 (ofInt (signed 8 v)))
    let dot := (((chunks 32 q).zip (chunks 32 codes)).zipIdx).foldl (fun acc (p, g) =>
      fadd32 acc (fmul32 (dot32 p.1 p.2) (to32 (decodeF .fp16 (b.cscales.getD g 0x3C00))))) 0
    keptDist (fromDot b.metric dot)
  else keptDist (distOf b.metric q (b.centroid j))

/-- The `n` nearest seams in selection order: distance, then seam number (R182). -/
def IndexBody.nearest (b : IndexBody) (q : List Nat) (n : Nat) : List Nat :=
  ((sortBy (fun x y : Nat × Nat => lt32 x.1 y.1) ((List.range b.nlist).map (fun j => (b.centroidDist q j, j)))).take n).map (·.2)

/-- A codebook entry of subspace `m` as FP32. -/
def IndexBody.entry (b : IndexBody) (m c : Nat) : List Nat := ((b.codebooks.getD m []).getD c []).map (· * 65536)

/-- The `m`-th subvector. -/
def IndexBody.sub (b : IndexBody) (x : List Nat) (m : Nat) : List Nat := window x (m * (b.dim / b.m)) (b.dim / b.m)

/-- The product tables of a query: a set for seam `j` under L2, the shared set otherwise (R183). -/
def IndexBody.tables (b : IndexBody) (q : List Nat) (j : Nat) : List (List Nat) :=
  (List.range b.m).map (fun m => (List.range 16).map (fun c =>
    if b.metric = 0 then l2of ((b.sub q m).zipWith fsub32 (b.sub (b.centroid j) m)) (b.entry m c)
    else fneg32 (dot32 (b.sub q m) (b.entry m c))))

/-- The scale of a set of tables: maxabs / 32,767. -/
def setScale (t : List (List Nat)) : Nat := fdiv32 (maxAbs32 t.flatten) (to32 (ofInt 32767))

/-- A table entry rounded to a signed 16-bit integer of the scale. -/
def tableInt (s e : Nat) : Int :=
  if s % 2 ^ 31 = 0 then 0
  else match of32 e, of32 s with
    | .fin n m x, .fin _ sm sx =>
      let num := m * 2 ^ (x - sx).toNat
      let den := sm * 2 ^ (sx - x).toNat
      let r := num * 2 / den
      let a := if num * 2 % den = 0 ∧ r % 2 = 1 then (r / 2) + (r / 2) % 2 else (r + 1) / 2
      if n then -(min a 32768 : Nat) else (min a 32767 : Nat)
    | _, _ => 0

/-- The distance of a PQ4 code (R183): the exact sum of its entries, times the scale, plus the bias. -/
def IndexBody.pqDist (b : IndexBody) (q : List Nat) (j : Nat) (code : List Nat) : Nat :=
  let t := b.tables q j
  let s := setScale t
  if notFinite32 s then f32Inf
  else
    let sum := ((code.zip t).map (fun p => tableInt s (p.2.getD p.1 0))).foldl (· + ·) (0 : Int)
    let bias := if b.metric = 0 then 0 else b.centroidDist q j
    keptDist (fadd32 (fmul32 (to32 (ofInt sum)) s) bias)

/-- The distance of an MXFP8 code: the query in BF16, element order within each group of 32, then groups (R184). Its
code holds the vector itself, so no centroid term is left to add (notes/assumptions/12.md). -/
def IndexBody.mxDist (b : IndexBody) (q : List Nat) (sl : SeamSlot) : Nat :=
  let qb := q.map (fun v => encodeF .bf16 .nearest (of32 v) * 65536)
  let el := sl.code.map (fun c => to32 (decodeF .e4m3 c))
  let acc := (((chunks 32 qb).zip (chunks 32 el)).zipIdx).foldl (fun acc (p, g) =>
    let sc := decodeE8 (sl.scales.getD g 127)
    if b.metric = 0 then
      fadd32 acc (l2of p.1 (p.2.map (fun v => to32 (mulF (of32 v) sc))))
    else fadd32 acc (to32 (mulF (of32 (dot32 p.1 p.2)) sc))) 0
  keptDist (if b.metric = 0 then acc else fromDot b.metric acc)

/-- The distance of a stored vector. -/
def IndexBody.slotDist (b : IndexBody) (q : List Nat) (j : Nat) (sl : SeamSlot) : Nat :=
  if b.code = 1 then b.pqDist q j sl.code else b.mxDist q sl

/-- The exact distance of a re-rank record (R185). -/
def IndexBody.exactDist (b : IndexBody) (q : List Nat) (sl : SeamSlot) : Nat :=
  keptDist (distOf b.metric q (if b.rfmt = 1 then sl.rerank.map (· * 65536) else sl.rerank))

/-- The visible slots of a seam, by slot. -/
def IndexBody.visible (b : IndexBody) (j : Nat) : List (Nat × SeamSlot) := b.slots.filter (fun p => p.1 / 65536 == j)

/-! ### Candidates (R189 to R191) -/

/-- A candidate: distance, vector ID, slot token, and whether its distance is exact. -/
structure Cand where
  dist : Nat
  id : Nat
  token : Nat
  exact : Bool := false
  deriving DecidableEq, Repr

/-- The total order of R189. -/
def Cand.lt (a b : Cand) : Bool :=
  lt32 a.dist b.dist || (!lt32 b.dist a.dist && (decide (a.id < b.id) || (a.id == b.id && decide (a.token < b.token))))

/-- The best `k` of a list. -/
def topK (k : Nat) (l : List Cand) : List Cand := (sortBy Cand.lt l).take k

/-- An answer entry (Table Seam 6). -/
def Cand.encode (c : Cand) : List Byte := le 8 c.id ++ le 4 c.dist ++ le 4 (bit c.exact)

/-! ### Filters (R193) -/

/-- A filter as it is read: form, base, count and where its body begins in the bytes of its source. -/
structure Filter where
  form : Nat
  base : Nat
  count : Nat
  body : List Byte
  deriving DecidableEq, Repr

/-- The bytes a filter's body takes. -/
def filterBytes (form count : Nat) : Nat := if form = 1 ∨ form = 2 then (count + 7) / 8 else 8 * count

/-- The header of a filter, at the start of its bytes. -/
def Filter.read (d : List Byte) : Filter :=
  { form := leAt d 0 1, base := leAt d 8 8, count := leAt d 16 8, body := d.drop 32 }

/-- Its header is one of Table Seam 5. -/
def Filter.formOk (f : Filter) : Bool := decide (1 ≤ f.form ∧ f.form ≤ 4)

/-- See `Filter.formOk`. -/
def Filter.countOk (f : Filter) : Bool :=
  decide (1 ≤ f.count ∧ f.count ≤ (if f.form ≤ 2 then 2 ^ 34 else 16777216))

/-- The IDs of a list filter. -/
def Filter.ids (f : Filter) : List Nat := (List.range f.count).map (fun i => leAt f.body (8 * i) 8)

/-- A list is strictly ascending. -/
def ascending : List Nat → Bool
  | a :: b :: l => decide (a < b) && ascending (b :: l)
  | _ => true

/-- The filter admits an ID. In a list that is not strictly ascending the module is free to find or miss an ID
(`choice`). -/
def Filter.admits (f : Filter) (choice : Nat → Bool) (id : Nat) : Bool :=
  match f.form with
  | 1 => decide (f.base ≤ id ∧ id < f.base + f.count) && bitAt ((f.body.getD ((id - f.base) / 8) 0).toNat) ((id - f.base) % 8)
  | 2 => !(decide (f.base ≤ id ∧ id < f.base + f.count) && bitAt ((f.body.getD ((id - f.base) / 8) 0).toNat) ((id - f.base) % 8))
  | k =>
    let there := if ascending f.ids then f.ids.contains id else choice id
    if k = 3 then there else !there

/-- The result of a search over the planned seams: the candidates that the filter admits, merged, re-ranked when
planned, and cut to K (R190, R191, R185). -/
def IndexBody.search (b : IndexBody) (q : List Nat) (seams : List Nat) (k rerankN : Nat) (rerank : Bool)
    (admits : Nat → Bool) : List Cand :=
  let all := seams.flatMap (fun j => ((b.visible j).filter (fun p => admits p.2.id)).map (fun p =>
    ({ dist := b.slotDist q j p.2, id := p.2.id, token := p.1 } : Cand)))
  let best := topK (if rerankN ≠ 0 then rerankN else k) all
  if rerank then
    topK k (best.map (fun c => match tget? b.slots c.token with
      | some sl => { c with dist := b.exactDist q sl, exact := true }
      | none => c))
  else best.take k

/-! ### Insertion (R202) -/

/-- The code of a vector in seam `j`: the nearest codebook entry for each subspace of the residual, ties to the lower
code; or MXFP8 groups. -/
def IndexBody.encodeVec (b : IndexBody) (j : Nat) (x : List Nat) : List Nat × List Nat :=
  if b.code = 1 then
    ((List.range b.m).map (fun m =>
      let r := (b.sub x m).zipWith fsub32 (b.sub (b.centroid j) m)
      let ds := (List.range 16).map (fun c => (keptDist (l2of r (b.entry m c)), c))
      ((sortBy (fun a b : Nat × Nat => lt32 a.1 b.1) ds).headD (0, 0)).2), [])
  else
    ((chunks 32 x).flatMap (mxElems .e4m3), (chunks 32 x).map (mxScale .e4m3))

/-- The re-rank record of a vector (R185). -/
def IndexBody.rerankOf (b : IndexBody) (x : List Nat) : List Nat :=
  if b.rfmt = 1 then x.map (fun v => encodeF .bf16 .nearest (of32 v)) else if b.rfmt = 2 then x else []

/-- The lowest slot of a seam that is empty and may be filled (R177). -/
def IndexBody.freeSlot (b : IndexBody) (j : Nat) : Option Nat :=
  (List.range b.seamCap).find? (fun i => (tget? b.slots (j * 65536 + i)).isNone &&
    !(b.emptied.any (fun e => e.1 == j * 65536 + i)))

/-- Insert one vector: its nearest seam, or the nearest that is not full among 8; none when all are. -/
def IndexBody.insert (b : IndexBody) (id : Nat) (x : List Nat) : Option (IndexBody × Nat) :=
  match (b.nearest x 8).findSome? (fun j => (b.freeSlot j).map (fun i => (j, i))) with
  | some (j, i) =>
    let e := b.encodeVec j x
    let tok := j * 65536 + i
    some ({ b with slots := tset b.slots tok { id := id, code := e.1, scales := e.2, rerank := b.rerankOf x } }, tok)
  | none => none

/-- Insert records in order until one stops the packet: none for a vector that no index accepts (R202, R254). -/
def IndexBody.insertAll (b : IndexBody) : List (Nat × Option (List Nat)) → IndexBody × List Nat × Bool
  | [] => (b, [], false)
  | (id, some x) :: rest =>
    match b.insert id x with
    | some (b', tok) => let (b'', toks, st) := b'.insertAll rest; (b'', tok :: toks, st)
    | none => (b, [], true)
  | (_, none) :: _ => (b, [], true)

/-- Delete slots by token; `readers` are the packets that may still see them (R177). The count of tokens that name no
filled slot follows. -/
def IndexBody.deleteAll (b : IndexBody) (readers : List Nat) : List Nat → IndexBody × Nat
  | [] => (b, 0)
  | tok :: rest =>
    let tok := tok % 2 ^ 36
    match tget? b.slots tok with
    | some _ =>
      ({ b with slots := terase b.slots tok, emptied := b.emptied ++ [(tok, readers)] } : IndexBody).deleteAll readers rest
    | none => let (b', n) := b.deleteAll readers rest; (b', n + 1)

/-! ### Training (R206) -/

/-- One round of k-means in FP32, in record order. -/
def kmeansRound (metric : Nat) (pts cent : List (List Nat)) : List (List Nat) :=
  let assign := pts.map (fun p =>
    ((sortBy (fun a b : Nat × Nat => lt32 a.1 b.1) ((cent.zipIdx).map (fun (c, j) => (keptDist (distOf metric p c), j)))).headD (0, 0)).2)
  (cent.zipIdx).map (fun (c, j) =>
    let mine := ((pts.zip assign).filter (fun p => p.2 == j)).map (·.1)
    match mine with
    | [] => c
    | p :: ps =>
      let sum := (p :: ps).foldl (fun acc x => acc.zipWith fadd32 x) (p.map (fun _ => 0))
      sum.map (fun v => fdiv32 v (to32 (ofInt mine.length))))

/-- Rounds of k-means. -/
def kmeans (metric : Nat) (pts : List (List Nat)) : Nat → List (List Nat) → List (List Nat)
  | 0, c => c
  | n + 1, c => kmeans metric pts n (kmeansRound metric pts c)

/-- Store trained centroids in CFMT: BF16, or INT8 codes under the scale of their 32 dimensions. -/
def IndexBody.storeCentroids (b : IndexBody) (cent : List (List Nat)) : IndexBody :=
  if b.cfmt = 1 then { b with centroids := cent.map (·.map (fun v => encodeF .bf16 .nearest (of32 v))) }
  else
    let scales := (List.range ((b.dim + 31) / 32)).map (fun g =>
      (Config.centroidScale (cent.flatMap (fun c => window c (32 * g) 32))).toNat)
    { b with cscales := scales
             centroids := cent.map (fun c => (c.zipIdx).map (fun (v, i) =>
               (narrowI 8 true .nearest (of32 (fdiv32 v (to32 (decodeF .fp16 (scales.getD (i / 32) 0x3C00)))))).1)) }

/-- An empty index trained from sample vectors (R206). -/
def IndexBody.train (b : IndexBody) (iter : Nat) (sample : List (List Nat)) : IndexBody :=
  let b := b.storeCentroids (kmeans b.metric sample iter (sample.take b.nlist))
  if b.code = 1 then
    let res := sample.map (fun x => x.zipWith fsub32 (b.centroid ((b.nearest x 1).headD 0)))
    { b with codebooks := (List.range b.m).map (fun m =>
        let pts := res.map (fun r => b.sub r m)
        (kmeans 0 pts iter (pts.take 16)).map (·.map (fun v => encodeF .bf16 .nearest (of32 v)))) }
  else b

/-! ### Geometry (R175, R176, R644) -/

/-- Bytes of a centroid element. -/
def IndexBody.ec (b : IndexBody) : Nat := if b.cfmt = 0 then 1 else 2

/-- Lodes of one seam. -/
def IndexBody.sl (b : IndexBody) : Nat :=
  if b.code = 1 then ceilDiv (b.seamCap * b.m) (2 * 65536) else ceilDiv (b.seamCap * (b.dim + ceilDiv b.dim 32)) 65536

/-- The least power of two that is at least `n` and at least `k`. -/
def pow2Up : Nat → Nat → Nat → Nat
  | 0, k, _ => k
  | f + 1, k, n => if n ≤ k then k else pow2Up f (2 * k) n

/-- Bytes of a re-rank record, 0 with no store. -/
def IndexBody.rb (b : IndexBody) : Nat := if b.rfmt = 0 then 0 else pow2Up 16 64 (b.dim * (if b.rfmt = 1 then 2 else 4))

/-- Lodes of a seam's re-rank records. -/
def IndexBody.rl (b : IndexBody) : Nat := ceilDiv (b.seamCap * b.rb) 65536

/-- Lodes of the offset space (R644). -/
def IndexBody.offsetLodes (b : IndexBody) : Nat := b.nlist * (b.sl * (1 + b.replicas) + b.rl)

/-- Lodes of the components that stay in Tier H (Table Seam 1). -/
def IndexBody.fixed (b : IndexBody) : Nat :=
  1 + ceilDiv (b.nlist * b.dim * b.ec) 65536 + (if b.code = 1 then ceilDiv (32 * b.dim) 65536 else 0) +
  ceilDiv (64 * b.nlist) 65536 + ceilDiv (8 * b.nlist * b.seamCap) 65536

/-- The drift of a copy of seam `j` in the index with an object number (R176). -/
def seamDrift (num j : Nat) (replica : Bool) : Nat := (j + num + (if replica then 32 else 0)) % 64

/-- First lode of a copy of seam `j` in the offset space (R644). -/
def IndexBody.seamLode (b : IndexBody) (j : Nat) (replica : Bool) : Nat :=
  ((if replica then b.nlist else 0) + j) * b.sl

/-- First lode of the re-rank records of seam `j`. -/
def IndexBody.rerankLode (b : IndexBody) (j : Nat) : Nat := b.nlist * b.sl * (1 + b.replicas) + j * b.rl

end Sys2Proof.Machine
end

