-- ==== Sys2Proof/Machine/KvStore.lean ====
section
/-!
DEFINITION. KV objects: stored formats, summaries, appending and closing blocks, block selection and the attention
partials (spec/08_attention_at_the_store.md, R210 to R228; spec/11_narrow_numbers.md, R291 to R301).
-/
namespace Sys2Proof.Machine

/-! ### Geometry (R211, R212) -/

/-- Twice the bytes of a stored element. -/
def kvE2 (fmt : Nat) : Nat := match fmt with | 0 => 4 | 1 => 2 | _ => 1

/-- The element format of KFMT or VFMT. -/
def kvFmt (fmt : Nat) : FFmt := match fmt with | 0 => .bf16 | 1 => .e4m3 | _ => .e2m1

/-- Lodes of a tile (T of R211). -/
def KvBody.tileLodes (b : KvBody) : Nat := ceilDiv (256 * b.dim * (kvE2 b.kfmt + kvE2 b.vfmt)) 131072

/-- Scale lodes of a stripe (C of R211). -/
def KvBody.scaleLodes (b : KvBody) : Nat :=
  let sz := b.sfmt + 1
  let k := if b.kfmt = 0 then 0 else 256 * (b.dim / b.group) * sz
  let v := if b.vfmt = 0 then 0 else (256 / b.group) * b.dim * sz
  ceilDiv (b.heads * (k + v)) 65536

/-- Lodes of a stripe (S of R211). -/
def KvBody.stripe (b : KvBody) : Nat := b.scaleLodes + b.heads * b.tileLodes

/-- MAX_TOKENS / 256. -/
def KvBody.maxBlocks (b : KvBody) : Nat := b.maxTokens / 256

/-- First lode of the stripe of a layer's block (R212). -/
def KvBody.stripeLode (b : KvBody) (layer blk : Nat) : Nat := (layer * b.maxBlocks + blk) * b.stripe

/-- Lodes of the offset space. -/
def KvBody.offsetLodes (b : KvBody) : Nat := b.layers * b.maxBlocks * b.stripe

/-- The drift of a stripe, in the object with an object number. -/
def stripeDrift (num layer blk : Nat) : Nat := (blk + layer + num) % 64

/-- Lodes of the components that stay in Tier H (Table Attend 1). -/
def KvBody.fixed (b : KvBody) : Nat :=
  1 + ceilDiv (b.layers * b.heads * b.maxBlocks * 4 * b.dim) 65536 +
  ceilDiv (b.layers * b.heads * 256 * 2 * b.dim * 2) 65536 + b.layers * (b.hotSinks + b.hotRecent) * b.stripe

/-- Query heads (QH). -/
def KvBody.qHeads (b : KvBody) : Nat := b.heads * b.qpk

/-- The length of a layer. -/
def KvBody.len (b : KvBody) (layer : Nat) : Nat := tgetD b.lens layer 0

/-- The key of a tile. -/
def tileKey (layer head blk : Nat) : Nat := (layer * 64 + head) * 16384 + blk

/-- A tile. -/
def KvBody.tile (b : KvBody) (layer head blk : Nat) : KvTile := tgetD b.tiles (tileKey layer head blk) {}

/-- A stripe that Tier H holds beside its Tier F copy: near position 0 or among the newest closed blocks. -/
def KvBody.hot (b : KvBody) (layer blk : Nat) : Bool :=
  let closed := b.len layer / 256
  decide (blk < closed) && (decide (blk < b.hotSinks) || decide (closed ≤ blk + b.hotRecent))

/-! ### Stored formats (R213, R214) -/

/-- A quotient of two values for one later rounding: 64 further bits and a sticky bit. -/
def quotF : FVal → FVal → FVal
  | .fin n1 m1 e1, .fin n2 m2 e2 =>
    if m2 = 0 then .nan
    else
      let k := 64 + bitLen m2
      let q := (m1 * 2 ^ k) / m2
      let s := if (m1 * 2 ^ k) % m2 = 0 then 0 else 1
      .fin (n1 != n2) (2 * q + s) (e1 - e2 - k - 1)
  | _, _ => .nan

/-- The scale of a group of FP32 codes: E8M0, or FP16 rounded toward plus infinity; an all-zero group takes 1.0. -/
def kvScale (sfmt : Nat) (f : FFmt) (g : List Nat) : Nat :=
  if sfmt = 0 then mxScale f g
  else if maxAbs32 g = 0 then 0x3C00
  else encodeF .fp16 .up (quotF (of32 (maxAbs32 g)) f.top)

/-- The value of a scale. -/
def scaleVal (sfmt c : Nat) : FVal := if sfmt = 0 then decodeE8 c else decodeF .fp16 c

/-- A group converted under its scale, to nearest even. -/
def kvElems (sfmt : Nat) (f : FFmt) (c : Nat) (g : List Nat) : List Nat :=
  g.map (fun v => (narrowF f .nearest
    (if sfmt = 0 then scaleDown (of32 v) ((c : Int) - 127) else quotF (of32 v) (scaleVal sfmt c))).1)

/-- BF16 codes as FP32 codes. -/
def widen (l : List Nat) : List Nat := l.map (· * 65536)

/-- Rows turned into columns. -/
def columns (dim : Nat) (rows : List (List Nat)) : List (List Nat) :=
  (List.range dim).map (fun d => rows.map (fun r => r.getD d 0))

/-- The decoded keys of a tile, token by token, as exact values (R292). -/
def KvBody.keys (b : KvBody) (t : KvTile) : List (List FVal) :=
  if !t.closed ∨ b.kfmt = 0 then t.k.map (·.map (decodeF .bf16))
  else (t.k.zip t.kScale).map (fun (r, sc) => (r.zipIdx).map (fun (c, i) =>
    mulF (decodeF (kvFmt b.kfmt) c) (scaleVal b.sfmt (sc.getD (i / b.group) 127))))

/-- The larger, or the smaller, of a column of values. -/
def pickVal (larger : Bool) : List FVal → FVal
  | [] => .fin false 0 0
  | v :: vs => vs.foldl (fun a x => if (if larger then ltF a x else ltF x a) then x else a) v

/-- The summary of a tile: the element-wise bounds of its keys in BF16, rounded outward (R214). -/
def KvBody.summary (b : KvBody) (t : KvTile) : KvTile :=
  let ks := b.keys t
  let col := fun d => ks.map (fun r => r.getD d (.fin false 0 0))
  { t with hi := (List.range b.dim).map (fun d => encodeF .bf16 .up (pickVal true (col d)))
           lo := (List.range b.dim).map (fun d => encodeF .bf16 .down (pickVal false (col d))) }

/-- Close a block of 256 tokens: keys grouped along the head dimension, values along tokens (R213). -/
def KvBody.close (b : KvBody) (t : KvTile) : KvTile :=
  let f := kvFmt b.kfmt
  let g := kvFmt b.vfmt
  let kg := t.k.map (fun r => chunks b.group (widen r))
  let ks := kg.map (·.map (kvScale b.sfmt f))
  let vg := chunks b.group t.v
  let vs := vg.map (fun rows => (columns b.dim rows).map (fun c => kvScale b.sfmt g (widen c)))
  { t with closed := true
           k := if b.kfmt = 0 then t.k else (kg.zip ks).map (fun (r, sc) =>
             ((r.zip sc).map (fun (x, c) => kvElems b.sfmt f c x)).flatten)
           kScale := if b.kfmt = 0 then [] else ks
           v := if b.vfmt = 0 then t.v else ((vg.zip vs).map (fun (rows, sc) =>
             rows.map (fun r => (r.zip sc).map (fun (x, c) => (kvElems b.sfmt g c [x * 65536]).headD 0)))).flatten
           vScale := if b.vfmt = 0 then [] else vs }

/-- No FP16 scale of a closed tile is infinite. -/
def KvTile.scalesOk (t : KvTile) : Bool :=
  (t.kScale ++ t.vScale).all (fun r => r.all (fun c => decide (c < 0x7C00)))

/-! ### Appending (R218) -/

/-- Put a head's new tokens into its open block and the blocks after it. -/
def KvBody.appendHead (b : KvBody) (layer head : Nat) (ks vs : List (List Nat)) : KvBody :=
  let blk := b.len layer / 256
  let old := if b.len layer % 256 = 0 then {} else b.tile layer head blk
  let ks := chunks 256 (old.k ++ ks)
  let vs := chunks 256 (old.v ++ vs)
  ((ks.zip vs).zipIdx).foldl (fun b ((k, v), i) =>
    let t : KvTile := { k := k, v := v }
    let t := b.summary (if k.length = 256 then b.close t else t)
    { b with tiles := tset b.tiles (tileKey layer head (blk + i)) t }) b

/-- The fields of an APPEND KV block. -/
structure Append where
  first : Nat
  layers : Nat
  start : Nat
  count : Nat
  data : List Byte
  deriving DecidableEq, Repr

/-- The BF16 elements of one entry: key (0) or value (1) of a layer of the block, token and head. -/
def Append.elems (a : Append) (b : KvBody) (layer tok head part : Nat) : List Nat :=
  let e := ((layer * a.count + tok) * b.heads + head) * 2 + part
  (List.range b.dim).map (fun d => leAt a.data ((e * b.dim + d) * 2) 2)

/-- Append the tokens of every named layer. -/
def KvBody.append (b : KvBody) (a : Append) : KvBody :=
  (List.range a.layers).foldl (fun b i =>
    let l := a.first + i
    let b' := (List.range b.heads).foldl (fun b h =>
      b.appendHead l h ((List.range a.count).map (fun t => a.elems b i t h 0))
        ((List.range a.count).map (fun t => a.elems b i t h 1))) b
    { b' with lens := tset b'.lens l (b.len l + a.count) }) b

/-- Stripes that an append closes. -/
def KvBody.closes (b : KvBody) (a : Append) : Nat :=
  sumNat ((List.range a.layers).map (fun i => (b.len (a.first + i) + a.count) / 256 - b.len (a.first + i) / 256))

/-- No FP16 scale of a tile the append closes is infinite (R213). -/
def KvBody.appendOk (b : KvBody) (a : Append) : Bool :=
  ((b.append a).tiles.filter (fun p => p.2.closed)).all (fun p => p.2.scalesOk)

/-! ### Attention (R221 to R228) -/

/-- The fields of an ATTEND block. -/
structure Attend where
  layer : Nat
  mode : Nat
  ctx : Nat
  sinks : Nat
  recent : Nat
  topB : Nat
  lpdCap : Nat
  candCap : Nat
  scale : Nat
  holdFrames : Nat
  query : List Byte
  deriving DecidableEq, Repr

/-- The fields of an ATTEND block (Table Attend 3). -/
def Attend.read (d : List Byte) : Attend :=
  { layer := leAt d 0 2, mode := leAt d 2 1, ctx := leAt d 4 4, sinks := leAt d 8 2, recent := leAt d 10 2
    topB := leAt d 12 2, lpdCap := leAt d 14 2, candCap := leAt d 16 4, scale := leAt d 20 4
    holdFrames := leAt d 24 1, query := d.drop 32 }

/-- The query of head `n` as FP32 codes of its BF16 elements. -/
def Attend.q (a : Attend) (dim n : Nat) : List Nat :=
  (List.range dim).map (fun d => leAt a.query ((n * dim + d) * 2) 2 * 65536)

/-- Blocks of the context. -/
def Attend.nb (a : Attend) : Nat := ceilDiv a.ctx 256

/-- The bound of query head `n` on a block, every product and sum rounded toward plus infinity; a zero element of the query adds
nothing, whatever the summary holds (R224; notes/assumptions/69.md). -/
def KvBody.bound (b : KvBody) (a : Attend) (n blk : Nat) : Nat :=
  let t := b.tile a.layer (n / b.qpk) blk
  let sum := (((a.q b.dim n).zip (t.hi.zip t.lo))).foldl (fun acc (q, hl) =>
    let x := fmul32 q (hl.1 * 65536) .up
    let y := fmul32 q (hl.2 * 65536) .up
    if q % 2 ^ 31 = 0 then acc else encodeF .fp32 .up (addF .up (of32 acc) (of32 (if lt32 x y then y else x)))) 0
  fmul32 a.scale sum .up

/-- The larger of FP32 codes, from a start. -/
def max32 (start : Nat) (l : List Nat) : Nat := l.foldl (fun a x => if lt32 a x then x else a) start

/-- FP32 minus infinity. -/
def f32NegInf : Nat := 0xFF800000

/-- The block score for a KV head. -/
def KvBody.score (b : KvBody) (a : Attend) (h blk : Nat) : Nat :=
  max32 f32NegInf ((List.range b.qpk).map (fun g => b.bound a (h * b.qpk + g) blk))

/-- The covered blocks of a KV head in rank order (R223, R229). -/
def KvBody.ranks (b : KvBody) (a : Attend) (h : Nat) : List Nat :=
  let nb := a.nb
  if a.mode = 1 then (List.range nb).reverse
  else
    let sinks := List.range (min a.sinks nb)
    let recent := ((List.range nb).filter (fun x => decide (nb ≤ x + a.recent) && !sinks.contains x)).reverse
    let rest := (List.range nb).filter (fun x => !sinks.contains x && !recent.contains x)
    let scored := sortBy (fun x y : Nat × Nat => lt32 y.1 x.1) (rest.map (fun x => (b.score a h x, x)))
    sinks ++ recent ++ (scored.take a.topB).map (·.2)

/-- The items of an ATTEND, rank by rank with KV heads ascending within each rank (R229). -/
def KvBody.items (b : KvBody) (a : Attend) : List (Nat × Nat) :=
  let rs := (List.range b.heads).map (fun h => (h, b.ranks a h))
  let longest := maxNat (rs.map (fun p => p.2.length))
  (List.range longest).flatMap (fun r => rs.filterMap (fun p => (p.2[r]?).map (fun blk => (p.1, blk))))

/-- An attention partial (m, l, o) of one query head. -/
structure APart where
  m : Nat
  l : Nat
  o : List Nat
  deriving DecidableEq, Repr

/-- An empty partial. -/
def APart.empty (dim : Nat) : APart := { m := f32NegInf, l := 0, o := List.replicate dim 0 }

/-- The merge of two partials (R226). -/
def APart.merge (a b : APart) : APart :=
  let m := if lt32 a.m b.m then b.m else a.m
  let wa := if a.m = f32NegInf then 0 else fexp32 (fsub32 a.m m)
  let wb := if b.m = f32NegInf then 0 else fexp32 (fsub32 b.m m)
  { m := m, l := fadd32 (fmul32 a.l wa) (fmul32 b.l wb)
    o := a.o.zipWith (fun x y => fadd32 (fmul32 x wa) (fmul32 y wb)) b.o }

/-- The logit of a stored key for a query, and whether it was held at the largest finite value (R225). -/
def KvBody.logit (b : KvBody) (a : Attend) (t : KvTile) (q : List Nat) (tok : Nat) : Nat × Bool :=
  let row := t.k.getD tok []
  let sum :=
    if !t.closed ∨ b.kfmt = 0 then dot32 q (widen row)
    else
      let el := row.map (fun c => to32 (decodeF (kvFmt b.kfmt) c))
      (((chunks b.group q).zip (chunks b.group el)).zipIdx).foldl (fun acc (p, g) =>
        fadd32 acc (to32 (mulF (of32 (dot32 p.1 p.2)) (scaleVal b.sfmt ((t.kScale.getD tok []).getD g 127))))) 0
  let s := fmul32 a.scale sum
  if s % 2 ^ 31 = f32Inf then (s - 1, true) else (s, false)

/-- The value sum of one dimension over the tokens of a block (R226). -/
def KvBody.valueSum (b : KvBody) (t : KvTile) (ps : List Nat) (d : Nat) : Nat :=
  let bf := !t.closed || b.vfmt == 0
  let vs := t.v.map (fun r => if bf then r.getD d 0 * 65536 else to32 (decodeF (kvFmt b.vfmt) (r.getD d 0)))
  if bf then dot32 ps vs
  else (((chunks b.group ps).zip (chunks b.group vs)).zipIdx).foldl (fun acc (p, g) =>
    fadd32 acc (to32 (mulF (of32 (dot32 p.1 p.2)) (scaleVal b.sfmt ((t.vScale.getD g []).getD d 127))))) 0

/-- The partial of a query head over one block, restricted to the context, and whether a logit saturated. -/
def KvBody.blockPart (b : KvBody) (a : Attend) (n blk : Nat) : APart × Bool :=
  let t := b.tile a.layer (n / b.qpk) blk
  let toks := min t.k.length (a.ctx - 256 * blk)
  let ls := (List.range toks).map (b.logit a t (a.q b.dim n))
  if toks = 0 then (.empty b.dim, false)
  else
    let m := max32 f32NegInf (ls.map (·.1))
    let ps := ls.map (fun x => encodeF .bf16 .nearest (of32 (fexp32 (fsub32 x.1 m))) * 65536)
    ({ m := m, l := ps.foldl fadd32 0, o := (List.range b.dim).map (b.valueSum t ps) }, ls.any (·.2))

/-- The partial of a query head over the covered blocks: runs of 64 block numbers, then the runs (R226). -/
def KvBody.headPart (b : KvBody) (a : Attend) (n : Nat) (blocks : List Nat) : APart × Bool :=
  let parts := (sortBy (fun x y => decide (x < y)) blocks).map (fun blk => (blk / 64, b.blockPart a n blk))
  let runs := dedupNat (parts.map (·.1))
  (runs.foldl (fun acc r =>
      acc.merge ((parts.filter (fun p => p.1 == r)).foldl (fun x p => x.merge p.2.1) (.empty b.dim))) (.empty b.dim),
   parts.any (fun p => p.2.2))

/-- Tokens of the context in a block. -/
def Attend.tokens (a : Attend) (blk : Nat) : Nat := min 256 (a.ctx - 256 * blk)

/-- The record of one query head (Table Attend 4), over the blocks its KV head covers; `bounded` says that the
selection stage ran. -/
def KvBody.record (b : KvBody) (a : Attend) (n : Nat) (blocks : List Nat) (bounded : Bool) : List Byte × Bool :=
  let (p, sat) := b.headPart a n blocks
  let cover := sumNat (blocks.map a.tokens)
  let skipped := (List.range a.nb).filter (fun x => !blocks.contains x)
  let skipBound := if !bounded then f32Inf else max32 f32NegInf (skipped.map (b.bound a n))
  (le 4 p.m ++ le 4 p.l ++ le 4 skipBound ++ le 4 cover ++ le 4 (a.ctx - cover) ++ le 2 blocks.length ++ le 10 0 ++
    p.o.flatMap (le 4), sat)

/-- The payload of an ATTEND over the planned items (R228), and SATURATED. -/
def KvBody.attend (b : KvBody) (a : Attend) (version : Nat) (items : List (Nat × Nat)) (bounded : Bool) :
    List Byte × Bool :=
  let recs := (List.range b.qHeads).map (fun n =>
    b.record a n ((items.filter (fun p => p.1 == n / b.qpk)).map (·.2)) bounded)
  (le 2 a.layer ++ le 2 b.qHeads ++ le 2 b.dim ++ le 1 a.mode ++ le 1 0 ++ le 4 a.ctx ++ le 4 0 ++ le 8 version ++ le 8 0 ++
    recs.flatMap (·.1), recs.any (·.2))

end Sys2Proof.Machine
end

