-- ==== Sys2Proof/Machine/Sift.lean ====
section
/-!
DEFINITION. SIFT: record views, expression trees, evaluation and output forms (spec/09_sift_and_embed.md, R235 to R243),
and the headers of models and programs (R248, R252, R286).
-/
namespace Sys2Proof.Machine

/-! ### Record views (R235, R236) -/

/-- A column entry (Table Sift 2). -/
structure Column where
  off : Nat
  typ : Nat
  len : Nat
  deriving DecidableEq, Repr

/-- A record view (Table Sift 1). -/
structure View where
  version : Nat
  nsid : Nat
  slba : Nat
  rows : Nat
  width : Nat
  idCol : Nat
  idBase : Nat
  cols : List Column
  deriving DecidableEq, Repr

/-- Read a record view from an object's bytes. -/
def View.read (d : List Byte) : View :=
  { version := leAt d 0 1, nsid := leAt d 4 4, slba := leAt d 8 8, rows := leAt d 16 8, width := leAt d 24 2
    idCol := leAt d 27 1, idBase := leAt d 32 8
    cols := (List.range (leAt d 26 1)).map (fun i =>
      { off := leAt d (64 + 16 * i) 2, typ := leAt d (66 + 16 * i) 1, len := leAt d (67 + 16 * i) 1 }) }

/-- Bytes of a column. -/
def Column.bytes (c : Column) : Nat :=
  match c.typ with
  | 1 => 1 | 2 => 2 | 3 => 4 | 4 => 8 | 5 => 1 | 6 => 2 | 7 => 4 | 8 => 8 | 9 => 4 | 10 => 2 | 11 => 2 | 12 => c.len
  | _ => 0

/-- Kinds of column types. -/
def Column.unsigned (c : Column) : Bool := decide (1 ≤ c.typ ∧ c.typ ≤ 4)

/-- See `Column.unsigned`. -/
def Column.integer (c : Column) : Bool := decide (1 ≤ c.typ ∧ c.typ ≤ 8)

/-- See `Column.unsigned`. -/
def Column.float (c : Column) : Bool := decide (9 ≤ c.typ ∧ c.typ ≤ 11)

/-- The format of a float column. -/
def Column.fmt (c : Column) : FFmt := match c.typ with | 9 => .fp32 | 10 => .bf16 | _ => .fp16

/-- Records packed to a 4 KiB sector. -/
def View.rps (v : View) : Nat := 4096 / v.width

/-- Every field is in its range, every column lies within the record, and the ID column is a U64 (R236). -/
def View.ok (v : View) : Bool :=
  v.version == 1 && decide (1 ≤ v.rows ∧ v.rows ≤ 2 ^ 34) && decide (8 ≤ v.width ∧ v.width ≤ 4096) && v.width % 8 == 0 &&
  decide (1 ≤ v.cols.length ∧ v.cols.length ≤ 64) &&
  v.cols.all (fun c => decide (1 ≤ c.typ ∧ c.typ ≤ 12) && (c.typ != 12 || decide (1 ≤ c.len ∧ c.len ≤ 64)) &&
    decide (c.off + c.bytes ≤ v.width)) &&
  (v.idCol == 0xFF || (v.cols[v.idCol]?).elim false (fun c => c.typ == 4))

/-- 4 KiB sectors of a namespace block. -/
def Namespace.sectorsPerLba (n : Namespace) : Nat := if n.lbaf < 2 then 1 else 4

/-- Bytes of a logical block without metadata. -/
def Namespace.blockBytes (n : Namespace) : Nat := 4096 * n.sectorsPerLba

/-- The namespace serves the view: attached to the function, not a pair namespace, and long enough. -/
def View.fits (v : View) (n : Namespace) (fn : Nat) : Bool :=
  n.fn == some fn && !n.pair && decide (ceilDiv (ceilDiv v.rows v.rps) n.sectorsPerLba + v.slba ≤ n.size)

/-- The data bytes of 4 KiB sector `k` from the view's SLBA; none where its map entry is lost (R235, R237, R368). -/
def sectorBytes (n : Namespace) (blocks : Tbl SectorState) (slba k : Nat) : Option (List Byte) :=
  match tget? blocks (slba + k / n.sectorsPerLba) with
  | some (.data d _) => some (sliceBytes d (4096 * (k % n.sectorsPerLba)) 4096)
  | some .lost => none
  | none => some (List.replicate 4096 0)

/-! ### Expression trees (R239, R240) -/

/-- A node (Table Sift 4). -/
structure Node where
  op : Nat
  col : Nat
  a : Nat
  b : Nat
  deriving DecidableEq, Repr

/-- The fields of a SIFT block (Table Sift 3), its nodes and its bytes. -/
structure Sift where
  form : Nat
  lpdCap : Nat
  rowFirst : Nat
  rowCount : Nat
  candCap : Nat
  maskOff : Nat
  nodes : List Node
  param : List Byte
  deriving DecidableEq, Repr

/-- Read a SIFT block. -/
def Sift.read (d : List Byte) : Sift :=
  { form := leAt d 0 1, lpdCap := leAt d 4 2, rowFirst := leAt d 8 8, rowCount := leAt d 16 8, candCap := leAt d 24 4
    maskOff := leAt d 32 8, param := d
    nodes := (List.range (leAt d 2 2)).map (fun i =>
      let o := 64 + 24 * i
      { op := leAt d o 1, col := leAt d (o + 1) 1, a := leAt d (o + 8) 8, b := leAt d (o + 16) 8 }) }

/-- Rows evaluated (RC). -/
def Sift.rc (q : Sift) (v : View) : Nat := if q.rowCount = 0 then v.rows - q.rowFirst else q.rowCount

/-- The weight of a node (Table Sift 5). -/
def nodeWeight (v : View) (n : Node) : Nat :=
  let c := v.cols.getD n.col { off := 0, typ := 1, len := 0 }
  let wide := c.typ == 4 || c.typ == 8
  match n.op with
  | 7 => if wide then 4 else 2
  | 8 => 1 + (bitLen n.b)
  | 9 => ceilDiv n.b 4
  | 10 => if wide then 2 else 1
  | 11 => if wide then 2 else 1
  | 12 => 1
  | 0x20 => 1 | 0x21 => 1 | 0x22 => 1 | 0x23 => 1
  | _ => if c.typ = 12 then ceilDiv c.len 4 else if wide then 2 else 1

/-- Columns a tree names. -/
def Sift.colsNamed (q : Sift) : List Nat := dedupNat ((q.nodes.filter (fun n => decide (n.op < 0x20))).map (·.col))

/-- WEIGHT (R246). -/
def Sift.weight (q : Sift) (v : View) : Nat := sumNat (q.nodes.map (nodeWeight v)) + q.colsNamed.length

/-- The depth of the stack after the nodes, none where it underflows or exceeds 32. -/
def stackDepth : List Node → Nat → Option Nat
  | [], d => some d
  | n :: ns, d =>
    let pops := match n.op with | 0x20 => 2 | 0x21 => 2 | 0x22 => 1 | _ => 0
    if d < pops ∨ 32 < d - pops + 1 then none else stackDepth ns (d - pops + 1)

/-- What a node breaks (R240): the reason of its refusal, 0x03 or 0x04. -/
def nodeFault (v : View) (q : Sift) (n : Node) : Option Nat :=
  let area := 64 + 24 * q.nodes.length
  let inArea := fun off len : Nat => decide (area ≤ off ∧ off + len ≤ q.param.length)
  if n.op = 0x20 ∨ n.op = 0x21 ∨ n.op = 0x22 ∨ n.op = 0x23 then none
  else
    match v.cols[n.col]? with
    | none => some 4
    | some c =>
      let high := fun x : Nat => decide (2 ^ (8 * c.bytes) ≤ x)
      let nan := fun x : Nat => c.float && decodeF c.fmt x == .nan
      if n.op = 0 ∨ 12 < n.op then some 3
      else if n.op ≤ 6 then
        if c.typ = 12 then (if inArea n.a c.len then none else some 4)
        else if high n.a ∨ nan n.a then some 3 else none
      else if n.op = 7 then
        if c.typ = 12 ∨ high n.a ∨ high n.b ∨ nan n.a ∨ nan n.b then some 3 else none
      else if n.op = 8 then
        if !c.integer then some 3
        else if n.b = 0 ∨ 4096 < n.b ∨ !inArea n.a (n.b * c.bytes) then some 4
        else
          let vs := (List.range n.b).map (fun i => leAt q.param (n.a + i * c.bytes) c.bytes)
          let key := fun x : Nat => if c.unsigned then x else (x + 2 ^ (8 * c.bytes - 1)) % 2 ^ (8 * c.bytes)
          if ascending (vs.map key) then none else some 4
      else if n.op = 9 then
        if c.typ ≠ 12 then some 3 else if n.b = 0 ∨ c.len < n.b ∨ !inArea n.a n.b then some 4 else none
      else if n.op ≤ 11 then
        if !c.unsigned ∨ high n.a then some 3 else none
      else if c.float then none else some 3

/-- A comparison by value of two column values: integers by their sign, floats by IEEE value; none with a NaN. -/
def Column.cmp (c : Column) (x y : Nat) : Option Int :=
  if c.float then cmpF (decodeF c.fmt x) (decodeF c.fmt y)
  else
    let val := fun v : Nat => if c.unsigned then (v : Int) else signed (8 * c.bytes) v
    some (if val x < val y then -1 else if val x = val y then 0 else 1)

/-- Unsigned lexicographic order of equally long byte strings. -/
def cmpBytes : List Byte → List Byte → Int
  | a :: as, b :: bs => if a = b then cmpBytes as bs else if a.toNat < b.toNat then -1 else 1
  | _, _ => 0

/-- A relation of EQ to GE on a comparison; with a NaN only NE holds. -/
def relation (op : Nat) : Option Int → Bool
  | none => op == 2
  | some c =>
    match op with
    | 1 => c == 0 | 2 => c != 0 | 3 => c == -1 | 4 => c != 1 | 5 => c == 1 | _ => c != -1

/-- The truth of a leaf for a record. -/
def leafHolds (v : View) (q : Sift) (r : List Byte) (n : Node) : Bool :=
  let c := v.cols.getD n.col { off := 0, typ := 1, len := 0 }
  let x := leAt r c.off c.bytes
  if n.op ≤ 6 then
    if c.typ = 12 then relation n.op (some (cmpBytes (sliceBytes r c.off c.len) (sliceBytes q.param n.a c.len)))
    else relation n.op (c.cmp x n.a)
  else if n.op = 7 then relation 6 (c.cmp x n.a) && relation 4 (c.cmp x n.b) && (c.cmp x n.a).isSome
  else if n.op = 8 then (List.range n.b).any (fun i => leAt q.param (n.a + i * c.bytes) c.bytes == x)
  else if n.op = 9 then sliceBytes r c.off n.b == sliceBytes q.param n.a n.b
  else if n.op = 10 then (x &&& n.a) != 0
  else if n.op = 11 then (x &&& n.a) == n.a
  else decodeF c.fmt x == .nan

/-- Evaluate a tree on a stack of truth values. -/
def evalTree (v : View) (q : Sift) (r : List Byte) : List Node → List Bool → Bool
  | [], st => st.headD false
  | n :: ns, st =>
    match n.op, st with
    | 0x20, a :: b :: st => evalTree v q r ns ((a && b) :: st)
    | 0x21, a :: b :: st => evalTree v q r ns ((a || b) :: st)
    | 0x22, a :: st => evalTree v q r ns ((!a) :: st)
    | 0x23, st => evalTree v q r ns (true :: st)
    | _, st => evalTree v q r ns (leafHolds v q r n :: st)

/-- A row mask (R241): its base, count and body. -/
def maskHolds (mask : Option (List Byte)) (row : Nat) : Bool :=
  match mask with
  | none => true
  | some d =>
    let f := Filter.read d
    decide (f.base ≤ row ∧ row < f.base + f.count) &&
      bitAt ((f.body.getD ((row - f.base) / 8) 0).toNat) ((row - f.base) % 8)

/-- The ID of a row. -/
def View.id (v : View) (row : Nat) (r : List Byte) : Nat :=
  if v.idCol = 0xFF then (v.idBase + row) % 2 ^ 64 else leAt r ((v.cols.getD v.idCol { off := 0, typ := 4, len := 0 }).off) 8

/-- Bits as bytes, bit 0 first. -/
def bitBytes : Nat → List Bool → List Byte
  | 0, _ => []
  | n + 1, l => BitVec.ofNat 8 (((l.take 8).zipIdx).foldl (fun a (b, i) => a + bit b * 2 ^ i) 0) :: bitBytes n (l.drop 8)

/-- A row's number, its truth and its ID. -/
structure RowResult where
  row : Nat
  hit : Bool
  id : Nat
  deriving DecidableEq, Repr

/-- Insert into an ascending list without repeats. -/
def insertSet (x : Nat) : List Nat → List Nat
  | [] => [x]
  | y :: ys => if x < y then x :: y :: ys else if x = y then y :: ys else y :: insertSet x ys

/-- The payload of a SIFT over the rows planned, in an answer of `len` bytes, and whether entries were left out (R242,
R243). -/
def Sift.output (q : Sift) (v : View) (rows : List RowResult) (len : Nat) : List Byte × Bool :=
  let head := fun (base count done : Nat) =>
    le 1 q.form ++ le 7 0 ++ le 8 base ++ le 8 count ++ le 8 (if 0x10 ≤ q.form then done else 0)
  let room := (len - 32) / 8
  if q.form = 0x10 ∨ q.form = 0x01 then
    let n := if 32 + (rows.length + 7) / 8 ≤ len then rows.length else min rows.length (64 * room)
    (head (if q.form = 0x10 then q.rowFirst else (v.idBase + q.rowFirst) % 2 ^ 64) n n ++
      bitBytes ((n + 7) / 8) ((rows.take n).map (·.hit)), decide (n < rows.length))
  else if q.form = 0x12 then
    (head q.rowFirst (rows.filter (·.hit)).length rows.length, false)
  else if q.form = 0x11 then
    let hits := (rows.filter (·.hit)).map (·.row)
    let kept := hits.take room
    let done := match hits[room]? with | some r => r - q.rowFirst | none => rows.length
    (head q.rowFirst kept.length done ++ kept.flatMap (le 8), decide (kept.length < hits.length))
  else
    let ids := ((rows.filter (·.hit)).map (·.id)).foldl (fun l x => if x = 2 ^ 64 - 1 then l else insertSet x l) []
    let kept := ids.take (min room 16777216)
    (head 0 kept.length 0 ++ kept.flatMap (le 8), decide (kept.length < ids.length))

/-! ### Models and programs -/

/-- A model header (Table Sift 7) and its shard table. -/
structure Model where
  version : Nat
  shards : List (Nat × Nat)
  input : Nat
  outFmt : Nat
  outDim : Nat
  norm : Bool
  maxIn : Nat
  vocab : Nat
  itemNs : Nat
  tokenNs : Nat
  thItem : Nat
  deriving DecidableEq, Repr

/-- Read a model. -/
def Model.read (d : List Byte) : Model :=
  { version := leAt d 0 1, input := leAt d 2 1, outFmt := leAt d 3 1, outDim := leAt d 4 2, norm := bitAt (leAt d 6 1) 0
    maxIn := leAt d 8 4, vocab := leAt d 12 4, itemNs := leAt d 16 4, tokenNs := leAt d 20 4, thItem := leAt d 24 8
    shards := (List.range (leAt d 1 1)).map (fun i => (leAt d (64 + 16 * i) 8, leAt d (72 + 16 * i) 8)) }

/-- A program object's header (Table Ruhaic 9). -/
structure ProgHeader where
  version : Nat
  entries : Nat
  codeOff : Nat
  codeLen : Nat
  dataOff : Nat
  dataLen : Nat
  scratch : Nat
  thBound : Nat
  lpdBound : Nat
  deriving DecidableEq, Repr

/-- Read a program header at an offset of an object's bytes. -/
def ProgHeader.read (d : List Byte) : ProgHeader :=
  { version := leAt d 0 1, entries := leAt d 1 1, codeOff := leAt d 4 4, codeLen := leAt d 8 4, dataOff := leAt d 12 4
    dataLen := leAt d 16 4, scratch := leAt d 20 4, thBound := leAt d 24 8, lpdBound := leAt d 32 2 }

/-- An entry (Table Ruhaic 10). -/
structure ProgEntry where
  start : Nat
  coresMax : Nat
  holdNs : Nat
  bundleMax : Nat
  mac8 : Nat
  mac16 : Nat
  ptu : Nat
  vop : Nat
  bund : Nat
  deriving DecidableEq, Repr

/-- Read entry `i` of a program. -/
def ProgEntry.read (d : List Byte) (i : Nat) : ProgEntry :=
  let o := 64 + 48 * i
  { start := leAt d o 4, coresMax := leAt d (o + 4) 2, holdNs := leAt d (o + 8) 4, bundleMax := leAt d (o + 12) 4
    mac8 := leAt d (o + 16) 4, mac16 := leAt d (o + 20) 4, ptu := leAt d (o + 24) 4, vop := leAt d (o + 28) 4
    bund := leAt d (o + 32) 4 }

/-- Bytes of an image in Tier S before its free region (R287). -/
def ProgHeader.imageBytes (h : ProgHeader) : Nat :=
  (((h.codeLen + 63) / 64 * 64 + h.dataLen) + 63) / 64 * 64 + h.scratch

/-- A program keeps the layout of R286 within an object of `size` bytes, and its sections fit the bank (R287). -/
def programOk (d : List Byte) (size : Nat) : Bool :=
  let h := ProgHeader.read d
  h.version == 1 && decide (1 ≤ h.entries ∧ h.entries ≤ 64) && h.codeOff % 64 == 0 && h.codeLen % 64 == 0 &&
  h.codeLen != 0 && decide (64 + 48 * h.entries ≤ size) && decide (h.codeOff + h.codeLen ≤ size) &&
  decide (h.dataOff + h.dataLen ≤ size) && decide (h.imageBytes ≤ 1572864) &&
  (List.range h.entries).all (fun i =>
    let e := ProgEntry.read d i
    decide (1 ≤ e.coresMax ∧ e.coresMax ≤ 192) && decide (1 ≤ e.bundleMax))

/-- A model keeps Table Sift 7: its fields and the extent of its shards within the object (R248). -/
def Model.ok (m : Model) (size : Nat) : Bool :=
  m.version == 1 && decide (1 ≤ m.shards.length ∧ m.shards.length ≤ 16) && m.input == 0 && decide (m.outFmt ≤ 1) &&
  decide (16 ≤ m.outDim ∧ m.outDim ≤ 4096) && m.outDim % 16 == 0 && decide (1 ≤ m.maxIn ∧ m.maxIn ≤ 8192) &&
  decide (1 ≤ m.vocab ∧ m.vocab ≤ 16777216) && m.shards.all (fun p => decide (p.2 ≤ 1572864 ∧ p.1 + p.2 ≤ size))

/-- An item of EMBED or EMBED AND INSERT: its vector ID, for the latter, and its tokens. -/
structure Item where
  id : Nat
  tokens : List Nat
  deriving DecidableEq, Repr

/-- The items of a block from an offset: none where one runs past the block or its length is out of range (R252). -/
def readItems (d : List Byte) (withId : Bool) (maxIn : Nat) : Nat → Nat → Option (List Item)
  | 0, o => if o = d.length then some [] else none
  | n + 1, o =>
    let h := if withId then 8 else 0
    let len := leAt d (o + h) 4
    let size := h + 8 + (4 * len + 7) / 8 * 8
    if len = 0 ∨ maxIn < len ∨ d.length < o + size then none
    else (readItems d withId maxIn n (o + size)).map (fun l =>
      { id := if withId then leAt d o 8 else 0, tokens := (List.range len).map (fun i => leAt d (o + h + 8 + 4 * i) 4) } :: l)

/-- Element `i` of the vector that a model computes for tokens under a scale block, as an FP32 code: it is what the
model's own shard code computes, the same for the same model, scales and tokens (R251; notes/assumptions/13.md). -/
opaque Config.embedding : (model scales : List Byte) → (tokens : List Nat) → (i : Nat) → BitVec 32

/-- The vector of an item, normalised in FP32 where the model says so. -/
def Model.vector (m : Model) (bytes scales : List Byte) (tokens : List Nat) : List Nat :=
  let x := (List.range m.outDim).map (fun i => (Config.embedding bytes scales tokens i).toNat)
  if m.norm then
    let n := fsqrt32 (dot32 x x)
    x.map (fun v => fdiv32 v n)
  else x

/-- An output element in OUT_FMT, held at the largest finite value where it is not finite, and whether it was (R251). -/
def Model.element (m : Model) (v : Nat) : Nat × Bool :=
  if m.outFmt = 0 then
    match of32 v with
    | .inf n => ((if n then 0xFF7FFFFF else 0x7F7FFFFF), true)
    | .nan => ((if bitAt v 31 then 0xFF7FFFFF else 0x7F7FFFFF), true)
    | _ => (v, false)
  else
    match of32 v with
    | .nan => ((if bitAt v 31 then 0xFF7F else 0x7F7F), true)
    | x => narrowF .bf16 .nearest x

end Sys2Proof.Machine
end

