-- ==== Sys2Proof/Machine/Plans.lean ====
section
/-!
DEFINITION. Opcodes, charges, plans, holds, cost and energy (spec/06_work_packets.md, R160 to R168; R44, R45, R69, R91 and
the plan rules of spec/07, 08, 09 and 10).
-/
namespace Sys2Proof.Machine

/-! ### Opcodes (Table Packet 4) -/

/-- What an opcode permits. -/
structure OpInfo where
  contractable : Bool
  shaft : Bool
  constellation : Bool := false
  deriving DecidableEq, Repr

/-- Table Packet 4, with R466's two constellation opcodes. -/
def opInfo : Nat → Option OpInfo
  | 0x0101 => some { contractable := true, shaft := true, constellation := true }
  | 0x0102 => some { contractable := true, shaft := true, constellation := true }
  | 0x0110 => some { contractable := true, shaft := true }
  | 0x0111 => some { contractable := false, shaft := true }
  | 0x0201 => some { contractable := true, shaft := true }
  | 0x0202 => some { contractable := true, shaft := true }
  | 0x0203 => some { contractable := false, shaft := false }
  | 0x0204 => some { contractable := false, shaft := false }
  | 0x0301 => some { contractable := true, shaft := false }
  | 0x0401 => some { contractable := true, shaft := true }
  | 0x0402 => some { contractable := true, shaft := true }
  | 0x0501 => some { contractable := true, shaft := false }
  | 0x0601 => some { contractable := true, shaft := true }
  | 0x0701 => some { contractable := false, shaft := false }
  | 0x0702 => some { contractable := true, shaft := false }
  | 0x0703 => some { contractable := true, shaft := false }
  | 0x0704 => some { contractable := true, shaft := false }
  | 0x0F01 => some { contractable := true, shaft := false }
  | _ => none

/-- Bits of the flags byte (Table Packet 2). -/
def Header.fContracted (h : Header) : Bool := bitAt h.flags 0

/-- See `Header.fContracted`. -/
def Header.fConstellation (h : Header) : Bool := bitAt h.flags 1

/-- See `Header.fContracted`. -/
def Header.fNoDemote (h : Header) : Bool := bitAt h.flags 3

/-- See `Header.fContracted`. -/
def Header.fProbe (h : Header) : Bool := bitAt h.flags 4

/-- The header fields of a packet (Table Packet 2); TENANT is not among them: the function decides it (R63). -/
def Header.read (d : List Byte) : Header :=
  { opcode := leAt d 0 2, version := leAt d 2 1, flags := leAt d 3 1 % 32, cls := leAt d 5 1, packetId := leAt d 8 8
    paramAddr := leAt d 16 8, paramLen := leAt d 24 4, answerLen := leAt d 28 4, answerAddr := leAt d 32 8
    primary := leAt d 40 8, secondary := leAt d 48 8, costCap := leAt d 56 4, notBefore := leAt d 60 4 }

/-- A packet that runs under a PLACE, PIN or other Headframe opcode: it holds no Ruhaic core. -/
def headframeOp (op : Nat) : Bool :=
  op == 0x0701 || op == 0x0702 || op == 0x0703 || op == 0x0704 || op == 0x0501 || op == 0x0F01 || op == 0x0203 || op == 0x0204

/-! ### Exact times -/

/-- A time in µs as an exact quotient. -/
structure Us where
  num : Nat
  den : Nat := 1
  deriving DecidableEq, Repr

/-- Sum. -/
def Us.add (a b : Us) : Us := { num := a.num * b.den + b.num * a.den, den := a.den * b.den }

/-- The larger. -/
def Us.max (a b : Us) : Us := if a.num * b.den < b.num * a.den then b else a

/-- Sixteenths of a core-frame that a hold is charged, rounded up (R44). -/
def Us.sixteenths (a : Us) (period : Nat) : Nat := ceilDiv (16 * a.num) (a.den * period)

/-- Time that a drift's read slots end later than its lodes alone take, in ns: the Cage's slot plan, which the spec does
not give in numbers, from what a plan reads there (R199, R232, R246; notes/assumptions/3.md). -/
opaque Config.slotExtra : (object drift pages : Nat) → Nat

/-- The planned end of a drift's last read slot: 18.236 µs a lode, 4.559 µs a page (R199, R246). -/
def slotEnd (object drift pages : Nat) : Us :=
  if pages = 0 then { num := 0 } else { num := 4559 * pages + Config.slotExtra object drift pages, den := 1000 }

/-! ### Energy (R91, Tables Ruhaic 11 and Tally 3) -/

/-- Counts of a plan. -/
structure Counts where
  lodes : Nat := 0
  pages : Nat := 0
  th : Nat := 0
  host : Nat := 0
  mac8 : Nat := 0
  mac16 : Nat := 0
  ptu : Nat := 0
  vop : Nat := 0
  bund : Nat := 0
  deriving DecidableEq, Repr

/-- The estimate in whole µJ: coefficients in hundredths of a pJ, rounded down, saturating (R91). -/
def Counts.energy (c : Counts) (more : Nat := 0) : Nat :=
  min (2 ^ 32 - 1) ((c.lodes * 89000000 + c.pages * 22250000 + c.th * 80 + c.host * 1000 + c.mac8 * 21 + c.mac16 * 42 +
    c.ptu * 11 + c.vop * 1800 + c.bund * 900 + more) / 100000000)

/-- Hundredths of a pJ of the operations whose counts an opcode's chapter does not list (SEAM INSERT, SEAM BUILD, APPEND KV,
SIFT, EMBED, EMBED AND INSERT), from the opcode, its block and its planned items (notes/assumptions/3.md). -/
opaque Config.planEnergy : (op : Nat) → (param : List Byte) → (items : Nat) → Nat

/-- The planned hold of SEAM BUILD CREATE in ns: the spec states none (notes/assumptions/3.md). -/
opaque Config.buildHold : (nlist dim samples iter : Nat) → Nat

/-! ### What a packet reads -/

/-- The index, KV body of an object. -/
def Object.index? (o : Object) : Option IndexBody := match o.body with | .index b => some b | _ => none

/-- See `Object.index?`. -/
def Object.kv? (o : Object) : Option KvBody := match o.body with | .kv b => some b | _ => none

/-- The object number of a handle. -/
def objNumber (h : Nat) : Nat := field h 0 48

/-- All bytes of an object (its marks aside). -/
def Object.all (o : Object) : List Byte := cgetBytes o.bytes 0 o.size

/-- A search block's fields (Table Seam 4). -/
structure Search where
  k : Nat
  nprobe : Nat
  qfmt : Nat
  dim : Nat
  rerankN : Nat
  lpdCap : Nat
  candCap : Nat
  qscale : Nat
  filtLen : Nat
  filtOff : Nat
  deriving DecidableEq, Repr

/-- Read a search block. -/
def Search.read (d : List Byte) : Search :=
  { k := leAt d 0 2, nprobe := leAt d 2 2, qfmt := leAt d 4 1, dim := leAt d 6 2, rerankN := leAt d 8 2, lpdCap := leAt d 10 2
    candCap := leAt d 12 4, qscale := leAt d 16 4, filtLen := leAt d 20 4, filtOff := leAt d 24 8 }

/-- The query's elements. -/
def Search.query (q : Search) (d : List Byte) : List Nat := readVec q.qfmt q.qscale q.dim (d.drop 64)

/-- The bytes of a filtered search's filter: inline after the query, or in the buffer from FILT_OFF. -/
def Search.filterBytes (q : Search) (d : List Byte) (buf : Option Object) : List Byte :=
  match buf with
  | some o => (o.all).drop q.filtOff
  | none => (d.drop (64 + q.dim * (qBytes q.qfmt).getD 4)).take q.filtLen

/-- k′ of R190. -/
def Search.kPrime (q : Search) : Nat := if q.rerankN = 0 then q.k else q.rerankN

/-- The fields of a SEAM INSERT block (R201). -/
structure Insert where
  op : Nat
  qfmt : Nat
  count : Nat
  qscale : Nat
  deriving DecidableEq, Repr

/-- Read an insert block. -/
def Insert.read (d : List Byte) : Insert := { op := leAt d 0 1, qfmt := leAt d 1 1, count := leAt d 4 4, qscale := leAt d 8 4 }

/-- The records of an insert: ID and vector, none for a vector R181 does not accept. -/
def readRecords (metric qfmt qscale dim count : Nat) (d : List Byte) : List (Nat × Option (List Nat)) :=
  let w := 8 + dim * (qBytes qfmt).getD 4
  (List.range count).map (fun i =>
    (leAt d (i * w) 8, acceptVec metric (readVec qfmt qscale dim (d.drop (i * w + 8)))))

/-- The fields of a SEAM BUILD block (R205). -/
structure Build where
  op : Nat
  inOff : Nat
  body : IndexBody
  iter : Nat
  qfmt : Nat
  sampleN : Nat
  qscale : Nat
  tokens : Bool
  deriving DecidableEq, Repr

/-- Read a build block; bytes 36 to 39 are SAMPLE_N or COUNT. -/
def Build.read (d : List Byte) : Build :=
  { op := leAt d 0 1, inOff := leAt d 8 8, iter := leAt d 25 1, qfmt := leAt d 26 1, sampleN := leAt d 36 4
    qscale := leAt d 40 4, tokens := bitAt (leAt d 44 1) 0
    body := { dim := leAt d 16 2, metric := leAt d 18 1, code := leAt d 19 1, m := leAt d 20 2, cfmt := leAt d 22 1
              rfmt := leAt d 23 1, replicas := leAt d 24 1, nlist := leAt d 28 4, seamCap := leAt d 32 4 } }

/-- The fields of a KV OPEN block (Table Attend 2) as a body. -/
def readKvOpen (d : List Byte) : KvBody :=
  { layers := leAt d 0 2, heads := leAt d 2 1, qpk := leAt d 3 1, dim := leAt d 4 2, kfmt := leAt d 6 1, vfmt := leAt d 7 1
    group := 32 * 2 ^ (leAt d 8 1), sfmt := leAt d 9 1, hotSinks := leAt d 10 1, hotRecent := leAt d 11 1
    maxTokens := leAt d 12 4 }

/-- The fields of an APPEND KV block. -/
def readAppend (d : List Byte) : Append :=
  { first := leAt d 0 2, layers := leAt d 2 2, start := leAt d 4 4, count := leAt d 8 4, data := d.drop 32 }

/-- A range of PIN, UNPIN or PREFETCH (Table Packet 6). -/
structure PinRange where
  off : Nat
  len : Nat
  lpdCap : Nat
  holdUntil : Nat
  deriving DecidableEq, Repr

/-- Read a range block. -/
def PinRange.read (d : List Byte) : PinRange :=
  { off := leAt d 0 8, len := leAt d 8 8, lpdCap := leAt d 16 2, holdUntil := leAt d 20 4 }

/-- The fields of a RUN PROGRAM block (R166). -/
structure RunProg where
  entry : Nat
  cores : Nat
  argLen : Nat
  inOff : Nat
  inLen : Nat
  deriving DecidableEq, Repr

/-- Read a RUN PROGRAM block. -/
def RunProg.read (d : List Byte) : RunProg :=
  { entry := leAt d 0 2, cores := leAt d 2 2, argLen := leAt d 4 4, inOff := leAt d 8 8, inLen := leAt d 16 8 }

/-! ### Charges (R69) -/

/-- MB of bytes, rounded up. -/
def megabytes (n : Nat) : Nat := ceilDiv n 1000000

/-- The bytes of R198 that are Tier H reads for a number of seams. -/
def Search.tierH (q : Search) (b : IndexBody) (filter : Option Filter) (seams rerank : Nat) : Nat :=
  b.nlist * b.dim * b.ec + seams * b.sl * 65536 +
  (match filter with
   | none => seams * min q.kPrime b.seamCap * 8
   | some f => seams * b.seamCap * 8 +
     (if f.form ≤ 2 then seams * b.seamCap * 64 else seams * b.seamCap * 8 * bitLen f.count)) +
  rerank * b.rb

/-- The pages of a SIFT's rows on each drift: 16 KiB units that hold a mapped sector (R244, R367). -/
def siftPages (n : Namespace) (blocks : Tbl SectorState) (slba first count : Nat) : List (Nat × Nat) :=
  let secs := (List.range count).filter (fun i => (tget? blocks (slba + (first + i) / n.sectorsPerLba)).isSome)
  let units := dedupNat (secs.map (fun i => (slba * n.sectorsPerLba + first + i) / 4))
  units.map (fun u => (nsDrift n.nsid u, u))

/-- How many entries of a list name a drift. -/
def onDrift (l : List (Nat × Nat)) (d : Nat) : Nat := (l.filter (fun p => p.1 == d)).length

/-- Lodes per drift that a SIFT is charged. -/
def siftLpd (q : Sift) (v : View) (n : Namespace) : Nat :=
  if q.lpdCap ≠ 0 then q.lpdCap
  else
    let first := q.rowFirst / v.rps
    let last := (q.rowFirst + q.rc v - 1) / v.rps
    let ps := siftPages n n.blocks v.slba first (last - first + 1)
    ceilDiv (maxNat ((List.range 64).map (onDrift ps))) 4

/-- Tier H bytes and lodes per drift of an opcode's charge. -/
def opCharge (h : Header) (d : List Byte) (prim sec : Option Object) (ns : Option Namespace) : Nat × Nat :=
  match h.opcode with
  | 0x0101 => match prim.bind Object.index? with
    | some b =>
      let q := Search.read d
      (q.tierH b none q.nprobe q.rerankN, searchLpd q b)
    | none => (0, 0)
  | 0x0102 => match prim.bind Object.index? with
    | some b =>
      let q := Search.read d
      (q.tierH b (some (Filter.read (q.filterBytes d sec))) q.nprobe q.rerankN, searchLpd q b)
    | none => (0, 0)
  | 0x0110 => match prim.bind Object.index? with
    | some b => (b.nlist * b.dim * b.ec + (Insert.read d).count * (b.dim * 4 + 16), 0)
    | none => (0, 0)
  | 0x0201 => match prim.bind Object.kv? with
    | some b =>
      let a := Attend.read d
      let nb := a.nb
      let sel := a.mode == 0
      let x := if sel then min nb (a.sinks + a.recent + a.topB) else nb
      let u := if sel then min nb (a.sinks + a.recent + b.heads * a.topB) else nb
      let lodes := b.heads * b.tileLodes * x + b.scaleLodes * u
      (nb * b.heads * 4 * b.dim + lodes * 65536 + b.heads * 256 * 4 * b.dim, if a.lpdCap ≠ 0 then a.lpdCap else lodes)
    | none => (0, 0)
  | 0x0202 => match prim.bind Object.kv? with
    | some b => (h.paramLen + b.closes (readAppend d) * b.stripe * 65536, 0)
    | none => (0, 0)
  | 0x0301 => match prim, ns with
    | some o, some n =>
      let v := View.read o.all
      let q := Sift.read d
      (65536 + (if sec.isSome then (q.rc v + 7) / 8 else 0) + 2 * (64 + h.answerLen), siftLpd q v n)
    | _, _ => (0, 0)
  | 0x0401 => match prim with
    | some o => (h.paramLen + leAt d 0 4 * (Model.read o.all).thItem + 64 + h.answerLen, 0)
    | none => (0, 0)
  | 0x0402 => match prim, sec.bind Object.index? with
    | some o, some b =>
      (h.paramLen + leAt d 0 4 * (Model.read o.all).thItem + 64 + h.answerLen + b.nlist * b.dim * b.ec +
        leAt d 0 4 * (b.dim * 4 + 16), 0)
    | _, _ => (0, 0)
  | 0x0601 => match prim with
    | some o => ((ProgHeader.read o.all).thBound, (ProgHeader.read o.all).lpdBound)
    | none => (0, 0)
  | 0x0702 => pinCharge d
  | 0x0704 => pinCharge d
  | _ => (0, 0)
where
  /-- Lodes per drift of a search (R198). -/
  searchLpd (q : Search) (b : IndexBody) : Nat :=
    if q.lpdCap ≠ 0 then q.lpdCap
    else b.sl * min q.nprobe (ceilDiv b.nlist 64 * (1 + b.replicas)) +
      (if q.rerankN = 0 then 0 else ceilDiv (q.rerankN * ceilDiv b.rb 4096) 16)
  /-- The charge of PIN and PREFETCH. -/
  pinCharge (d : List Byte) : Nat × Nat :=
    let r := PinRange.read d
    (r.len, if r.lpdCap ≠ 0 then r.lpdCap else r.len / 65536)

/-- The charges of a packet (R69); a constellation packet's on its foreman (R466). -/
def chargesOf (h : Header) (d : List Byte) (prim sec : Option Object) (ns : Option Namespace) : Charges :=
  let c := opCharge h d prim sec ns
  let far := h.fConstellation
  { cf := if far then 16 * (1 + h.costCap) else 16 * h.costCap
    th := if far then 0 else megabytes c.1
    lpd := if far then 0 else c.2
    hin := ceilDiv (64 + 256 + h.paramLen) 1000
    hout := ceilDiv (64 + h.answerLen + 16) 1000 }

/-- Host bytes of R69 before rounding. -/
def Header.hostBytes (h : Header) : Nat := 64 + 256 + h.paramLen + 64 + h.answerLen + 16

/-! ### Plans -/

/-- What bounds a plan: the core-frame cap in sixteenths (none without one), the lodes a drift may read (none without a
cap), the period in µs, the shaft cores it may take, and the drifts that can run. -/
structure PlanCtx where
  cap : Option Nat
  lpd : Option Nat
  period : Nat
  shaft : Nat := 16
  drift : Nat → Bool := fun _ => true

/-- A count is within a bound. -/
def within (n : Nat) (bound : Option Nat) : Bool := bound.elim true (fun b => decide (n ≤ b))

/-- A cap that a packet declares, 0 for none. -/
def declared (n : Nat) : Option Nat := if n = 0 then none else some n

/-- The hold of a centroid core for `nq` queries over `cores` cores (R199, R204). -/
def IndexBody.stageHold (b : IndexBody) (nq cores : Nat) : Us :=
  let rate := if b.cfmt = 0 then 281600 else 140800
  ({ num := 3 } : Us).add
    (({ num := b.nlist * b.dim * b.ec, den := 1666667 } : Us).max { num := nq * b.nlist * b.dim, den := cores * rate })

/-- What a search has planned so far: seams with their drifts, lodes by drift, and candidates. -/
structure SeamPlan where
  seams : List (Nat × Nat) := []
  lodes : Tbl Nat := []
  cands : Nat := 0
  left : Bool := false
  deriving DecidableEq, Repr

/-- The scan cost of the planned drifts (R199). -/
def SeamPlan.cost (p : SeamPlan) (object period : Nat) (tc : Us) : Nat :=
  sumNat (p.lodes.map (fun (d, n) => ((tc.add (slotEnd object d (4 * n))).add { num := 2 }).sixteenths period))

/-- The copy of a seam that a plan scans: the eligible drift with fewer of its lodes, the primary on a tie (R197). -/
def IndexBody.chooseCopy (b : IndexBody) (num j : Nat) (p : SeamPlan) (ok : Nat → Bool) : Nat :=
  let a := seamDrift num j false
  let r := seamDrift num j true
  if b.replicas = 0 then a
  else if !ok a then (if ok r then r else a)
  else if !ok r then a
  else if tgetD p.lodes r 0 < tgetD p.lodes a 0 then r else a

/-- Take one seam, unless it would break a cap (R195). -/
def IndexBody.takeSeam (b : IndexBody) (num : Nat) (q : Search) (c : PlanCtx) (tc : Us) (fixedCost : Nat) (p : SeamPlan)
    (j : Nat) : SeamPlan :=
  let d := b.chooseCopy num j p c.drift
  let p' : SeamPlan := { p with seams := p.seams ++ [(j, d)], lodes := tmod p.lodes d 0 (· + b.sl)
                                cands := p.cands + (b.visible j).length }
  if within (tgetD p'.lodes d 0) c.lpd && within (fixedCost + p'.cost num c.period tc) c.cap &&
    within p'.cands (declared q.candCap) then p' else { p with left := true }

/-- The plan of a search (R195 to R200). -/
def IndexBody.searchPlan (b : IndexBody) (o : Object) (h : Header) (q : Search) (query : List Nat) (filter : Option Filter)
    (c : PlanCtx) : Plan :=
  let num := objNumber o.handle
  let tc := b.stageHold 1 c.shaft
  let stage := c.shaft * tc.sixteenths c.period
  let merge := ({ num := 2 } : Us).sixteenths c.period
  if !within (stage + merge) c.cap then
    { fits := false, trunc := true, energy := ({ host := h.hostBytes } : Counts).energy }
  else
    let p := (b.nearest query q.nprobe).foldl (b.takeSeam num q c tc (stage + merge)) {}
    let scans := p.cost num c.period tc
    let perDrift := fun d => min q.rerankN (sumNat ((p.seams.filter (fun s => seamDrift num s.1 false == d)).map (fun s => (b.visible s.1).length)))
    let rrLodes := fun d => ceilDiv (perDrift d * ceilDiv b.rb 4096) 16
    let most := maxNat ((List.range 64).map (fun d => perDrift d * b.rb))
    let merge' := ((({ num := 62 } : Us).add { num := 100 * most, den := 359375 }).add
      { num := q.rerankN * b.dim, den := 140800 }).sixteenths c.period
    let fitsRr := within (stage + scans + merge') c.cap && (List.range 64).all (fun d => within (tgetD p.lodes d 0 + rrLodes d) c.lpd)
    let rr := q.rerankN != 0 && fitsRr
    let nlodes := sumNat (p.lodes.map (·.2)) + (if rr then sumNat ((List.range 64).map rrLodes) else 0)
    let sets := if b.code = 1 then (if b.metric = 0 then p.seams.length else p.lodes.length) else 0
    let cen := b.nlist * b.dim
    let counts : Counts :=
      { lodes := nlodes, th := q.tierH b filter p.seams.length (if rr then q.rerankN else 0), host := h.hostBytes
        mac8 := (if b.cfmt = 0 then cen else 0) + (if b.code = 1 then 0 else b.dim * p.cands)
        mac16 := (if b.cfmt = 0 then 0 else cen) + 16 * b.dim * sets + (if rr then q.rerankN * b.dim else 0)
        ptu := if b.code = 1 then b.m * p.cands else 0 }
    { items := p.seams.map (·.1), rerank := rr, drifts := p.seams.map (·.2), shaft := c.shaft
      lodes := p.seams.flatMap (fun s => (List.range b.sl).map (fun i =>
        o.base + b.seamLode s.1 (s.2 != seamDrift num s.1 false) + i))
      cost := stage + scans + (if rr then merge' else merge), energy := counts.energy
      trunc := p.left || (q.rerankN != 0 && !fitsRr) }

/-- The largest count up to `n` whose cost is within a cap. -/
def fitting (cap : Option Nat) (cost : Nat → Nat) : Nat → Nat
  | 0 => 0
  | n + 1 => if within (cost (n + 1)) cap then n + 1 else fitting cap cost n

/-- A plan over leading items. -/
def leadingPlan (c : PlanCtx) (op : Nat) (h : Header) (d : List Byte) (n cores : Nat) (hold : Nat → Us) : Plan :=
  let cost := fun k => cores * (hold k).sixteenths c.period
  let k := fitting c.cap cost n
  { fits := k != 0, items := [k], shaft := cores, cost := if k = 0 then 0 else cost k, trunc := decide (k < n)
    energy := ({ host := h.hostBytes } : Counts).energy (Config.planEnergy op d k) }

/-- The hold of SEAM INSERT for `n` records (R204). -/
def IndexBody.insertHold (b : IndexBody) (n cores : Nat) : Us := (b.stageHold n cores).add { num := n }

/-- The plan of an APPEND KV: one item (R219). -/
def KvBody.appendPlan (b : KvBody) (h : Header) (d : List Byte) (c : PlanCtx) : Plan :=
  let a := readAppend d
  let cores := min a.layers 16
  let hold := fun j : Nat =>
    let mine := (List.range a.layers).filter (fun i => i % cores == j)
    let bytes := mine.length * a.count * b.heads * 4 * b.dim
    let stripes := sumNat (mine.map (fun i => (b.len (a.first + i) + a.count) / 256 - b.len (a.first + i) / 256))
    (({ num := 4 + 20 * stripes } : Us).add { num := bytes, den := 65536 }).sixteenths c.period
  let cost := sumNat ((List.range cores).map hold)
  if within cost c.cap then
    { items := [1], shaft := cores, cost := cost
      energy := ({ host := h.hostBytes } : Counts).energy (Config.planEnergy 0x0202 d 1) }
  else { fits := false, trunc := true, energy := ({ host := h.hostBytes } : Counts).energy }

/-- What an ATTEND has planned so far. -/
structure AttendPlan where
  items : List (Nat × Nat) := []
  lodes : Tbl Nat := []
  scaled : List Nat := []
  mx : Nat := 0
  bf : Nat := 0
  left : Bool := false
  deriving DecidableEq, Repr

/-- The hold of an ATTEND core (R232). -/
def KvBody.attendHold (b : KvBody) (a : Attend) (num : Nat) (p : AttendPlan) : Us :=
  let sel := ({ num := 3 } : Us).add
    (({ num := a.nb * b.heads * 4 * b.dim, den := 1666667 } : Us).max { num := a.nb * b.qHeads * 2 * b.dim, den := 2252800 })
  let ts := p.lodes.foldl (fun m (d, n) => m.max (slotEnd num d (4 * n))) ({ num := 0 } : Us)
  let mac := ({ num := p.mx, den := 4505600 } : Us).add { num := p.bf, den := 2252800 }
  (sel.add (ts.max mac)).add { num := 4 }

/-- Take one item, unless it would break a cap (R229). -/
def KvBody.takeItem (b : KvBody) (a : Attend) (num : Nat) (c : PlanCtx) (p : AttendPlan) (it : Nat × Nat) : AttendPlan :=
  let closed := decide (it.2 < b.len a.layer / 256)
  let d := stripeDrift num a.layer it.2
  let free := !closed || b.hot a.layer it.2
  let n := if free then 0 else b.tileLodes + (if p.scaled.contains it.2 then 0 else b.scaleLodes)
  let macs := a.tokens it.2 * b.qpk * b.dim
  let kmx := closed && b.kfmt != 0
  let vmx := closed && b.vfmt != 0
  let p' : AttendPlan :=
    { p with items := p.items ++ [it], lodes := if n = 0 then p.lodes else tmod p.lodes d 0 (· + n)
             scaled := if free then p.scaled else it.2 :: p.scaled
             mx := p.mx + (if kmx then macs else 0) + (if vmx then macs else 0)
             bf := p.bf + (if kmx then 0 else macs) + (if vmx then 0 else macs) }
  if within (tgetD p'.lodes d 0) c.lpd && within (16 * (b.attendHold a num p').sixteenths c.period) c.cap &&
    within p'.items.length (declared a.candCap) then p' else { p with left := true }

/-- The plan of an ATTEND (R229 to R234). -/
def KvBody.attendPlan (b : KvBody) (o : Object) (h : Header) (d : List Byte) (c : PlanCtx) : Plan :=
  let a := Attend.read d
  let num := objNumber o.handle
  if !within (16 * (b.attendHold a num {}).sixteenths c.period) c.cap then
    { fits := false, trunc := true, energy := ({ host := h.hostBytes } : Counts).energy }
  else
    let p := (b.items a).foldl (b.takeItem a num c) {}
    let staged := p.items.filter (fun it => decide (it.2 < b.len a.layer / 256) && !b.hot a.layer it.2)
    let near := p.items.filter (fun it => b.hot a.layer it.2)
    let openItems := p.items.filter (fun it => decide (b.len a.layer / 256 ≤ it.2))
    let blocks := dedupNat (staged.map (·.2))
    let n := staged.length * b.tileLodes + blocks.length * b.scaleLodes
    let nearLodes := near.length * b.tileLodes + (dedupNat (near.map (·.2))).length * b.scaleLodes
    let openBytes := sumNat (openItems.map (fun it => a.tokens it.2 * 4 * b.dim))
    let w := fun blk => o.base + b.stripeLode a.layer blk
    { items := p.items.map (fun it => it.1 * 65536 + it.2), shaft := 16
      lodes := blocks.flatMap (fun blk => (List.range b.scaleLodes).map (fun i => w blk + i)) ++
        staged.flatMap (fun it => (List.range b.tileLodes).map (fun i => w it.2 + b.scaleLodes + it.1 * b.tileLodes + i))
      cost := 16 * (b.attendHold a num p).sixteenths c.period, trunc := p.left
      energy := ({ lodes := n, th := a.nb * b.heads * 4 * b.dim + (n + nearLodes) * 65536 + openBytes, host := h.hostBytes
                   mac16 := a.nb * b.qHeads * 2 * b.dim + p.bf, mac8 := p.mx } : Counts).energy }

/-- The drift that evaluates a sector of a view: the channel of its page (R244). -/
def sectorDrift (n : Namespace) (slba k : Nat) : Nat := nsDrift n.nsid ((slba * n.sectorsPerLba + k) / 4)

/-- The cost of a SIFT over `k` sectors from `first` (R246). -/
def siftCost (q : Sift) (v : View) (n : Namespace) (blocks : Tbl SectorState) (num answerLen period first k : Nat) : Nat :=
  let secs := (List.range k).map (fun i => sectorDrift n v.slba (first + i))
  let ps := siftPages n blocks v.slba first k
  let drifts := sortBy (fun a b => decide (a < b)) (dedupNat secs)
  let rc := q.rc v
  let extra := (({ num := 2 } : Us).add { num := 64 + answerLen, den := 1666667 }).add
    { num := if q.form = 3 ∧ v.idCol ≠ 0xFF then rc * bitLen rc else 0, den := 70400 }
  sumNat (drifts.map (fun d =>
    let rows := (secs.filter (· == d)).length * v.rps
    let hold := (({ num := 4 } : Us).add ((slotEnd num d (onDrift ps d)).max { num := rows * q.weight v, den := 70400 }))
    ((if some d = drifts.head? then hold.add extra else hold) : Us).sixteenths period))

/-- The plan of a SIFT: leading sectors (R244 to R246). -/
def siftPlan (q : Sift) (v : View) (n : Namespace) (blocks : Tbl SectorState) (o : Object) (h : Header) (d : List Byte)
    (c : PlanCtx) : Plan :=
  let first := q.rowFirst / v.rps
  let total := (q.rowFirst + q.rc v - 1) / v.rps - first + 1
  let num := objNumber o.handle
  let ok := fun k : Nat =>
    within (siftCost q v n blocks num h.answerLen c.period first k) c.cap &&
    (let ps := siftPages n blocks v.slba first k
     (List.range 64).all (fun x => within (onDrift ps x) (c.lpd.map (4 * ·)))) &&
    within (min ((first + k) * v.rps) (q.rowFirst + q.rc v) - q.rowFirst) ((declared q.candCap).map (1024 * ·))
  let k := siftFit ok total 0
  let drifts := sortBy (fun a b => decide (a < b)) (dedupNat ((List.range k).map (fun i => sectorDrift n v.slba (first + i))))
  { fits := k != 0, items := [k], driftCores := drifts, trunc := decide (k < total)
    cost := if k = 0 then 0 else siftCost q v n blocks num h.answerLen c.period first k
    energy := ({ pages := (siftPages n blocks v.slba first k).length, host := h.hostBytes } : Counts).energy
      (Config.planEnergy 0x0301 d k) }
where
  /-- Sectors in order up to the first that breaks a cap. -/
  siftFit (ok : Nat → Bool) : Nat → Nat → Nat
    | 0, k => k
    | f + 1, k => if ok (k + 1) then siftFit ok f (k + 1) else k

/-- The items of an EMBED block. -/
def embedItems (h : Header) (m : Model) (d : List Byte) : List Item :=
  (readItems d (h.opcode == 0x0402) m.maxIn (leAt d 0 4) 32).getD []

/-- The plan of EMBED and EMBED AND INSERT (R255). -/
def embedPlan (o : Object) (sec : Option IndexBody) (h : Header) (d : List Byte) (c : PlanCtx) : Plan :=
  let m := Model.read o.all
  let items := embedItems h m d
  let sh := m.shards.length
  let hold := fun k : Nat =>
    let ns := sumNat ((items.take k).map (fun it => m.itemNs + m.tokenNs * it.tokens.length)) + (sh - 1) * m.itemNs
    let base := ({ num := 3 } : Us).add { num := ns, den := 1000 }
    match sec with
    | some b => base.add (b.insertHold k sh)
    | none => base
  { leadingPlan c h.opcode h d items.length sh hold with image := o.handle }

/-- The plan of a RUN PROGRAM: one item (R289). -/
def programPlan (o : Object) (d : List Byte) (c : PlanCtx) : Plan :=
  let r := RunProg.read d
  let hd := ProgHeader.read o.all
  let e := ProgEntry.read o.all r.entry
  let cost := r.cores * (({ num := 128 * e.holdNs + hd.scratch, den := 128000 } : Us)).sixteenths c.period
  if within cost c.cap then
    { items := [1], shaft := r.cores, image := o.handle, cost := cost
      energy := ({ mac8 := r.cores * 1024 * e.mac8, mac16 := r.cores * 1024 * e.mac16, ptu := r.cores * 1024 * e.ptu
                   vop := r.cores * 1024 * e.vop, bund := r.cores * 1024 * e.bund } : Counts).energy }
  else { fits := false, trunc := true }

/-- The drift of an object's lode that has a Tier F copy (R369). -/
def Object.lodeDrift (o : Object) (i : Nat) : Option Nat := (tget? o.tierF i).map (·.1)

/-- The lodes of a range that PIN or PREFETCH takes, in order: those it must read, those it leaves out (R165). -/
structure RangePlan where
  taken : List Nat := []
  read : List Nat := []
  left : Nat := 0
  drifts : Tbl Nat := []
  deriving DecidableEq, Repr

/-- An open or unwritten stripe of a KV object, which no PIN, UNPIN or PREFETCH stages (R212). -/
def Object.notClosed (o : Object) (i : Nat) : Bool :=
  match o.body with
  | .kv b =>
    let stripe := i / b.stripe
    decide (b.len (stripe / b.maxBlocks) / 256 ≤ stripe % b.maxBlocks)
  | _ => false

/-- Take lode `i` of an object. -/
def RangePlan.take (c : Cage) (o : Object) (cap : Nat) (p : RangePlan) (i : Nat) : RangePlan :=
  if o.notClosed i then p
  else
    match c.find (o.base + i), o.lodeDrift i with
    | some _, _ => { p with taken := p.taken ++ [i] }
    | none, none => { p with taken := p.taken ++ [i] }
    | none, some d =>
      if cap ≠ 0 ∧ cap < tgetD p.drifts d 0 + 1 then { p with left := p.left + 1 }
      else { p with taken := p.taken ++ [i], read := p.read ++ [i], drifts := tmod p.drifts d 0 (· + 1) }

/-- The range plan of a block over an object. -/
def rangePlan (c : Cage) (o : Object) (r : PinRange) : RangePlan :=
  ((List.range (r.len / 65536)).map (fun i => r.off / 65536 + i)).foldl (RangePlan.take c o r.lpdCap) {}

/-- The plan of a Headframe opcode: no core, no cost; the lode reads and Tier H bytes of PIN and PREFETCH (R165). -/
def headframePlan (c : Cage) (h : Header) (d : List Byte) (prim : Option Object) : Plan :=
  match h.opcode, prim with
  | 0x0702, some o => pin o
  | 0x0704, some o => pin o
  | op, _ => { energy := ({} : Counts).energy (if op = 0x0701 then Config.planEnergy op d 1 else 0) }
where
  /-- PIN and PREFETCH. -/
  pin (o : Object) : Plan :=
    let r := rangePlan c o (PinRange.read d)
    let out := r.taken.filter (fun i => (c.find (o.base + i)).isNone)
    { items := r.taken, lodes := out.map (o.base + ·), trunc := r.left != 0
      energy := ({ lodes := r.read.length, th := out.length * 65536 } : Counts).energy }

/-- The plan of a packet over its inputs. -/
def planOf (cage : Cage) (h : Header) (d : List Byte) (prim sec : Option Object) (ns : Option (Namespace × Tbl SectorState))
    (c : PlanCtx) : Plan :=
  match h.opcode, prim with
  | 0x0101, some o => searchOf o
  | 0x0102, some o => searchOf o
  | 0x0110, some o => match o.index? with
    | some b => leadingPlan c 0x0110 h d (Insert.read d).count 16 (fun n => b.insertHold n 16)
    | none => {}
  | 0x0111, prim =>
    let bd := Build.read d
    match bd.op, prim.bind Object.index? with
    | 1, some b => leadingPlan c 0x0111 h d bd.sampleN 16 (fun n => b.insertHold n 16)
    | _, _ => leadingPlan c 0x0111 h d 1 16 (fun _ =>
        { num := Config.buildHold bd.body.nlist bd.body.dim bd.sampleN bd.iter, den := 1000 })
  | 0x0201, some o => match o.kv? with
    | some b => b.attendPlan o h d c
    | none => {}
  | 0x0202, some o => match o.kv? with
    | some b => b.appendPlan h d c
    | none => {}
  | 0x0301, some o => match ns with
    | some (n, blocks) => siftPlan (Sift.read d) (View.read o.all) n blocks o h d c
    | none => {}
  | 0x0401, some o => embedPlan o none h d c
  | 0x0402, some o => embedPlan o (sec.bind Object.index?) h d c
  | 0x0601, some o => programPlan o d c
  | _, prim => headframePlan cage h d prim
where
  /-- A search over an index. -/
  searchOf (o : Object) : Plan :=
    match o.index? with
    | some b =>
      let q := Search.read d
      let query := (prepared b.metric (q.query d)).getD []
      let filter := if h.opcode = 0x0102 then some (Filter.read (q.filterBytes d sec)) else none
      b.searchPlan o h q query filter c
    | none => {}

end Sys2Proof.Machine
end

