-- ==== Sys2Proof/Machine/Intake.lean ====
section
/-!
DEFINITION. Intake: doorbells, SUBMIT WORK and its validation, the receipt point, ABORT WORK
(spec/06_work_packets.md, R142 to R168, R174; spec/02_meridian_frame.md, R32 to R34; the validation rules of spec/07, 08, 09,
10, 12 and 16).
-/
namespace Sys2Proof.Machine

/-! ### Refusals -/

/-- A refusal: status, reason, and the offset of the field involved, in the packet or in the parameter block. -/
structure Reject where
  status : AnsStatus
  reason : Nat
  off : Nat
  inParam : Bool := false
  deriving DecidableEq, Repr

/-- REFUSED_MALFORMED over a header field. -/
def mal (reason off : Nat) : Reject := { status := .refusedMalformed, reason := reason, off := off }

/-- REFUSED_MALFORMED over a field of the parameter block. -/
def malP (reason off : Nat) : Reject := { status := .refusedMalformed, reason := reason, off := off, inParam := true }

/-- The first check that fails decides (R151). -/
def firstBad (l : List (Bool × Reject)) : Option Reject := (l.find? (·.1)).map (·.2)

/-- A number lies outside a range. -/
def outside (v lo hi : Nat) : Bool := decide (v < lo ∨ hi < v)

/-! ### Regions (R143 to R146) -/

/-- Why a region cannot be used. -/
inductive RegionFault
  | invalid | unreadable
  deriving DecidableEq, Repr

/-- The runs of `n` bytes that a PRP list's entries name: the first at its offset, later ones page-aligned. -/
def listRuns (page align n : Nat) : List Nat → Option (List (Nat × Nat))
  | [] => if n = 0 then some [] else none
  | a :: rest =>
    if n = 0 then some []
    else if a % align ≠ 0 then none
    else
      let k := min n (page - a % page)
      (listRuns page page (n - k) rest).map ((a, k) :: ·)

/-- The runs of a region of `n` bytes behind a region pointer, whose address keeps `align`; `list` holds the entries of its
PRP list, none where the list cannot be read (R143, R144). -/
def region (page ptr n align : Nat) (list : Option (List Nat)) : Except RegionFault (List (Nat × Nat)) :=
  let a := ptr / 4 * 4
  match ptr % 4 with
  | 0 => if a % align ≠ 0 ∨ page < a % page + n then .error .invalid else .ok [(a, n)]
  | 1 =>
    if a % 8 ≠ 0 then .error .invalid
    else match list with
      | none => .error .unreadable
      | some l => match listRuns page align n l with
        | some rs => .ok rs
        | none => .error .invalid
  | _ => .error .invalid

/-- Locate the parameter block (R146): `block` holds the bytes of one in host memory, none where it or its list is not valid
or cannot be read. -/
def locate (page : Nat) (h : Header) (pkt : List Byte) (block : Option (List Byte)) : Except Reject (List Byte) :=
  if h.paramLen = 0 then .ok []
  else if h.paramAddr = 0 then
    if 192 < h.paramLen then .error (mal 4 24) else .ok (sliceBytes pkt 64 h.paramLen)
  else if 16777216 < h.paramLen then .error (mal 4 24)
  else
    let a := h.paramAddr / 4 * 4
    let bad := match h.paramAddr % 4 with
      | 0 => decide (page < a % page + h.paramLen)
      | 1 => a % 8 != 0
      | _ => true
    match bad, block with
    | false, some d => .ok (padTo h.paramLen d)
    | _, _ => .error (mal 4 16)

/-! ### The parameter block by itself (R151, step 4) -/

/-- A vector of QFMT has a NaN or infinite element after its scale (R181). -/
def badVec (qfmt scale dim : Nat) (d : List Byte) : Bool := (readVec qfmt scale dim d).any notFinite32

/-- Whole 64-bit ones: the ID of an empty slot (R177). -/
def noId : Nat := 2 ^ 64 - 1

/-- The checks of a block that need nothing but the block and the header; then the minimum answer length where the
block alone gives it. -/
def blockChecks (h : Header) (d : List Byte) : List (Bool × Reject) :=
  let len := h.paramLen
  let least := fun n : Nat => (decide (len < n), mal 4 24)
  let exact := fun n : Nat => (len != n, mal 4 24)
  let minAns := fun n : Nat => (decide (h.answerLen < n), mal 7 28)
  match h.opcode with
  | 0x0101 => search len least minAns
  | 0x0102 => search len least minAns
  | 0x0110 =>
    let q := Insert.read d
    [least 32, (decide (1 < q.op), malP 3 0), (q.op == 0 && (qBytes q.qfmt).isNone, malP 3 1),
     (outside q.count 1 65536, malP 4 4), (q.op == 1 && len != 32 + 8 * q.count, mal 4 24),
     minAns (if q.op = 0 then 16 + 8 * q.count else 16)]
  | 0x0111 =>
    let b := Build.read d
    let x := b.body
    let create := b.op == 0
    [exact 64, (decide (1 < b.op), malP 3 0),
     (create && (outside x.dim 16 4096 || x.dim % 16 != 0), malP 4 16), (create && decide (2 < x.metric), malP 3 18),
     (create && x.code != 1 && x.code != 2, malP 3 19),
     (create && x.code == 1 && ! [2, 4, 8, 16].any (fun k => x.m * k == x.dim), malP 4 20),
     (create && decide (1 < x.cfmt), malP 3 22), (create && decide (2 < x.rfmt), malP 3 23),
     (create && decide (1 < x.replicas), malP 4 24), (create && outside b.iter 1 64, malP 4 25),
     ((qBytes b.qfmt).isNone, malP 3 26), (create && outside x.nlist 1 1048576, malP 4 28),
     (create && (outside x.seamCap 256 65536 || x.seamCap % 256 != 0), malP 4 32),
     (create && outside b.sampleN (max x.nlist 16) 16777216, malP 4 36), (b.op == 1 && b.sampleN == 0, malP 4 36),
     minAns (if b.op = 1 ∧ b.tokens then 16 + 8 * b.sampleN else 16)]
  | 0x0201 =>
    let a := Attend.read d
    [least 32, (decide (1 < a.mode), malP 4 2), (leAt d 3 1 != 1, malP 3 3), (a.mode == 0 && decide (64 < a.sinks), malP 4 8),
     (a.mode == 0 && decide (256 < a.recent), malP 4 10), (a.mode == 0 && decide (4096 < a.topB), malP 4 12),
     (bitAt a.scale 31 || a.scale == 0 || notFinite32 a.scale, malP 3 20)]
  | 0x0202 =>
    let a := readAppend d
    [least 32, (a.layers == 0, malP 4 2), (outside a.count 1 65536, malP 4 8), (leAt d 12 1 != 1, malP 4 12), minAns 16]
  | 0x0203 =>
    let b := readKvOpen d
    let mx := b.kfmt != 0 || b.vfmt != 0
    [exact 32, (outside b.layers 1 256, malP 4 0), (outside b.heads 1 64, malP 4 2), (outside b.qpk 1 16, malP 4 3),
     (! [64, 128, 256].contains b.dim, malP 4 4), (decide (2 < b.kfmt), malP 3 6), (decide (2 < b.vfmt), malP 3 7),
     (mx && decide (2 < leAt d 8 1), malP 3 8), (b.kfmt != 0 && decide (b.dim < b.group), malP 4 8),
     (mx && decide (1 < b.sfmt), malP 3 9), (decide (64 < b.hotSinks), malP 4 10), (outside b.hotRecent 1 64, malP 4 11),
     (outside b.maxTokens 256 4194304 || b.maxTokens % 256 != 0, malP 4 12), minAns 16]
  | 0x0204 => [exact 0, minAns 16]
  | 0x0301 =>
    let n := leAt d 2 2
    [least 64, (! [0x10, 0x11, 0x12, 0x01, 0x03].contains (leAt d 0 1), malP 3 0), (outside n 1 256, malP 4 2), least (64 + 24 * n),
     (decide (64 + 24 * n + 65536 < len), mal 4 24), minAns 32]
  | 0x0401 => [least 32, (outside (leAt d 0 4) 1 1024, malP 4 0)]
  | 0x0402 => [least 32, (outside (leAt d 0 4) 1 1024, malP 4 0), minAns (16 + 8 * leAt d 0 4)]
  | 0x0501 =>
    let first := leAt d 0 2
    let n := leAt d 2 2
    [exact 8, (decide (255 < first), malP 4 0), (outside n 1 256 || decide (256 < first + n), malP 4 2),
     (decide (1 < leAt d 4 1), malP 3 4), minAns (288 * n)]
  | 0x0601 =>
    let r := RunProg.read d
    [least 32, (outside r.cores 1 192, malP 4 2), (decide (65536 < r.argLen), malP 4 4), exact (32 + r.argLen),
     (h.secondary == 0 && r.inOff != 0, malP 4 8), (h.secondary == 0 && r.inLen != 0, malP 4 16)]
  | 0x0701 =>
    let op := leAt d 0 1
    let both := bitAt (leAt d 3 1) 0 && bitAt (leAt d 3 1) 1
    [exact 32, (decide (2 < op), malP 3 0), (op == 0 && outside (leAt d 1 1) 3 6, malP 3 1),
     (op != 2 && decide (3 < leAt d 2 1), malP 3 2), (op == 0 && both, malP 3 3),
     (op == 0 && outside (leAt d 8 8) 1 (2 ^ 44), malP 4 8), minAns 16]
  | 0x0702 => range exact minAns
  | 0x0703 => range exact minAns
  | 0x0704 => range exact minAns
  | 0x0F01 => [exact 0, minAns 64]
  | _ => []
where
  /-- A search block (R192 to R194, R209). -/
  search (len : Nat) (least minAns : Nat → Bool × Reject) : List (Bool × Reject) :=
    let q := Search.read d
    let filtered := h.opcode == 0x0102 && h.secondary == 0
    let fo := 64 + q.dim * (qBytes q.qfmt).getD 4
    let f := Filter.read (d.drop fo)
    [least 64, (outside q.k 1 1024, malP 4 0), (outside q.nprobe 1 4096, malP 4 2), ((qBytes q.qfmt).isNone, malP 3 4),
     (outside q.dim 16 4096 || q.dim % 16 != 0, malP 4 6),
     (q.rerankN != 0 && outside q.rerankN q.k 1024, malP 4 8),
     (len != fo + (if filtered then q.filtLen else 0), mal 4 24),
     (badVec q.qfmt q.qscale q.dim (d.drop 64), malP 3 64),
     (filtered && decide (q.filtLen < 32), malP 4 20), (filtered && !f.formOk, malP 3 fo),
     (filtered && !f.countOk, malP 4 (fo + 16)), (filtered && decide (q.filtLen < 32 + filterBytes f.form f.count), malP 4 20),
     minAns (16 * q.k)]
  /-- A range block (R164). -/
  range (exact minAns : Nat → Bool × Reject) : List (Bool × Reject) :=
    let r := PinRange.read d
    [exact 24, (r.off % 65536 != 0, malP 4 0), (r.len % 65536 != 0 || r.len == 0, malP 4 8), minAns 16]

/-! ### Handles (R151, step 5) -/

/-- What an opcode takes in a handle field: whether it must be there, and the kinds it accepts (Table Packet 4). -/
structure Need where
  required : Bool := false
  kinds : List Nat := []
  deriving DecidableEq, Repr

/-- What PRIMARY and SECONDARY take. -/
def needs (h : Header) (d : List Byte) : Need × Need :=
  let any := [1, 2, 3, 4, 5, 6]
  match h.opcode with
  | 0x0101 => ({ required := true, kinds := [1] }, {})
  | 0x0102 => ({ required := true, kinds := [1] }, { kinds := [5] })
  | 0x0110 => ({ required := true, kinds := [1] }, {})
  | 0x0111 => (if leAt d 0 1 = 0 then {} else { required := true, kinds := [1] }, { required := true, kinds := [5] })
  | 0x0201 => ({ required := true, kinds := [2] }, {})
  | 0x0202 => ({ required := true, kinds := [2] }, {})
  | 0x0204 => ({ required := true, kinds := [2] }, {})
  | 0x0301 => ({ required := true, kinds := [6] }, { kinds := [5] })
  | 0x0401 => ({ required := true, kinds := [3] }, {})
  | 0x0402 => ({ required := true, kinds := [3] }, { required := true, kinds := [1] })
  | 0x0601 => ({ required := true, kinds := [4] }, { kinds := any })
  | 0x0701 => (if leAt d 0 1 = 0 then {} else { required := true, kinds := any }, {})
  | 0x0702 => ({ required := true, kinds := any }, {})
  | 0x0703 => ({ required := true, kinds := any }, {})
  | 0x0704 => ({ required := true, kinds := any }, {})
  | _ => ({}, {})

/-- A refusal over an object: its handle's field is the locator. -/
def objReject (reason off : Nat) : Reject := { status := .refusedObject, reason := reason, off := off }

/-- The object a handle names: live, or still being changed; a dead one no longer exists. -/
def Objects.named (os : Objects) (h : Nat) : Option Object :=
  if h = 0 then none else (os.find h).filter (fun o => !o.dead)

/-- The checks of R155 on one handle field. -/
def handleCheck (os : Objects) (tenant h : Nat) (n : Need) (off : Nat) : Option Reject :=
  if h = 0 then (if n.required then some (mal 3 off) else none)
  else if n.kinds.isEmpty then some (mal 3 off)
  else if handleTenant h ≠ tenant then some (objReject 8 off)
  else match os.named h with
    | none => some (objReject 8 off)
    | some o =>
      if !n.kinds.contains o.body.kind then some (objReject 9 off)
      else if o.deletingBy.isSome then some (objReject 10 off) else none

/-! ### What the objects decide (after step 5) -/

/-- The spans of a constellation packet (R466): PRIMARY and a non-zero SECONDARY are keys of spans of the tenant, with one
set of shards. -/
def State.spansOk (s : State) (h : Header) (tenant : Nat) : Bool :=
  match tget? s.const.spans h.primary with
  | none => false
  | some p => p.tenant == tenant &&
    (h.secondary == 0 || (tget? s.const.spans h.secondary).elim false (fun q =>
      q.tenant == tenant && q.shards.map (·.pref) == p.shards.map (·.pref)))

/-- The namespace of a PLACE source or of a record view. -/
def State.space (s : State) (nsid : Nat) : Option Namespace := tget? s.link.namespaces nsid

/-- The records of a SEAM BUILD lie in the buffer, and an index accepts their vectors (R181, R205, R208 edges). -/
def buildChecks (b : Build) (x : IndexBody) (buf : Object) : List (Bool × Reject) :=
  let w := 8 + x.dim * (qBytes b.qfmt).getD 4
  let rs := readRecords x.metric b.qfmt b.qscale x.dim b.sampleN (buf.all.drop b.inOff)
  let short := decide (buf.size < b.inOff + b.sampleN * w)
  [(short, malP 4 36), (!short && b.op == 1 && rs.any (fun r => r.1 == noId), malP 3 8),
   (!short && rs.any (fun r => r.2.isNone), malP 3 8)]

/-- The checks that need the objects a packet names. -/
def State.objectChecks (s : State) (fn : Nat) (h : Header) (d : List Byte) (prim sec : Option Object) : List (Bool × Reject) :=
  let len := h.paramLen
  let exact := fun n : Nat => (len != n, mal 4 24)
  let minAns := fun n : Nat => (decide (h.answerLen < n), mal 7 28)
  match h.opcode, prim with
  | 0x0101, some o => search o sec
  | 0x0102, some o => search o sec
  | 0x0110, some o => match o.index? with
    | some b =>
      let q := Insert.read d
      let rs := readRecords b.metric q.qfmt q.qscale b.dim q.count (d.drop 32)
      if q.op = 0 then
        [exact (32 + q.count * (8 + b.dim * (qBytes q.qfmt).getD 4)), (rs.any (fun r => r.1 == noId), malP 3 32),
         (rs.any (fun r => r.2.isNone), malP 3 32)]
      else []
    | none => []
  | 0x0111, p =>
    let b := Build.read d
    match sec, p.bind Object.index? with
    | some buf, some x => buildChecks b x buf
    | some buf, none => buildChecks b b.body buf
    | none, _ => []
  | 0x0201, some o => match o.kv? with
    | some b =>
      let a := Attend.read d
      let qs := (List.range (b.qHeads * b.dim)).map (fun i => leAt a.query (2 * i) 2)
      [(decide (b.layers ≤ a.layer), malP 4 0), (decide (b.len a.layer < a.ctx), malP 4 4), exact (32 + 2 * b.qHeads * b.dim),
       (qs.any (fun v => notFinite32 (v * 65536)), malP 3 32), minAns (32 + b.qHeads * (32 + 4 * b.dim))]
    | none => []
  | 0x0202, some o => match o.kv? with
    | some b =>
      let a := readAppend d
      let named := (List.range a.layers).map (a.first + ·)
      let n := a.layers * a.count * b.heads * 2 * b.dim
      let fit := decide (a.first + a.layers ≤ b.layers ∧ a.start + a.count ≤ b.maxTokens ∧ len = 32 + 2 * n)
      [(decide (b.layers < a.first + a.layers), malP 4 0), (named.any (fun l => b.len l != a.start), malP 4 4),
       (decide (b.maxTokens < a.start + a.count), malP 4 8), exact (32 + 2 * n),
       (((List.range n).any (fun i => notFinite32 (leAt a.data (2 * i) 2 * 65536))), malP 3 32),
       (fit && !b.appendOk a, malP 3 32)]
    | none => []
  | 0x0301, some o => sift o sec
  | 0x0401, some o =>
    let m := Model.read o.all
    if !m.ok o.size then [(true, objReject 9 40)]
    else items m false ++ [minAns (16 + leAt d 0 4 * m.outDim * (if m.outFmt = 0 then 4 else 2))]
  | 0x0402, some o =>
    let m := Model.read o.all
    if !m.ok o.size then [(true, objReject 9 40)]
    else ((sec.bind Object.index?).elim false (fun b => b.dim != m.outDim), objReject 9 48) :: items m true
  | 0x0601, some o =>
    let r := RunProg.read d
    if !programOk o.all o.size then [(true, objReject 9 40)]
    else
      let e := ProgEntry.read o.all r.entry
      [(decide ((ProgHeader.read o.all).entries ≤ r.entry), malP 4 0), (decide (e.coresMax < r.cores), malP 4 2),
       (sec.elim false (fun x => decide (x.size < r.inOff + r.inLen)), malP 4 8)]
  | 0x0701, p =>
    let op := leAt d 0 1
    match op, p with
    | 0, _ =>
      if !bitAt (leAt d 3 1) 1 then []
      else match s.space (leAt d 16 4) with
        | some n => [(n.fn != some fn, malP 4 16),
            (decide (n.size < leAt d 24 8 + ceilDiv (leAt d 8 8) n.lbaBytes), malP 4 24)]
        | none => [(true, malP 4 16)]
    | 1, some o => [(o.isFixed, objReject 9 40)]
    | _, some o => [(o.kv?.isSome, objReject 9 40)]
    | _, none => []
  | 0x0702, some o => range o
  | 0x0703, some o => range o
  | 0x0704, some o => range o
  | _, _ => []
where
  /-- A search over its index (R181, R192, R193, R209). -/
  search (o : Object) (sec : Option Object) : List (Bool × Reject) :=
    match o.index? with
    | none => []
    | some b =>
      let q := Search.read d
      let f := sec.map (fun x => Filter.read (x.all.drop q.filtOff))
      [(q.dim != b.dim, malP 4 6), (decide (b.nlist < q.nprobe), malP 4 2), (q.rerankN != 0 && b.rfmt == 0, malP 4 8),
       ((acceptVec b.metric (q.query d)).isNone, malP 3 64),
       (sec.elim false (fun x => decide (x.size < q.filtOff + 32)), malP 4 24),
       (f.elim false (fun f => !f.formOk), malP 3 24), (f.elim false (fun f => !f.countOk), malP 4 24),
       (match sec, f with
        | some x, some f => decide (x.size < q.filtOff + 32 + filterBytes f.form f.count)
        | _, _ => false, malP 4 24)]
  /-- A SIFT over its view and mask (R236 to R243). -/
  sift (o : Object) (sec : Option Object) : List (Bool × Reject) :=
    let v := View.read o.all
    if !v.ok ∨ o.size < 64 + 16 * v.cols.length ∨ !(s.space v.nsid).elim false (fun n => v.fits n fn) then [(true, objReject 9 40)]
    else
      let q := Sift.read d
      let faults := (q.nodes.zipIdx).filterMap (fun (n, i) => (nodeFault v q n).map (fun r => (true, malP r (64 + 24 * i))))
      let mask := sec.map (fun x => Filter.read (x.all.drop q.maskOff))
      [(q.form == 1 && v.idCol != 0xFF, malP 3 0), (decide (v.rows ≤ q.rowFirst), malP 4 8),
       (decide (v.rows < q.rowFirst + q.rowCount), malP 4 16)] ++ faults ++
      [(stackDepth q.nodes 0 != some 1, malP 4 64), (q.form == 1 && decide (2 ^ 34 < q.rc v), malP 3 0),
       (match sec, mask with
        | some x, some m => x.size < q.maskOff + 32 || m.form != 0x10 || decide (x.size < q.maskOff + 32 + (m.count + 7) / 8)
        | _, _ => false, malP 4 32)]
  /-- The items of EMBED and EMBED AND INSERT (R252). -/
  items (m : Model) (withId : Bool) : List (Bool × Reject) :=
    match readItems d withId m.maxIn (leAt d 0 4) 32 with
    | none => [(true, malP 4 32)]
    | some l => [(l.any (fun i => i.tokens.any (fun t => decide (m.vocab ≤ t))), malP 3 32),
        (withId && l.any (fun i => i.id == noId), malP 3 32)]
  /-- A range within its object (R164). -/
  range (o : Object) : List (Bool × Reject) :=
    let r := PinRange.read d
    [(decide (ceilDiv o.size 65536 * 65536 < r.off + r.len), malP 4 8)]

/-! ### Step 6 -/

/-- The caps a packet declares for lodes per drift and for candidates, each with its offset (R67). -/
def declaredCaps (h : Header) (d : List Byte) : Option (Nat × Nat) × Option (Nat × Nat) :=
  match h.opcode with
  | 0x0101 => (some (leAt d 10 2, 10), some (leAt d 12 4, 12))
  | 0x0102 => (some (leAt d 10 2, 10), some (leAt d 12 4, 12))
  | 0x0201 => (some (leAt d 14 2, 14), some (leAt d 16 4, 16))
  | 0x0301 => (some (leAt d 4 2, 4), some (leAt d 24 4, 24))
  | 0x0702 => (some (leAt d 16 2, 16), none)
  | 0x0704 => (some (leAt d 16 2, 16), none)
  | _ => (none, none)

/-- A REFUSED_CAP. -/
def capReject (off : Nat) (inParam : Bool := false) : Reject := { status := .refusedCap, reason := 0x0B, off := off, inParam := inParam }

/-- A REFUSED_STATE. -/
def stateReject (reason off : Nat) (inParam : Bool := false) : Reject :=
  { status := .refusedState, reason := reason, off := off, inParam := inParam }

/-- A contract class in force. -/
def State.classOf (s : State) (tenant cls : Nat) : Option ClassDef := tget? s.orrery.classes (tenant * 16 + cls)

/-- The caps (R47, R67). -/
def State.capChecks (s : State) (tenant : Nat) (h : Header) (d : List Byte) : List (Bool × Reject) :=
  if !h.fContracted then []
  else
    let c := s.classOf tenant h.cls
    let caps := declaredCaps h d
    [(h.costCap == 0 || decide (c.elim 243 (·.cfMax) < h.costCap), capReject 56)] ++
    (match c with
     | none => []
     | some c =>
       [(caps.1.elim false (fun p => decide (c.lpdMax < p.1)), capReject (caps.1.elim 0 (·.2)) true),
        (c.candMax != 0 && caps.2.elim false (fun p => decide (c.candMax < p.1)), capReject (caps.2.elim 0 (·.2)) true),
        (c.paramMax != 0 && decide (c.paramMax < h.paramLen), capReject 24)])

/-- Outstanding packets against the limits (R174, R456). -/
def State.counted (s : State) : List Packet := (s.packets.live.map (·.2)).filter (fun p => p.open_ && !p.takenOver && !p.viaExecute && !p.sub)

/-- The outstanding limits (R174, R474). -/
def State.limitChecks (s : State) (tenant : Nat) (h : Header) : List (Bool × Reject) :=
  [(decide (1024 ≤ (s.counted.filter (fun p => p.tenant == tenant)).length) || decide (16384 ≤ s.counted.length), stateReject 0x0F 8),
   (h.fConstellation && decide (1024 ≤ (s.counted.filter (fun p => p.hdr.fConstellation)).length), stateReject 0x0F 8)]

/-- The object that a packet changes, and the one it deletes (Table Packet 4): the field's offset. -/
def claims (h : Header) (d : List Byte) : Option Nat × Option Nat :=
  match h.opcode with
  | 0x0110 => (some 40, none)
  | 0x0111 => (if leAt d 0 1 = 1 then some 40 else none, none)
  | 0x0202 => (some 40, none)
  | 0x0204 => (none, some 40)
  | 0x0402 => (some 48, none)
  | 0x0701 => match leAt d 0 1 with
    | 1 => (some 40, none)
    | 2 => (none, some 40)
    | _ => (none, none)
  | _ => (none, none)

/-- The images that the active and the shadow table bind. -/
def State.boundImages (s : State) : List Nat :=
  (s.orrery.active.bindings ++ (s.orrery.shadow.elim [] (·.bindings))).map (·.image)

/-- The object claims (R157, R249, R288, R363, R449). -/
def State.claimChecks (s : State) (h : Header) (d : List Byte) : List (Bool × Reject) :=
  let c := claims h d
  let handle := fun off : Nat => if off = 40 then h.primary else h.secondary
  let busy := fun off : Nat => (s.objects.find (handle off)).elim false (fun o => o.changingBy.isSome || o.deletingBy.isSome) ||
    s.objects.writing.contains (objNumber (handle off))
  let off := (c.1.orElse (fun _ => c.2))
  let fenced := fun hd : Nat => s.pair.state == .fenced && hd != 0 && s.mirrored hd
  [(off.elim false busy, stateReject 0x0C (off.getD 40)),
   (c.2.isSome && s.boundImages.contains h.primary, stateReject 0x0C 40),
   (fenced h.primary, stateReject 0x0C 40), (fenced h.secondary, stateReject 0x0C 48)]

/-- First fit of `n` lodes in the object window among the ranges in use, in rising order (R314). -/
def firstFit (n : Nat) : Nat → List (Nat × Nat) → Option Nat
  | pos, [] => if pos + n ≤ 2 ^ 32 then some pos else none
  | pos, (b, l) :: r => if pos + n ≤ b then some pos else firstFit n (max pos (b + l)) r

/-- A free window range for `n` lodes. -/
def State.freeRange (s : State) (n : Nat) : Option Nat :=
  firstFit n 0 (sortBy (fun a b : Nat × Nat => decide (a.1 < b.1)) (s.allObjects.map (fun o => (o.base, o.lodes))))

/-- Lodes of Tier F space that nothing has reserved: what the object directory can still list, and what the user capacity
leaves beside the namespaces and the objects (R315, R369; notes/assumptions/14.md). -/
def State.tierFFree (s : State) : Nat :=
  let used := sumNat (s.allObjects.map (·.lodes))
  let spaces := sumNat ((s.link.namespaces.map (·.2)).map (fun n => n.size * n.lbaBytes))
  min (805306368 - used) (s.media.userBytes / 65536 - ceilDiv spaces 65536 - used)

/-- The codes of the placement classes (Table Packet 5). -/
def placeClass (n : Nat) : PlaceClass :=
  match n with
  | 0 => .pinnedH | 1 => .hot | 2 => .paged | _ => .stream

/-- The object number that the module assigns next: under a pair identity bit 47 is its SIDE (R155, R438). -/
def State.assignNumber (s : State) : Nat := s.objects.nextNumber + (if s.pair.has ∧ s.pair.id.side then 2 ^ 47 else 0)

/-- A new object of a tenant: `size` bytes of offset space, `off` lodes of it, `fixed` lodes of components beyond it. -/
def State.newObject (s : State) (tenant : Nat) (body : ObjBody) (cls : PlaceClass) (size off fixed : Nat) (zeroed : Bool) :
    Option Object :=
  (s.freeRange (off + fixed)).map (fun base =>
    { handle := tenant * 2 ^ 48 + s.assignNumber, body := body, cls := cls, size := size, base := base
      lodes := off + fixed, fixedLodes := fixed, zeroed := zeroed })

/-- The object that a packet creates: none for one that creates nothing; `some none` where no window range is left. -/
def State.created (s : State) (tenant : Nat) (h : Header) (d : List Byte) : Option (Option Object) :=
  match h.opcode with
  | 0x0111 =>
    if leAt d 0 1 ≠ 0 then none
    else
      let b := (Build.read d).body
      some (s.newObject tenant (.index b) .stream (b.offsetLodes * 65536) b.offsetLodes b.fixed false)
  | 0x0203 =>
    let b := readKvOpen d
    some (s.newObject tenant (.kv b) .stream (b.offsetLodes * 65536) b.offsetLodes b.fixed false)
  | 0x0701 =>
    if leAt d 0 1 ≠ 0 then none
    else
      let body := match leAt d 1 1 with
        | 3 => ObjBody.model | 4 => .program | 5 => .buffer | _ => .recordView
      let size := leAt d 8 8
      some (s.newObject tenant body (placeClass (leAt d 2 1)) size (ceilDiv size 65536) 0 (bitAt (leAt d 3 1) 0))
  | _ => none

/-- Lodes of Tier H and of Tier F that a packet reserves, beside what is charged already (R163, R175, R210, R315, R318). -/
def State.reserves (s : State) (tenant : Nat) (h : Header) (d : List Byte) : Nat × Nat :=
  match h.opcode with
  | 0x0111 =>
    if leAt d 0 1 ≠ 0 then (0, 0)
    else let b := (Build.read d).body; (b.fixed, b.offsetLodes + b.fixed)
  | 0x0203 => let b := readKvOpen d; (b.fixed, b.offsetLodes + b.fixed)
  | 0x0701 =>
    let cls := placeClass (leAt d 2 1)
    let keeps := cls == .pinnedH || cls == .hot
    match leAt d 0 1 with
    | 0 => let n := ceilDiv (leAt d 8 8) 65536; (if keeps then n else 0, n)
    | 1 => match s.objects.named h.primary with
      | some o => (if keeps && o.fullReservation = 0 then o.lodes - s.chargedOf o else 0, 0)
      | none => (0, 0)
    | _ => (0, 0)
  | _ => (0, 0)

/-- The quota conditions (R163, R175, R216, R315, R318, R369, R537). -/
def State.quotaChecks (s : State) (tenant : Nat) (h : Header) (d : List Byte) : List (Bool × Reject) :=
  let r := s.reserves tenant h d
  let off := match h.opcode with | 0x0111 => 28 | 0x0203 => 12 | _ => 8
  let freed := h.opcode == 0x0204 || (h.opcode == 0x0701 && leAt d 0 1 == 2)
  let uncharged := fun hd : Nat => !freed && (s.objects.named hd).elim false (fun o => o.isFixed && o.uncharged)
  [(r.1 != 0 && !s.canCharge tenant r.1, stateReject 0x10 off true), (decide (s.tierFFree < r.2), stateReject 0x10 off true),
   (uncharged h.primary, stateReject 0x10 40), (uncharged h.secondary, stateReject 0x10 48)]

/-- Slots of all index objects (R178). -/
def State.slotsUsed (s : State) : Nat :=
  sumNat (s.allObjects.map (fun o => match o.index? with | some b => b.nlist * b.seamCap | none => 0))

/-- Object, slot and range limits (R159, R178, R314). -/
def State.objectLimits (s : State) (tenant : Nat) (h : Header) (d : List Byte) : List (Bool × Reject) :=
  match s.created tenant h d with
  | none => []
  | some o =>
    let b := (Build.read d).body
    [(decide (65536 ≤ (s.objectsOf tenant).length) || decide (1048576 ≤ s.allObjects.length), stateReject 0x0F 8),
     (h.opcode == 0x0111 && decide (17179869184 < s.slotsUsed + b.nlist * b.seamCap), stateReject 0x0F 8),
     (o.isNone, stateReject 0x0F 8)]

/-- Bytes of a packet's annex, in pieces of 4 KiB (R402). -/
def annexBytes (h : Header) : Nat :=
  ceilDiv (h.paramLen + (if h.opcode = 0x0401 ∨ h.opcode = 0x0402 then 256 else 0)) 4096 * 4096

/-- Annex bytes in use. -/
def State.annexUsed (s : State) : Nat := sumNat (s.packets.live.map (·.2.annexBytes))

/-- The working-pool lodes that annexes take. -/
def State.countAnnex (s : State) : State := { s with cage := { s.cage with annexLodes := ceilDiv s.annexUsed 65536 } }

/-- R151 for a packet whose answer region is valid: the refusal, or the parameter block. -/
def State.validate (s : State) (fn : Nat) (h : Header) (pkt : List Byte) (block : Option (List Byte)) (page : Nat) :
    Except Reject (List Byte) :=
  match opInfo h.opcode with
  | none => .error { status := .refusedOpcode, reason := 1, off := 0 }
  | some info =>
    let head := firstBad [(h.version != 1, mal 2 2), (h.fContracted && !info.contractable, mal 5 3),
      (h.fConstellation && !info.constellation, mal 5 3), (decide (7 < h.cls), mal 3 5)]
    match head, locate page h pkt block with
    | some r, _ => .error r
    | none, .error r => .error r
    | none, .ok d =>
      let t := fn
      let foreman := s.const.role == .foreman && s.const.formed
      let skip := h.fConstellation && !foreman
      let prim := s.objects.named h.primary
      let sec := s.objects.named h.secondary
      let dup := s.counted.any (fun p => p.tenant == t && p.hdr.packetId == h.packetId)
      let need := needs h d
      let step5 := if skip then none
        else if h.fConstellation ∧ !s.spansOk h t then some (objReject 9 40)
        else ((handleCheck s.objects t h.primary need.1 40).orElse (fun _ =>
          if h.fConstellation then none else handleCheck s.objects t h.secondary need.2 48)).orElse (fun _ =>
            firstBad (s.objectChecks fn h d prim sec))
      let step6 := s.capChecks t h d ++
        [(info.shaft && s.power.shaftOff, stateReject 0x0D 0), (skip, stateReject 0x0E 3)] ++ s.limitChecks t h ++
        s.claimChecks h d ++ s.quotaChecks t h d ++ s.objectLimits t h d ++
        [(decide (s.cage.poolSize * 65536 < 2 * (s.annexUsed + annexBytes h)), stateReject 0x0F 8)]
      match (firstBad (blockChecks h d ++ [(dup, mal 6 8)])).orElse (fun _ => step5.orElse (fun _ => firstBad step6)) with
      | some r => .error r
      | none => .ok d

/-! ### The receipt point (R32, R151 step 7, R401) -/

/-- The frame that 32 bits name, around the current one (R34); 0 for a frame before frame 0. -/
def nearFrame (cur v : Nat) : Nat :=
  let delta := (v + 2 ^ 32 - cur % 2 ^ 32) % 2 ^ 32
  if delta ≤ 2 ^ 31 then cur + delta else cur + delta - 2 ^ 32

/-- The claims and reservations a packet holds from its receipt point (R157, R158, R163, R315, R318). -/
def State.claim (s : State) (key tenant : Nat) (h : Header) (d : List Byte) : State :=
  let c := claims h d
  let num := fun off : Nat => objNumber (if off = 40 then h.primary else h.secondary)
  let s := match c.1 with
    | some off => { s with objects := { s.objects with live := tupd s.objects.live (num off) (fun o => { o with changingBy := some key }) } }
    | none => s
  let s := match c.2 with
    | some off => { s with objects := { s.objects with live := tupd s.objects.live (num off) (fun o => { o with deletingBy := some key }) } }
    | none => s
  let r := s.reserves tenant h d
  let s := if r.1 = 0 then s else s.makeRoom tenant r.1
  let grow := if h.opcode = 0x0701 ∧ leAt d 0 1 = 1 ∧ r.1 ≠ 0 then some (objNumber h.primary) else none
  let s := s.modPacket key (fun p => { p with grow := grow })
  match s.created tenant h d with
  | some (some o) =>
    let s := { s with objects := { s.objects with nextNumber := s.objects.nextNumber + 1 } }
    s.modPacket key (fun p => { p with create := some o })
  | _ => s

/-- The namespace a packet reads: of its record view, or the source of a PLACE (R414). -/
def State.spaceOf (s : State) (h : Header) (d : List Byte) (prim : Option Object) : Option Namespace :=
  match h.opcode, prim with
  | 0x0301, some o => s.space (View.read o.all).nsid
  | 0x0701, _ => if leAt d 0 1 = 0 ∧ bitAt (leAt d 3 1) 1 then s.space (leAt d 16 4) else none
  | _, _ => none

/-- The shift record of an accepted packet; a TAKEOVER_OK record goes to the twin (R401 to R404). -/
def State.receive (s : State) (q : Sqe) (v : VisibleSqe) (h : Header) (d : List Byte) (rs : List (Nat × Nat)) : State :=
  let key := s.packets.nextKey
  let prim := s.objects.named h.primary
  let sec := s.objects.named h.secondary
  let p : Packet :=
    { key := key, fn := q.fn, sqid := q.sqid, cqid := (s.ctrl q.fn).cqOf q.sqid, cid := q.cid, tenant := q.fn, hdr := h
      param := d, region := rs, receiptNs := s.now, boot := s.meridian.bootCount, backlog := v.backlog
      notBefore := if h.notBefore = 0 then 0 else nearFrame s.meridian.frame h.notBefore
      contracted := h.fContracted && !h.fProbe
      charges := chargesOf h d prim sec (s.spaceOf h d prim), annexBytes := annexBytes h }
  let s := { s with packets := { s.packets with nextKey := key + 1, live := tset s.packets.live key p } }
  let s := if h.fProbe then s else s.claim key q.fn h d
  (s.updateRecord key id).countAnnex

/-- A refused packet: its answer record and CQE at once, no receipt point (R145, R151). -/
def State.refuse (s : State) (q : Sqe) (h : Header) (rs : List (Nat × Nat)) (r : Reject) : State :=
  let p : Packet := { key := 0, hdr := h, region := rs, status := r.status, sqid := q.sqid, cid := q.cid, tenant := q.fn
                      lastLoc := refusalLocator r.reason r.off r.inParam }
  let s := s.writeAnswer p
  let s := s.count q.fn 8 .status r.status.code
  s.postOn q.fn ((s.ctrl q.fn).cqOf q.sqid) p.cqe

/-! ### Commands -/

/-- Packets made visible by a doorbell that have not reached their receipt point (R33). -/
def State.intakeBacklog (s : State) : Nat :=
  sumNat (s.link.controllers.map (fun c => sumNat (c.2.sqs.map (fun q => (q.2.visible.filter (·.packet)).length))))

/-- MER_INTAKE (Table Frame 3). -/
def State.countBacklog (s : State) : State :=
  let n := s.intakeBacklog
  { s with meridian := { s.meridian with backlog := min n 65535, peak := min 65535 (max s.meridian.peak n) } }

/-- SQ_TAIL_DOORBELL: a doorbell on queue `sqid` makes SQEs visible in SQ order; `kinds` says of each intake command among
them whether it is a SUBMIT WORK (true) or an ABORT WORK (R33, R125, R485). -/
def execSqTailDoorbell (t fn sqid : Nat) (kinds : List Bool) (s : State) : Result :=
  let s := s.at t
  let c := s.ctrl fn
  match tget? c.sqs sqid with
  | none => .next s
  | some q =>
    if !c.enabled ∨ s.power.off then .next s
    else
      let s := s.abandonEntry
      let base := s.intakeBacklog
      let add := fun (acc : List VisibleSqe × Nat × Nat) (k : Bool) =>
        (acc.1 ++ [{ arrival := acc.2.1, packet := k, backlog := base + (kinds.filter id).length, doorbellNs := s.now }], acc.2.1 + 1, acc.2.2)
      let (vs, next, _) := kinds.foldl add ([], s.link.nextArrival, base)
      let s := { s with link := { s.link with nextArrival := next } }
      let s := s.setCtrl fn { s.ctrl fn with sqs := tset (s.ctrl fn).sqs sqid { q with visible := q.visible ++ vs } }
      .next s.countBacklog

/-- Take the front intake SQE of a queue, if it is of the kind. -/
def State.takeSqe (s : State) (q : Sqe) (packet : Bool) : Option (VisibleSqe × State) :=
  let c := s.ctrl q.fn
  match tget? c.sqs q.sqid with
  | none => none
  | some sq =>
    match sq.visible with
    | v :: rest =>
      if v.packet = packet then
        some (v, (s.setCtrl q.fn { c with sqs := tset c.sqs q.sqid { sq with visible := rest } }).countBacklog)
      else none
    | [] => none

/-- SUBMIT_WORK with its PSDT, FUSE and PRP1, the 256 bytes of the packet (none where they cannot be read), the entries of
the PRP list of its answer region, and the bytes of a parameter block in host memory (R142 to R151). It is taken once its
function fetches and a doorbell has made it visible. -/
def execSubmitWork (q : Sqe) (psdt fuse prp1 : Nat) (pkt : Option (List Byte)) (list : Option (List Nat))
    (param : Option (List Byte)) (s : State) : Result :=
  let s := s.at q.t
  match s.takeSqe q true with
  | none => .next s
  | some (v, taken) =>
    if !s.fetches q.fn then .next s
    else
      let s := taken
      let page := 2 ^ (s.ctrl q.fn).pageBits
      if s.manage.sanitize.running then .next (s.complete q .sanitizeInProgress)
      else if psdt ≠ 0 ∨ fuse ≠ 0 ∨ q.d10.toNat ≠ 256 ∨ prp1 % 64 ≠ 0 ∨ page < prp1 % page + 256 then
        .next (s.complete q .invalidField)
      else match pkt with
        | none => .next (s.complete q .dataTransfer)
        | some d =>
          let d := padTo 256 d
          let h := Header.read d
          if 268435456 < h.answerLen then .next (s.complete q .invalidField)
          else match region page h.answerAddr (64 + h.answerLen) 64 list with
            | .error .invalid => .next (s.complete q .invalidField)
            | .error .unreadable => .next (s.complete q .dataTransfer)
            | .ok rs => match s.validate q.fn h d param page with
              | .error r => .next (s.refuse q h rs r)
              | .ok block => .next (s.receive q v h block rs)

/-- An SQE of a packet that a doorbell made visible before arrival `n` waits somewhere (R148). -/
def State.earlierIntake (s : State) (n : Nat) : Bool :=
  s.link.controllers.any (fun c => c.2.sqs.any (fun q => q.2.visible.any (fun v => v.packet && decide (v.arrival < n))))

/-- The packet an ABORT WORK names: of the function's tenant, taken over where CDW12 bit 0 is set (R147, R460). -/
def State.abortTarget (s : State) (q : Sqe) : Option Packet :=
  let id := q.d10.toNat + q.d11.toNat * 2 ^ 32
  ((s.packets.live.map (·.2)).filter (fun p => p.tenant == q.fn && p.hdr.packetId == id && !p.viaExecute &&
    p.takenOver == bitAt q.d12.toNat 0)).getLast?

/-- ABORT_WORK (R147 to R149, Table Packet 1): after the intake of earlier submissions, it removes a packet that is not
admitted, stops an admitted one at the next tick, and leaves one that is answered; it completes after the packet. -/
def execAbortWork (q : Sqe) (s : State) : Result :=
  let s := s.at q.t
  match s.takeSqe q false with
  | none => .next s
  | some (v, taken) =>
    if !s.fetches q.fn ∨ s.earlierIntake v.arrival then .next s
    else
      let s := taken
      if s.manage.sanitize.running then .next (s.complete q .sanitizeInProgress)
      else match s.abortTarget q with
      | none => .next (s.complete q .success 3)
      | some p =>
        if !p.open_ then .next (s.complete q .success 2)
        else
          let s := { s with packets := { s.packets with aborts := s.packets.aborts ++
            [{ fn := q.fn, sqid := q.sqid, cid := q.cid, packet := p.key }] } }
          if p.phase = .received then
            let s := { s with cage := { s.cage with reserved := terase s.cage.reserved p.key } }
            .next ((s.modPacket p.key (fun p => { p with status := .aborted })).deliver p.key)
          else if p.recordWritten then .next s
          else .next (s.modPacket p.key (fun p => { p with abortAsked := true }))

/-- Move held CQEs into a completion queue's free entries; the answer of each is complete only now (R49). -/
def State.releaseHeld (s : State) (fn cqid : Nat) : Nat → State
  | 0 => s
  | fuel + 1 =>
    let c := s.ctrl fn
    let q := tgetD c.cqs cqid {}
    match q.held with
    | [] => s
    | e :: _ =>
      if q.depth ≤ q.posted.length + 1 then s
      else
        let put := fun (s : State) (x : Cqe) =>
          s.setCtrl fn { s.ctrl fn with cqs := tmod (s.ctrl fn).cqs cqid {} (fun q => { q with held := q.held.drop 1, posted := q.posted ++ [x] }) }
        match e.packet.bind s.packet? with
        | some p =>
          let s := s.deadlines
          let p := { p with late := p.isLate s.meridian.frame }
          (((put (s.writeAnswer p) p.cqe).answered p)).releaseHeld fn cqid fuel
        | none => (put s e.cqe).releaseHeld fn cqid fuel

/-- CQ_HEAD_DOORBELL: the host frees `n` entries of a completion queue, and held CQEs are posted (R49). -/
def execCqHeadDoorbell (t fn cqid n : Nat) (s : State) : Result :=
  let s := s.at t
  let c := s.ctrl fn
  match tget? c.cqs cqid with
  | none => .next s
  | some q =>
    let s := s.setCtrl fn { c with cqs := tset c.cqs cqid { q with posted := q.posted.drop n } }
    if s.global.mfault then .next s else .next (s.releaseHeld fn cqid q.held.length)

end Sys2Proof.Machine
end

