-- ==== Sys2Proof/Machine/Reset.lean ====
section
/-!
DEFINITION. What a cold module reset and a loss of input power keep and lose (spec/18_units_resets_and_updates.md, R517,
R518, R530; spec/19_power_up_and_the_almanac.md, R550 to R553; spec/14_flash_media.md, R381, R386).
-/
namespace Sys2Proof.Machine

/-- The packets of the module end with ABORTED_RESET and nothing is written to the host; they are counted (R140, R518). -/
def State.dropPackets (s : State) : State :=
  let s := (s.packets.live.filter (fun p => p.2.phase != .answered)).foldl (fun s p =>
    let y := s.tally
    { s with tally := { y with parts := tmod y.parts p.2.tenant {} (fun x =>
        x.add { tenant := p.2.tenant, record := 8, field := .status, value := 0x31 }) } }) s
  { s with packets := { s.packets with live := [], twin := [], aborts := [] } }

/-- An orderly end: a checkpoint, the log and Tally are durable (R518, R550). -/
def State.orderly (s : State) : State :=
  let s := (if s.media.ckptRunning.isSome then s.finishCheckpoint else s).beginCheckpoint.finishCheckpoint
  let m := s.media
  let s := { s with media := { m with buffer := [], deltaLog := [], deltaDurable := true, flushComplete := true
                                      unflushed := [] } }
  s.persistLog.persistTally

/-- The end of a hold-up flush (R381, R386): what class A data it did not bring to NAND. Class J data still buffered is
not flushed. An incomplete flush leaves every region of every pair namespace marked (Table Start 5). -/
def State.flushed (s : State) (f : FlushEnd) : State :=
  let m := s.media
  let left := m.buffer.filter (fun e => !e.classJ && !f.programmed.contains (e.nsid, e.lba))
  let complete := f.complete && f.delta
  let marks := (((s.link.namespaces.map (·.2)).filter (·.pair)).flatMap (fun n =>
    (List.range (ceilDiv (n.size * n.lbaBytes) (2 ^ 30))).map (fun i => n.nsid * 2 ^ 32 + i)))
  { s with
    media := { m with buffer := [], deltaLog := [], deltaDurable := f.delta || complete, flushComplete := complete
                      unflushed := if complete then [] else left.map (fun e => (e.nsid, e.lba, e.old)) }
    pair := if complete then s.pair else { s.pair with dirty := marks } }

/-- An object as it comes back: at its last committed version, with no change of it in progress (R320, R552). -/
def Object.restored (o : Object) : Object := { o with deletingBy := none, changingBy := none, keepFor := [] }

/-- A drift as it comes back: its dies idle, its lists and quads as the last checkpoint knows them. -/
def Drift.restored (d : Drift) : Drift :=
  { dies := tmapv d.dies (fun _ x => { erased := x.erased, openQuads := x.openQuads, nextQuads := x.nextQuads })
    quads := d.quads, spares := d.spares, allErases := d.allErases }

/-- Everything that Table Unit 6 and Table Start 5 let survive; all else is at its reset value. `d0` says that D0 kept its
power, and with it the last-gasp registers and the mode of the management endpoint (R427, R517, R587). -/
def State.restart (s : State) (d0 : Bool) : State :=
  let v := s.saved
  let l := s.log
  let lost := l.recordsLost || decide (l.persisted < l.ring.length)
  let y := s.tally
  let part := fun (n : Nat) =>
    let p := tgetD y.persisted n {}
    (n, { p with lost := p.lost || decide ((y.part n).recs ≠ p.recs ∨ (y.part n).statuses ≠ p.statuses) || y.now.any (fun c => c.tenant == n) })
  let running := (s.flash.busy.toList ++ s.flash.susp.toList)
  { now := 0, free := s.free, pending := s.pending
    meridian := { bootCount := v.bootCount, period := v.period }
    orrery := { classes := v.classes }
    lodestar := { cfgAccepted := v.c1h.getD 0x00600002, cfg := v.c1h.getD 0x00600002 }
    link := { mem := s.link.mem, anaCount := s.link.anaCount
              namespaces := s.link.namespaces
              compute := tmapv s.link.compute (fun _ c => { c with rangeSets := [] }) }
    packets := { nextKey := s.packets.nextKey }
    objects := { nextNumber := s.objects.nextNumber
                 live := (tmapv s.objects.live (fun _ o => o.restored)).filter (fun p => !p.2.dead) }
    cage := { h2Next := v.heccLevel, poolNext := v.poolSize, poolSize := v.poolSize, tailings := v.trcSize
              c2 := v.c2, lpClass := v.c2.map (fun p => (p.1, p.2.1)), qwarn := v.c2.map (fun p => (p.1, p.2.2)) }
    media := { q246 := s.media.q246, drifts := tmapv s.media.drifts (fun _ d => d.restored), seqNo := s.media.seqNo
               ckptDone := s.media.ckptDone, deltaDurable := s.media.deltaDurable
               flushComplete := s.media.flushComplete, unflushed := s.media.unflushed }
    log := { flash := l.flash, lostBoots := if lost then l.lostBoots ++ [s.meridian.bootCount] else l.lostBoots
             gasp := if d0 then l.gasp else [], lgLost := if d0 then l.lgLost else 0
             lgWidx := if d0 then l.lgWidx else 0 }
    fabric := { nextTag := s.fabric.nextTag
                ports := tmapv s.fabric.ports (fun _ p => { cagePower := p.cagePower, cageRefused := p.cageRefused }) }
    pair := { dirty := s.pair.dirty, changed := s.pair.changed, deleted := s.pair.deleted, sanitized := s.pair.sanitized }
    const := { role := s.const.savedRole, id := s.const.savedId, member := s.const.savedMember
               savedRole := s.const.savedRole, savedId := s.const.savedId, savedMember := s.const.savedMember
               savedMembers := s.const.savedMembers }
    power := { perst := s.power.perst, mgmtVio := s.power.mgmtVio, pwrdis := s.power.pwrdis, off := !d0
               domains := if d0 then 0xFFF else 0 }
    flash := { banks := tmapv s.flash.banks (fun b x => { x with loose := x.loose ++ running.filter (fun o => o.bank = b) })
               runningSlot := s.flash.runningSlot, runningBank := s.flash.runningBank, oldAreas := s.flash.oldAreas }
    activation := { failed := s.activation.failed }
    startup := { clean := s.startup.clean }
    saved := v
    almanac := { gens := s.almanac.gens }
    global := { stepping := s.global.stepping, serial := s.global.serial }
    tally := { parts := (dedupNat (y.persisted.map (·.1) ++ y.parts.map (·.1) ++ y.now.map (·.tenant))).map part, persisted := s.tally.persisted
               persistedAcct := s.tally.persistedAcct, replayCost := s.tally.persistedAcct.getD 0 0
               preemptCost := s.tally.persistedAcct.getD 1 0, reservedCf := s.tally.persistedAcct.getD 2 0
               pitCf := s.tally.persistedAcct.getD 3 0, modEnergy := s.tally.persistedAcct.getD 4 0 }
    tailings := { size := v.trcSize, sizeNext := v.trcSize }
    manage := { hiZ := s.manage.hiZ, i3c := d0 && s.manage.i3c, addr := if d0 then s.manage.addr else 0x1D
                smbusKhz := if d0 then s.manage.smbusKhz else 100, endpointId := if d0 then s.manage.endpointId else 0
                nsKeys := s.manage.nsKeys, objKeys := s.manage.objKeys, internalKey := s.manage.internalKey
                nextKey := s.manage.nextKey
                sanitize := { running := v.sanitize.isSome, step := v.sanitize.elim 0 (·.1)
                              action := v.sanitize.elim 0 (·.2), completed := s.manage.sanitize.completed
                              cdw10 := s.manage.sanitize.cdw10 }
                warnTempNs := s.manage.tempSaved.1, critTempNs := s.manage.tempSaved.2, tempSaved := s.manage.tempSaved
                smart := s.manage.smartSaved, smartSaved := s.manage.smartSaved } }

/-- A cold module reset after an orderly end: NVM Subsystem Reset, COLD RESET, and firmware after R516 (R518). -/
def State.orderlyReset (s : State) : State :=
  let s := s.dropPackets.orderly
  ({ s with startup := { s.startup with clean := true } } : State).restart true

/-- A cold module reset that is handled as a power loss: PERST#, a reset after a module fault, and the watchdog's reset
after a failed activation (R518, R523). -/
def State.lossReset (s : State) (f : FlushEnd) : State :=
  let s := s.flushed f
  ({ s with startup := { s.startup with clean := f.complete && f.delta } } : State).restart true

/-- The cold module reset of COLD RESET and NVM Subsystem Reset: after a module fault it is handled as a power loss. -/
def State.askedReset (s : State) (f : FlushEnd) : State := if s.global.mfault then s.lossReset f else s.orderlyReset

end Sys2Proof.Machine
end

