-- ==== Sys2Proof/Machine/Units.lean ====
section
/-!
DEFINITION. Units: UNIT CONTROL, the management path's requests and observations, the quiesce handshake, resets and
losses (spec/18_units_resets_and_updates.md, R502 to R516).
-/
namespace Sys2Proof.Machine

/-! ### What a unit is asked -/

/-- The rank of the state an operation leads to (R504, Table Unit 2). -/
def UnitOp.rank : UnitOp → Nat
  | .ret => 0 | .probe => 0 | .hold => 3 | .reset => 4 | .outOfService => 6

/-- The operations that drain (R511). -/
def UnitOp.drains : UnitOp → Bool
  | .hold => true | .reset => true | .outOfService => true | _ => false

/-- Completion DW0 of UNIT CONTROL (R510); bit 3 on a passed probe. -/
def State.unitDw0 (s : State) (u : Nat) (passed : Bool := false) : Nat :=
  (s.unit u).state.code + bit passed * 8 + (s.unit u).epoch % 65536 * 65536

/-- Complete every waiting command of an operation; a management request has no completion (R510, R590). -/
def State.completeUnit (s : State) (u : Nat) (ops : List UnitOp) (passed : Bool := false) : State :=
  let done := (s.unit u).waits.filter (fun w => ops.contains w.op)
  let s := s.modUnit u (fun e => { e with waits := e.waits.filter (fun w => !ops.contains w.op)
                                          asked := e.asked.filter (fun a => !ops.contains a.1 || a.1.drains) })
  done.foldl (fun s w => if w.mgmt then s else s.completeOn w.fn w.sqid w.cid .success (s.unitDw0 u passed) 0) s

/-- The cores that a unit's reset, drain or loss reaches: its own, a channel's drift core, a cluster's 16 (Table Unit 5,
R511). -/
def unitCores (u : Nat) : List Nat :=
  if u < 256 then [u]
  else if u < 320 then [u - 256]
  else if u < 332 then (List.range 16).map (fun j => 64 + 16 * (u - 320) + j)
  else []

/-- The units that go through a drain and reset with a unit: a cluster takes its cores with it (Table Unit 5). -/
def unitSpan (u : Nat) : List Nat := if 320 ≤ u ∧ u < 332 then u :: unitCores u else [u]

/-- Jobs that hold a core of the unit. -/
def State.holders (s : State) (u : Nat) : List Nat :=
  dedupNat ((unitCores u).filterMap (fun n => (s.core n).packet))

/-- An eligible unit of the same kind remains in a powered domain (Table Unit 4, OUT OF SERVICE). -/
def State.otherEligible (s : State) (u : Nat) : Bool :=
  (List.range unitCount).any (fun v =>
    v != u && unitKind v == unitKind u && (s.unit v).state == .active && s.powered (unitDomain v))

/-- What Table Unit 4 permits; a second RESET joins the one that drains (R514 edges). -/
def State.unitPermits (s : State) (op : UnitOp) (u : Nat) : Bool :=
  let e := s.unit u
  match op with
  | .reset => singleReset u && (e.state == .active || e.state == .contested || e.state == .held ||
      (e.state == .quiescing && e.drain == some .reset))
  | .outOfService => singleReset u && e.state != .off && s.otherEligible u
  | .ret => e.state == .outOfService || e.state == .held
  | .probe => singleReset u && e.state == .active
  | .hold => singleReset u && e.state == .active

/-- Grant an operation: it begins at the next tick, and its command waits (R504, R510). OUT OF SERVICE of a unit that is
already out of service completes at once. -/
def State.grant (s : State) (op : UnitOp) (u : Nat) (w : UnitWait) : State :=
  let e := s.unit u
  let s := s.modUnit u (fun e => { e with waits := e.waits ++ [w] })
  if op = .outOfService ∧ e.state = .outOfService then s.completeUnit u [.outOfService]
  else if (op = .reset ∧ e.state = .quiescing) ∨ e.asked.any (fun a => a.1 = op) then s
  else s.modUnit u (fun e => { e with asked := e.asked ++ [(op, s.meridian.frame)] })

/-- A UNIT CONTROL operation on a unit (R510). -/
def State.unitControl (s : State) (q : Sqe) (op : UnitOp) : State :=
  s.pfCommand q (fun s =>
    let u := dwField q.d11 0 16
    if unitCount ≤ u then s.complete q .invalidField
    else if !s.unitPermits op u then s.complete q .commandSequence
    else s.grant op u { op := op, fn := q.fn, sqid := q.sqid, cid := q.cid })

/-- UNIT_CONTROL_READ; an operation that Table Unit 4 does not list fails (R510). -/
def execUnitControlRead (q : Sqe) (s : State) : Result :=
  .next (s.pfCommand q (fun s =>
    let u := dwField q.d11 0 16
    if dwField q.d10 0 8 ≠ 0 ∨ unitCount ≤ u then s.complete q .invalidField
    else s.complete q .success (s.unitDw0 u)))

/-- UNIT_CONTROL_RESET (R510, R511). -/
def execUnitControlReset (q : Sqe) (s : State) : Result := .next (s.unitControl q .reset)

/-- UNIT_CONTROL_OUT_OF_SERVICE (R510). -/
def execUnitControlOutOfService (q : Sqe) (s : State) : Result := .next (s.unitControl q .outOfService)

/-- UNIT_CONTROL_RETURN (R510). -/
def execUnitControlReturn (q : Sqe) (s : State) : Result := .next (s.unitControl q .ret)

/-- UNIT_CONTROL_PROBE (R510). -/
def execUnitControlProbe (q : Sqe) (s : State) : Result := .next (s.unitControl q .probe)

/-- UNIT_CONTROL_HOLD (R510). -/
def execUnitControlHold (q : Sqe) (s : State) : Result := .next (s.unitControl q .hold)

/-! ### The management path (R507 to R509, R590) -/

/-- UNIT_RECONCILED (R509): probe result 0 failed, 1 passed, 2 no probe, 3 abandoned. -/
def State.reconciled (s : State) (u observed result : Nat) (st : UState) : State :=
  s.raiseM 0x0902 (le 2 u ++ [BitVec.ofNat 8 observed, BitVec.ofNat 8 result, BitVec.ofNat 8 st.code])

/-- A probe that a loss or a reset ends is abandoned (R509). -/
def State.abandonProbe (s : State) (u : Nat) : State :=
  match (s.unit u).observing with
  | none => s
  | some o =>
    let s := s.modUnit u (fun e => { e with observing := none, mgmt := false, probe := false, probePassed := false })
    s.reconciled u o 3 (s.unit u).state

/-- UNIT_REQUEST: granted or refused as a UNIT CONTROL of the same code, and answered at once (R590). -/
def execUnitRequest (t op u : Nat) (s : State) : Result :=
  .next (s.mgmt t (fun s =>
    let o := match op with
      | 1 => some UnitOp.reset | 2 => some .outOfService | 3 => some .ret | 4 => some .probe | _ => none
    match o with
    | some o =>
      if unitCount ≤ u ∨ !s.unitPermits o u then s.reply 4 []
      else
        let s := s.grant o u { op := o, mgmt := true }
        s.reply 0 (le 4 (s.unitDw0 u))
    | none => s.reply 4 []))

/-- States in which an observation is kept until the unit returns to ACTIVE (R504, R508 edges). -/
def UState.keeps : UState → Bool
  | .quiescing => true | .held => true | .resetting => true | .off => true | _ => false

/-- UNIT_OBSERVE: an observation of higher rank waits for the next tick; one of lower or the same rank changes nothing;
one that meets a probe of its unit is decided by that probe (R508, R509). -/
def execUnitObserve (t u st : Nat) (s : State) : Result :=
  .next (s.mgmt t (fun s =>
    if unitCount ≤ u ∨ 7 ≤ st then s.reply 4 []
    else
      let s := s.reply 0 []
      let e := s.unit u
      if e.observing.isSome then s.modUnit u (fun e => { e with observing := some st })
      else if e.observed.isSome ∨ e.state.keeps then
        s.modUnit u (fun e => { e with observed := some (st, (e.observed.elim s.meridian.frame (·.2))), probe := true })
      else if st ≤ e.state.code then s.reconciled u st 2 e.state
      else if singleReset u then s.modUnit u (fun e => { e with observed := some (st, s.meridian.frame), probe := true })
      else s.modUnit u (fun e => { e with observing := some st, probe := true })))

/-- UNIT_CONTESTED: at the tick after the observation, in a state that does not keep it (R508). -/
def execUnitContested (t u : Nat) (s : State) : Result :=
  let s := s.at t
  let e := s.unit u
  match e.observed with
  | none => .next s
  | some (o, f) =>
    if s.meridian.frame ≤ f ∨ e.state.keeps ∨ e.asked.any (fun a => a.1.drains) then .next s
    else if o ≤ e.state.code then
      .next ((s.modUnit u (fun e => { e with observed := none, probe := false })).reconciled u o 2 e.state)
    else
      let s := s.modUnit u (fun e => { e with observed := none, observing := some o, before := e.state, mgmt := true })
      let s := s.setUnitState u .contested
      .next (s.raiseM 0x0901 (le 2 u ++ le 6 e.epoch ++ [BitVec.ofNat 8 e.state.code, BitVec.ofNat 8 o]))

/-! ### Drains, resets and losses (R511 to R516) -/

/-- A unit's power-up condition, where it differs from what firmware applies again (R513, R560): a core loses what its
bank, registers and kernel store hold; a drift's channel operations end; an Assay set is empty; a link goes down. -/
def State.unitCleared (s : State) (u : Nat) : State :=
  let s := (unitSpan u).foldl (fun s n =>
    if n < 256 then s.setCore n { bound := (s.core n).bound } else s) s
  if 256 ≤ u ∧ u < 320 then
    let s := s.modDrift (u - 256) (fun d => { d with dies := tmapv d.dies (fun _ x =>
      { x with op := none, suspended := false, suspensions := 0, limited := false, critical := 0 }) })
    { s with assay := { s.assay with sets := tmod s.assay.sets (u - 256) {} (fun a => { a with stats := [] }) } }
  else if 320 ≤ u ∧ u < 332 then
    { s with assay := { s.assay with sets := tmod s.assay.sets (64 + (u - 320)) {} (fun a => { a with stats := [] }) } }
  else if 363 ≤ u ∧ u < unitCount ∧ ((s.port (u - 363)).state = .up ∨ (s.port (u - 363)).state = .lantern) then
    s.linkDown (u - 363)
  else s

/-- UNIT_OUT_OF_SERVICE, as the unit enters the state: 0 requested, 1 recovery limit, 2 probe failed (R510, R515). -/
def State.leaveService (s : State) (u cause : Nat) : State :=
  let s := s.setUnitState u .outOfService
  let s := s.raiseM 0x0906 (le 2 u ++ [BitVec.ofNat 8 cause])
  let s := s.modUnit u (fun e => { e with asked := e.asked.filter (fun a => a.1 != .reset && a.1 != .outOfService)
                                          drain := none, resetDone := none })
  s.completeUnit u [.reset, .outOfService, .ret]

/-- A reset that has begun: RESETTING under the epoch it has now (R505, R512, R513). -/
def State.beginReset (s : State) (u oldEpoch cause : Nat) : State :=
  let s := (unitSpan u).foldl (fun s v =>
    let st := (s.unit v).state
    if v ≠ u ∧ (st = .off ∨ st = .outOfService) then s
    else
      let s := s.modUnit v (fun e => { e with oldEpoch := if v = u then oldEpoch else e.epoch, resetCause := cause
                                              epoch := if v = u then e.epoch else (e.epoch + 1) % 2 ^ 48
                                              kept := if v ≠ u ∧ st = .held then some .hold else e.kept
                                              drain := none, resetDone := none })
      s.setUnitState v .resetting) s
  s.unitCleared u

/-- QUIESCE_REQUEST at tick q: the operation of highest rank that was granted before it begins its drain; best-effort
jobs that use the unit are pre-empted, and a probe that runs is abandoned (R504, R509, R511). -/
def execQuiesceRequest (t u : Nat) (s : State) : Result :=
  let s := s.at t
  let e := s.unit u
  let due := (e.asked.filter (fun a => a.1.drains && decide (a.2 < s.meridian.frame))).map (·.1)
  let op := due.foldl (fun (m : Option UnitOp) o => match m with
    | some x => if x.rank < o.rank then some o else some x
    | none => some o) none
  match op with
  | none => .next s
  | some o =>
    if e.state = .active ∨ e.state = .contested ∨ e.state = .held then
      let s := (if o = .reset then unitSpan u else [u]).foldl (fun s v =>
        let s := if (s.unit v).state = .active ∨ (s.unit v).state = .contested ∨ (s.unit v).state = .held
          then s.setUnitState v .quiescing else s
        s) s
      let s := s.modUnit u (fun e => { e with drain := some o, drainFrame := s.meridian.frame
                                              asked := e.asked.filter (fun a => a.1 != o) })
      let s := s.abandonProbe u
      .next ((s.holders u).foldl (fun s k =>
        match s.packet? k with
        | some p => if p.bestEffort then s.preempt k else s
        | none => s) s)
    else .next s

/-- DRAIN_END: the unit has no request left, or tick q + 1 has come. `left` are the jobs with a request that is still
queued at the unit or served by it; they and the jobs that still hold its cores fault with loss of a unit. The epoch
rises, a steward's Modified lines having been written back, and the unit enters the state of its drain (R511, R512). -/
def execDrainEnd (t u : Nat) (left : List Nat) (s : State) : Result :=
  let s := s.at t
  let e := s.unit u
  let held := if 256 ≤ u ∧ u < 320 then [] else s.holders u
  let jobs := dedupNat (held ++ left)
  match e.drain with
  | none => .next s
  | some o =>
    if e.state ≠ .quiescing ∨ (s.meridian.frame ≤ e.drainFrame ∧ jobs ≠ []) then .next s
    else
      let s := if 332 ≤ u ∧ u < 348 then s.stewardFlush (u - 332) else s
      let s := s.modUnit u (fun e => { e with epoch := (e.epoch + 1) % 2 ^ 48, drain := none })
      let s := jobs.foldl (fun s k => s.faultJob k .unitLoss (unitLocator (s.unit u).epoch u) u) s
      match o with
      | .hold => .next ((s.setUnitState u .held).completeUnit u [.hold])
      | .outOfService => .next ((s.unitCleared u).leaveService u 0)
      | _ => .next (s.beginReset u e.epoch 0)

/-- UNIT_RESET (0x0904). -/
def State.resetEvent (s : State) (u : Nat) (pass : Bool) : State :=
  let e := s.unit u
  s.raiseM 0x0904 (le 2 u ++ le 6 e.oldEpoch ++ le 6 e.epoch ++ [BitVec.ofNat 8 e.resetCause, BitVec.ofNat 8 (bit pass)])

/-- A core whose reset or power-on has ended: its kernel store is filled, and its bound image is to be streamed before it
is ready (Table Unit 5, R483). -/
def RCore.refilled (c : RCore) : RCore := { c with kernelStore := true, image := 0, ready := c.bound == 0 }

/-- The end of a passed reset: ACTIVE, or the state of a drain that a loss interrupted (R513, R514 edges). -/
def State.endReset (s : State) (u : Nat) : State :=
  let s := s.resetEvent u true
  let s := (unitSpan u).foldl (fun s v =>
    if (s.unit v).state ≠ .resetting then s
    else
      let s := if v < 256 then s.setCore v (s.core v).refilled else s
      if v ≠ u ∧ (s.unit v).kept = some .hold then
        (s.modUnit v (fun e => { e with kept := none })).setUnitState v .held
      else s.setUnitState v .active) s
  let k := (s.unit u).kept
  let s := s.modUnit u (fun e => { e with resetDone := none, kept := none })
  let s := s.completeUnit u [.reset, .ret]
  match k with
  | some .hold => (s.setUnitState u .held).completeUnit u [.hold]
  | some .outOfService => s.leaveService u 0
  | _ => s

/-- UNIT_RESET: the reset and its probe end. A failed probe takes the unit out of service at once; after a passed one
the unit is ACTIVE, and the event raised, at the next tick (R504, R513, Table Unit 11). A domain's power decides nothing
here: a unit that went off is no longer RESETTING. -/
def execUnitReset (t u : Nat) (pass : Bool) (s : State) : Result :=
  let s := s.at t
  if (s.unit u).state ≠ .resetting ∨ (s.unit u).resetDone.isSome ∨ !singleReset u then .next s
  else if pass then .next (s.modUnit u (fun e => { e with resetDone := some true }))
  else
    let s := s.resetEvent u false
    let s := s.leaveService u 2
    .next ((s.modUnit u (fun e => { e with kept := none })).completeUnit u [.hold])

/-- 24 powered hours, in ns. -/
def dayNs : Nat := 24 * hourNs

/-- Recovery resets of the last 24 powered hours (R515). -/
def State.recoveries (s : State) (u : Nat) : Nat :=
  ((s.unit u).recov.filter (fun x => decide (s.now < x + dayNs))).length

/-- Every steward is lost (R422 cause 3): none is in a state in which it runs. -/
def State.allStewardsLost (s : State) : Bool :=
  (List.range 16).all (fun i => (s.unit (332 + i)).state == .resetting || (s.unit (332 + i)).state == .outOfService)

/-- The singleton units whose loss is a module fault with cause 2: the stacks, the Cage, the Stope, the Catalogue; the
others start a cold module reset (R516). -/
def faultsModule (u : Nat) : Bool := 348 ≤ u && u ≤ 358

/-- Loss of a unit (R515): cause 0 internal error, 1 watchdog, 2 no acknowledgement, 3 link. The epoch rises, its jobs
fault, and a recovery reset begins, or the unit leaves service at its recovery limit. After the loss of a singleton unit
firmware starts a cold module reset, unless it is a module fault (R516). -/
def State.loseUnit (s : State) (u cause : Nat) : State :=
  let e := s.unit u
  if unitCount ≤ u ∨ e.state = .off ∨ e.state = .outOfService then s
  else
    let s := s.modUnit u (fun e => { e with epoch := (e.epoch + 1) % 2 ^ 48
                                            kept := match e.drain with
                                              | some .hold => some .hold
                                              | some .outOfService => some .outOfService
                                              | _ => e.kept
                                            drain := none })
    let s := s.faultHolders (unitCores u) u
    let s := s.raiseM 0x0905 (le 2 u ++ le 6 (s.unit u).epoch ++ [BitVec.ofNat 8 cause])
    if !singleReset u then
      if faultsModule u then s.moduleFault 2
      else s.orderlyReset
    else
      let s := if 332 ≤ u ∧ u < 348 then s.stewardLost (u - 332) else s
      let s := if 3 ≤ s.recoveries u then (s.unitCleared u).leaveService u 1
        else
          let s := s.modUnit u (fun e => { e with recov := s.now :: e.recov.filter (fun x => decide (s.now < x + dayNs)) })
          s.beginReset u e.epoch 1
      let s := (s.abandonProbe u).completeUnit u [.probe]
      let s := if (s.unit u).state = .outOfService then
          (s.modUnit u (fun e => { e with kept := none })).completeUnit u [.hold]
        else s
      if s.allStewardsLost then s.moduleFault 3 else s

/-- UNIT_LOST. A fabric port is lost when its link has stayed down after three failed retrainings (R515). -/
def execUnitLost (t u cause : Nat) (s : State) : Result :=
  let s := s.at t
  if cause = 3 ∧ !(363 ≤ u && u < unitCount && decide (3 ≤ (s.port (u - 363)).retrainFails)) then .next s
  else .next (s.loseUnit u (min cause 3))

/-- RECONCILIATION_PROBE_END: the probe of an observation, or of UNIT CONTROL PROBE, ends. On a pass the unit returns at
the next tick to the state it held; a failure is a loss, but never for a singleton unit (R509, R510). -/
def execReconciliationProbeEnd (t u : Nat) (pass : Bool) (s : State) : Result :=
  let s := s.at t
  let e := s.unit u
  let asked := e.waits.any (fun w => w.op = .probe)
  if e.observing.isNone ∧ !asked then .next s
  else
    let single := singleReset u
    let s := s.modUnit u (fun e => { e with observing := none, probe := e.observed.isSome
                                            asked := e.asked.filter (fun a => a.1 != .probe) })
    let s := if pass then
        let s := if e.observing.isSome ∧ single then s.modUnit u (fun e => { e with probePassed := true }) else s
        s.completeUnit u [.probe] true
      else if single then (s.modUnit u (fun e => { e with mgmt := false })).loseUnit u 0
      else s
    match e.observing with
    | some o => .next (s.reconciled u o (bit pass)
        (if pass ∧ single then e.before else (s.unit u).state))
    | none => .next s

end Sys2Proof.Machine
end

