-- ==== Sys2Proof/Machine/Jobs.lean ====
section
/-!
DEFINITION. The work of the jobs: what each opcode computes from its inputs as of its admission, the marks that stop it, and
the faults of a run (spec/06_work_packets.md, R160 to R168; spec/07, 08, 09; spec/10, R285 to R289; spec/15, R408 to R421).
-/
namespace Sys2Proof.Machine

/-! ### Marks in what a job reads (R338, R410, R418, R419) -/

/-- The marked units of an object with their locators: units whose Tier F sector cannot be read, and those marked in a
resident lode. -/
def State.marksOf (s : State) (o : Object) : Tbl Nat :=
  o.badUnits ++ (s.cage.map.filter (fun p => p.2.state == .resident && decide (o.base ≤ p.2.wlode ∧ p.2.wlode < o.base + o.lodes))).flatMap
    (fun p => p.2.poison.map (fun m => ((p.2.wlode - o.base) * 1024 + m.1,
      if m.2 = 0 then deviceLocator (p.1 * lodeBytes + 64 * m.1) else m.2)))

/-- A byte range as a range of units: the first, and how many. -/
def unitRange (off n : Nat) : Nat × Nat := if n = 0 then (0, 0) else (off / 64, (off + n - 1) / 64 - off / 64 + 1)

/-- The locator of the first marked unit in ranges of an object's units, if any; of a byte object, a unit that nothing has
written is marked too. -/
def State.readMark (s : State) (o : Object) (ranges : List (Nat × Nat)) : Option Nat :=
  let marks := s.marksOf o
  let raw := match o.body with
    | .index _ => false
    | .kv _ => false
    | _ => !o.zeroed
  ranges.findSome? (fun r =>
    match marks.find? (fun m => decide (r.1 ≤ m.1 ∧ m.1 < r.1 + r.2)) with
    | some m => some m.2
    | none =>
      if raw then ((List.range r.2).find? (fun i => !o.units.contains (r.1 + i))).map (fun i =>
        deviceLocator (unitAddress s.cage o (r.1 + i)))
      else none)

/-- The whole of some lodes of an object, as ranges of units. -/
def lodeRanges (o : Object) (ws : List Nat) : List (Nat × Nat) := ws.map (fun w => ((w - o.base) * 1024, 1024))

/-- What a search or an insert reads of an index's fixed components, in the order of Table Seam 1 (notes/assumptions/15.md): the
descriptor, the centroids, the codebooks, and of some seams their directory entries and ID columns. -/
def IndexBody.fixedRanges (b : IndexBody) (o : Object) (seams : List Nat) : List (Nat × Nat) :=
  let c0 := o.lodes - o.fixedLodes + 1
  let cen := b.nlist * b.dim * b.ec
  let c1 := c0 + ceilDiv cen lodeBytes
  let books := if b.code = 1 then 32 * b.dim else 0
  let c2 := c1 + ceilDiv books lodeBytes
  let c3 := c2 + ceilDiv (64 * b.nlist) lodeBytes
  [((c0 - 1) * 1024, 1), unitRange (c0 * lodeBytes) cen, unitRange (c1 * lodeBytes) books] ++
    seams.flatMap (fun j => [(c2 * 1024 + j, 1), unitRange (c3 * lodeBytes + 8 * j * b.seamCap) (8 * b.seamCap)])

/-- What an ATTEND reads of a KV object's fixed components, in the order of Table Attend 1 (notes/assumptions/15.md): the descriptor,
the summaries of the context, and of the planned items the open block's tokens and the hot stripes. -/
def KvBody.fixedRanges (b : KvBody) (o : Object) (a : Attend) (items : List (Nat × Nat)) : List (Nat × Nat) :=
  let c0 := o.lodes - o.fixedLodes + 1
  let c1 := c0 + ceilDiv (b.layers * b.heads * b.maxBlocks * 4 * b.dim) lodeBytes
  let c2 := c1 + ceilDiv (b.layers * b.heads * 256 * 2 * b.dim * 2) lodeBytes
  let hot := b.hotSinks + b.hotRecent
  let place := fun blk : Nat => if blk < b.hotSinks then blk else b.hotSinks + blk % b.hotRecent
  [((c0 - 1) * 1024, 1)] ++
  (List.range b.heads).map (fun h => unitRange (c0 * lodeBytes + (a.layer * b.heads + h) * b.maxBlocks * 4 * b.dim) (a.nb * 4 * b.dim)) ++
  items.flatMap (fun (h, blk) =>
    if b.len a.layer / 256 ≤ blk then [unitRange (c1 * lodeBytes + (a.layer * b.heads + h) * 256 * 4 * b.dim) (a.tokens blk * 4 * b.dim)]
    else if b.hot a.layer blk then
      let base := c2 + (a.layer * hot + place blk) * b.stripe
      [(base * 1024, b.scaleLodes * 1024), ((base + b.scaleLodes + h * b.tileLodes) * 1024, b.tileLodes * 1024)]
    else [])

/-! ### How a run ends -/

/-- What the work of a job gives: its payload, flags, and the object that its commit leaves or deletes. -/
structure Work where
  payload : List Byte := []
  trunc : Bool := false
  satd : Bool := false
  change : Option Object := none
  delete : Option Nat := none

/-- The end of a job's work: done, or poison consumed, with its locator; whether it came from a lost map entry. -/
inductive JobEnd
  | done (w : Work)
  | poison (loc : Nat) (lost : Bool)

/-- The work, unless what it reads carries a mark. -/
def unlessMarked (mark : Option Nat) (w : Work) : JobEnd :=
  match mark with
  | some loc => .poison loc false
  | none => .done w

/-- The jobs that hold a lode through their plans. -/
def State.lodeJobs (s : State) (w : Nat) : Nat :=
  (s.packets.live.filter (fun p => p.2.phase == .running && (p.2.plan.elim false (fun pl => pl.lodes.contains w)))).length

/-- Count again the jobs that hold each lode of a list. -/
def State.recount (s : State) (ws : List Nat) : State :=
  let m := ws.foldl (fun m w => match s.cage.find w with
    | some h => tupd m h (fun e => { e with jobs := s.lodeJobs w })
    | none => m) s.cage.map
  { s with cage := { s.cage with map := m } }

/-- Lodes that may be handed out as job lodes: scrubbed or zeroed ones (R324). -/
def State.handOut (s : State) (hs : List Nat) : List Nat :=
  (dedupNat hs).filter (fun h => decide (h < tierHLodes) && !s.cage.isCheck h && ((s.cage.entry h).state == .scrubbed || (s.cage.entry h).state == .zeroed))

/-- A run's work is done: its payload is staged, its cores and staged lodes are released, and its answer waits to be
delivered (R38, R408). -/
def State.finishJob (s : State) (key : Nat) (pl : Plan) (hs : List Nat) (w : Work) : State :=
  let hs := s.handOut hs
  let s := s.stopCores key
  let c := s.cage
  let s := { s with cage := { c with reserved := terase c.reserved key, map := hs.foldl (fun m h => tset m h { state := .job, dirty := false }) c.map } }
  let s := s.updateRecord key (fun p =>
    { p with phase := .finished, status := .done, fault := none, payload := w.payload, truncated := w.trunc || pl.trunc
             satd := p.satd || w.satd, cost := pl.cost, energy := pl.energy, cores := [], jobLodes := hs
             changes := w.change.toList, deletes := w.delete.toList })
  s.recount pl.lodes

/-- The drifts on which a search scans its seams: a best-effort pass takes no drift that is withheld, held or not eligible, a
contracted one waits only for the unit itself (R86, R196, R197, R411). -/
def State.driftsReady (s : State) (p : Packet) (pl : Plan) : Bool :=
  pl.drifts.all (fun d => s.eligibleUnit d && s.eligibleUnit (256 + d) &&
    (!p.bestEffort || (!s.orrery.withheld.contains d && (s.core d).packet.isNone)))

/-- The first drift of a plan that is out of service or without power for good in this run: the job loses it (Table Ruhaic 8). -/
def State.lostDrift (s : State) (pl : Plan) : Option Nat :=
  pl.drifts.find? (fun d => let st := (s.unit d).state; st == .outOfService || st == .off)

/-- The input objects of a run. -/
def Packet.prim (p : Packet) : Option Object := objIn p.snap p.hdr.primary

/-- See `Packet.prim`. -/
def Packet.sec (p : Packet) : Option Object := objIn p.snap p.hdr.secondary

/-- A drift can serve again: it is not out of service and not without power (R411). -/
def State.driftServes (s : State) (d : Nat) : Bool :=
  [d, 256 + d].all (fun u => (s.unit u).state != .outOfService && (s.unit u).state != .off)

/-- The window lodes of a copy of a seam (R176, R197). -/
def IndexBody.copyLodes (b : IndexBody) (o : Object) (j : Nat) (replica : Bool) : List Nat :=
  (List.range b.sl).map (fun i => o.base + b.seamLode j replica + i)

/-- A copy of a seam can be read: its drift serves and none of its units is marked (R197, R375, R411). -/
def State.copyServes (s : State) (o : Object) (b : IndexBody) (marks : Tbl Nat) (j : Nat) (replica : Bool) : Bool :=
  let first := b.seamLode j replica * 1024
  s.driftServes (seamDrift (objNumber o.handle) j replica) && !marks.any (fun m => decide (first ≤ m.1 ∧ m.1 < first + b.sl * 1024))

/-- The plan reads the other copy of a seam whose drift is gone or whose lodes are marked, where that copy can be read
(R197, R375, R411, R418 edges). -/
def State.reroute_ (s : State) (p : Packet) (pl : Plan) : Plan :=
  match p.prim, p.prim.bind Object.index? with
  | some o, some b =>
    if b.replicas = 0 ∨ pl.drifts.isEmpty then pl
    else
      let num := objNumber o.handle
      let marks := s.marksOf o
      let picks := (pl.items.zip pl.drifts).map (fun (x : Nat × Nat) =>
        let r := x.2 != seamDrift num x.1 false
        (x.1, if s.copyServes o b marks x.1 r || !s.copyServes o b marks x.1 (!r) then r else !r))
      { pl with drifts := picks.map (fun (x : Nat × Bool) => seamDrift num x.1 x.2)
                lodes := picks.flatMap (fun (x : Nat × Bool) => b.copyLodes o x.1 x.2) }
  | _, _ => pl

/-- A running job takes the plan that `reroute_` gives it, and asks for the lodes that this brings in (R197, R333). -/
def State.replan (s : State) (key : Nat) (old new : Plan) : State :=
  if new = old then s
  else
    let s := (s.modPacket key (fun p => { p with plan := some new })).recount (old.lodes ++ new.lodes)
    { s with cage := new.lodes.foldl Cage.want s.cage }

/-- A planned drift is gone, or the job waits: for its lodes, its image, a drift, or an access that a lode in transit holds back. -/
def State.jobReady (s : State) (p : Packet) (pl : Plan) : Bool :=
  s.cage.allResident pl.lodes && p.cores.all (fun n => decide ((s.core n).streamingUntil ≤ s.now)) && s.driftsReady p pl

/-- The row of an opcode: nothing while the packet it names is not a running job of the opcode, or has to wait; then its work,
with job lodes handed out for what it changes. -/
def State.run (s : State) (t key : Nat) (ops : List Nat) (hs : List Nat) (work : State → Packet → Plan → JobEnd) : State :=
  let s := s.at t
  match s.packet? key with
  | none => s
  | some p =>
    match p.plan with
    | none => s
    | some pl =>
      if p.phase ≠ .running ∨ !ops.contains p.hdr.opcode ∨ s.global.mfault then s
      else match s.lostDrift pl with
        | some d => s.faultJob key .unitLoss (unitLocator (s.unit d).epoch d) d
        | none =>
          let new := s.reroute_ p pl
          let s := s.replan key pl new
          let pl := new
          if pl.fits && !s.jobReady p pl then s
          else match work s p pl with
            | .poison loc lost => s.faultJob key .poison loc 0 lost
            | .done w => s.finishJob key pl hs w

/-- A handle and a version. -/
def handleVersion (h v : Nat) : List Byte := le 8 h ++ le 8 v

/-! ### Seam search (spec/07) -/

/-- A list filter that is out of order decides freely which of its IDs it holds, the same on every run (R193, R416). -/
def Packet.choice (p : Packet) (id : Nat) : Bool := Config.freeChoice ((p.hdr.packetId + 1) * 2 ^ 64 + id)

/-- The work of a search (R182 to R194). -/
def searchWork (s : State) (p : Packet) (pl : Plan) : JobEnd :=
  match p.prim, p.prim.bind Object.index? with
  | some o, some b =>
    if !pl.fits then .done {}
    else
      let q := Search.read p.param
      let query := (acceptVec b.metric (q.query p.param)).getD []
      let filter := if p.hdr.opcode = 0x0102 then some (Filter.read (q.filterBytes p.param p.sec)) else none
      let found := b.search query pl.items (if p.sub then q.kPrime else q.k) q.rerankN pl.rerank (fun id => filter.elim true (fun f => f.admits p.choice id))
      let ranked := if pl.rerank then found.map (fun c =>
          unitRange (b.rerankLode (c.token / 65536) * lodeBytes + c.token % 65536 * b.rb) b.rb) else []
      let mark := (s.readMark o (b.fixedRanges o pl.items ++ lodeRanges o pl.lodes ++ ranked)).orElse (fun _ =>
        match p.sec, filter with
        | some x, some f => s.readMark x [unitRange q.filtOff (32 + filterBytes f.form f.count)]
        | _, _ => none)
      unlessMarked mark { payload := found.flatMap (fun c => c.encode ++ (if p.sub then le 8 c.token else [])) }
  | _, _ => .done {}

/-- A changed object, and the version its commit gives; no change where nothing was done. -/
def changed (o : Object) (b : ObjBody) (any : Bool) : Option Object × Nat :=
  if any then (some { o with body := b }, o.version + 1) else (none, o.version)

/-- The work of SEAM INSERT: its leading records inserted or deleted (R202, R203). -/
def insertWork (s : State) (p : Packet) (pl : Plan) : JobEnd :=
  match p.prim, p.prim.bind Object.index? with
  | some o, some b =>
    let q := Insert.read p.param
    let n := pl.items.headD 0
    if !pl.fits then .done { payload := le 8 0 ++ le 8 o.version }
    else if q.op = 0 then
      let (b', toks, stop) := b.insertAll (readRecords b.metric q.qfmt q.qscale b.dim n (p.param.drop 32))
      let (c, v) := changed o (.index b') (!toks.isEmpty)
      unlessMarked (s.readMark o (b.fixedRanges o []))
        { payload := le 4 toks.length ++ le 4 0 ++ le 8 v ++ toks.flatMap (le 8), trunc := stop, change := c }
    else
      let (b', absent) := b.deleteAll [] ((List.range n).map (fun i => leAt p.param (32 + 8 * i) 8))
      let (c, v) := changed o (.index b') (absent != n)
      .done { payload := le 4 (n - absent) ++ le 4 absent ++ le 8 v, change := c }
  | _, _ => .done {}

/-- SEAM_INSERT (R202). -/
def execSeamInsert (t key : Nat) (lodes : List Nat) (s : State) : Result := .next (s.run t key [0x0110] lodes insertWork)

/-- The bytes of one record of R201. -/
def recordBytes (qfmt dim : Nat) : Nat := 8 + dim * (qBytes qfmt).getD 4

/-- The work of SEAM BUILD CREATE: it trains from its sample, and creates the index empty (R206, R208). -/
def createWork (s : State) (p : Packet) (pl : Plan) : JobEnd :=
  match p.sec, p.create with
  | some src, some o =>
    let bd := Build.read p.param
    let b := bd.body
    if !pl.fits then .done {}
    else
      let recs := readRecords b.metric bd.qfmt bd.qscale b.dim bd.sampleN (src.all.drop bd.inOff)
      let sample := recs.map (fun r => r.2.getD (List.replicate b.dim 0))
      unlessMarked (s.readMark src [unitRange bd.inOff (bd.sampleN * recordBytes bd.qfmt b.dim)])
        { payload := handleVersion o.handle 1, change := some { o with body := .index (b.train bd.iter sample) } }
  | _, _ => .done {}

/-- SEAM_BUILD_CREATE (R206). A block that names LOAD is not its row. -/
def execSeamBuildCreate (t key : Nat) (lodes : List Nat) (s : State) : Result :=
  match s.packet? key with
  | some p => if leAt p.param 0 1 = 0 then .next (s.run t key [0x0111] lodes createWork) else .next (s.at t)
  | none => .next (s.at t)

/-- The work of SEAM BUILD LOAD (R207, R208). -/
def loadWork (s : State) (p : Packet) (pl : Plan) : JobEnd :=
  match p.sec, p.prim, p.prim.bind Object.index? with
  | some src, some o, some b =>
    let bd := Build.read p.param
    let n := pl.items.headD 0
    if !pl.fits then .done { payload := handleVersion 0 o.version }
    else
      let recs := readRecords b.metric bd.qfmt bd.qscale b.dim n (src.all.drop bd.inOff)
      let (b', toks, stop) := b.insertAll recs
      let (c, v) := changed o (.index b') (!toks.isEmpty)
      let mark := (s.readMark src [unitRange bd.inOff (n * recordBytes bd.qfmt b.dim)]).orElse (fun _ => s.readMark o (b.fixedRanges o []))
      unlessMarked mark { payload := handleVersion toks.length v ++ (if bd.tokens then toks.flatMap (le 8) else [])
                          trunc := stop, change := c }
  | _, _, _ => .done {}

/-- SEAM_BUILD_LOAD: `records` of its records are done; it writes a checkpoint after every 65,536, and ends after the last of its
plan (R207). -/
def execSeamBuildLoad (t key records : Nat) (lodes : List Nat) (s : State) : Result :=
  match s.packet? key with
  | some p =>
    if leAt p.param 0 1 ≠ 1 then .next (s.at t)
    else if records < p.plan.elim 0 (fun pl => pl.items.headD 0) then
      if p.phase = .running ∧ p.hdr.opcode = 0x0111 then
        .next ((s.at t).modPacket key (fun p => { p with progress := tset p.progress 0 (max (tgetD p.progress 0 0) (records / 65536 * 65536)) }))
      else .next (s.at t)
    else .next (s.run t key [0x0111] lodes loadWork)
  | none => .next (s.at t)

/-! ### KV objects (spec/08) -/

/-- The items of an ATTEND plan. -/
def Plan.heads (pl : Plan) : List (Nat × Nat) := pl.items.map (fun i => (i / 65536, i % 65536))

/-- The work of ATTEND: the partials of every query head over the blocks of its plan (R223 to R229). -/
def attendWork (s : State) (p : Packet) (pl : Plan) : JobEnd :=
  match p.prim, p.prim.bind Object.kv? with
  | some o, some b =>
    let a := Attend.read p.param
    let (d, sat) := b.attend a o.version pl.heads pl.fits
    if !pl.fits then .done { payload := d }
    else unlessMarked (s.readMark o (b.fixedRanges o a pl.heads ++ lodeRanges o pl.lodes)) { payload := d, satd := sat }
  | _, _ => .done {}

/-- ATTEND (R223 to R229). -/
def execAttend (t key : Nat) (s : State) : Result := .next (s.run t key [0x0201] [] attendWork)

/-- The work of APPEND KV: all of its tokens, or nothing where its hold does not fit its cap (R218, R220 edges). -/
def appendWork (s : State) (p : Packet) (pl : Plan) : JobEnd :=
  match p.prim, p.prim.bind Object.kv? with
  | some o, some b =>
    let a := readAppend p.param
    if !pl.fits then .done { payload := le 4 a.start ++ le 4 0 ++ le 8 o.version }
    else
      let c0 := o.lodes - o.fixedLodes
      let opened := ceilDiv (b.layers * b.heads * b.maxBlocks * 4 * b.dim) lodeBytes
      let read := (List.range a.layers).flatMap (fun i => (List.range b.heads).map (fun h =>
        unitRange ((c0 + 1 + opened) * lodeBytes + ((a.first + i) * b.heads + h) * 256 * 4 * b.dim) (b.len (a.first + i) % 256 * 4 * b.dim)))
      unlessMarked (s.readMark o ((c0 * 1024, 1) :: read))
        { payload := le 4 (a.start + a.count) ++ le 4 0 ++ le 8 (o.version + 1), change := some { o with body := .kv (b.append a) } }
  | _, _ => .done {}

/-- APPEND_KV (R218). -/
def execAppendKv (t key : Nat) (lodes : List Nat) (s : State) : Result := .next (s.run t key [0x0202] lodes appendWork)

/-- The work of KV OPEN: a KV object with every layer empty (R215). -/
def openWork (_ : State) (p : Packet) (_ : Plan) : JobEnd :=
  match p.create with
  | some o => .done { payload := handleVersion o.handle 1, change := some o }
  | none => .done {}

/-- KV_OPEN (R215). -/
def execKvOpen (t key : Nat) (lodes : List Nat) (s : State) : Result := .next (s.run t key [0x0203] lodes openWork)

/-- The work of KV CLOSE and of PLACE delete: the handle, and the last version (R163, R220). -/
def deleteWork (s : State) (p : Packet) (_ : Plan) : JobEnd :=
  let v := ((s.objects.named p.hdr.primary).orElse (fun _ => p.prim)).elim 0 (·.version)
  .done { payload := handleVersion p.hdr.primary v, delete := some (objNumber p.hdr.primary) }

/-- KV_CLOSE (R220). -/
def execKvClose (t key : Nat) (s : State) : Result := .next (s.run t key [0x0204] [] deleteWork)

/-! ### SIFT and EMBED (spec/09) -/

/-- The rows of the first `k` sectors of a SIFT, each evaluated on its record (R239 to R241). -/
def Sift.rowsOf (q : Sift) (v : View) (n : Namespace) (blocks : Tbl SectorState) (mask : Option (List Byte)) (k : Nat) :
    List RowResult :=
  let first := q.rowFirst / v.rps
  (List.range k).flatMap (fun i =>
    let d := (sectorBytes n blocks v.slba (first + i)).getD []
    ((List.range v.rps).map (fun j => ((first + i) * v.rps + j, sliceBytes d (j * v.width) v.width))).filterMap (fun (row, r) =>
      if q.rowFirst ≤ row ∧ row < q.rowFirst + q.rc v then
        some { row := row, hit := maskHolds mask row && evalTree v q r q.nodes [], id := v.id row r }
      else none))

/-- The work of a SIFT over its planned sectors; `bad` is the locator of a sector that its reads could not decode (R237, R242
to R247). -/
def siftWork (bad : Option Nat) (s : State) (p : Packet) (pl : Plan) : JobEnd :=
  match p.prim with
  | none => .done {}
  | some o =>
    let q := Sift.read p.param
    let v := View.read o.all
    match tget? s.link.namespaces v.nsid with
    | none => .done {}
    | some n =>
      let blocks := tgetD p.views v.nsid []
      let k := if pl.fits then pl.items.headD 0 else 0
      let first := q.rowFirst / v.rps
      let lost := (List.range k).any (fun i => (sectorBytes n blocks v.slba (first + i)).isNone)
      let mask := p.sec.map (fun x => x.all.drop q.maskOff)
      let (d, cut) := q.output v (q.rowsOf v n blocks mask k) p.hdr.answerLen
      if !pl.fits then .done { payload := d }
      else
        let mark := (s.readMark o [unitRange 0 (64 + 16 * v.cols.length)]).orElse (fun _ => p.sec.bind (fun x =>
          s.readMark x [unitRange q.maskOff (32 + ((mask.elim 0 (fun m => (Filter.read m).count)) + 7) / 8)]))
        match bad, mark with
        | some loc, _ => .poison loc false
        | none, some loc => .poison loc false
        | none, none => if lost then .poison (tierFLocator (sectorDrift n v.slba first) 0 0 0 0 0) true else .done { payload := d, trunc := cut }

/-- The map pages of a SIFT's planned sectors: 4,096 entries of a namespace's map on one drift to a page (R367, R368, R371). -/
def mapPages (n : Namespace) (slba first count : Nat) : List (Nat × Nat) :=
  dedupPages ((List.range count).map (fun i =>
    let sec := slba * n.sectorsPerLba + first + i
    (n.nsid, nsDrift n.nsid (sec / 4) * 2 ^ 32 + (sec / 256 * 4 + sec % 4) / 4096)))

/-- The pages of the views used last that fit in 256 MiB of 16 KiB pages: the pages of the least recently used go first (R371). -/
def fitPinned (l : List (Nat × List (Nat × Nat))) : Nat → List (Nat × List (Nat × Nat))
  | 0 => l
  | fuel + 1 => if 16384 < sumNat (l.map (fun x => x.2.length)) then fitPinned (l.drop 1) fuel else l

/-- A view's SIFT has used map pages: they stay pinned to the view (R371). -/
def State.pinViews (s : State) (view : Nat) (pages : List (Nat × Nat)) : State :=
  let old := ((s.media.pinnedViews.find? (fun x => x.1 == view)).map (·.2)).getD []
  let l := s.media.pinnedViews.filter (fun (x : Nat × List (Nat × Nat)) => x.1 != view) ++ [(view, dedupPages (old ++ pages))]
  { s with media := { s.media with pinnedViews := fitPinned l l.length } }

/-- SIFT: each drift of `parts` has wholly evaluated so many of its sectors; once all have, the payload is assembled. `bad` is the
locator of a sector that does not decode (R244 to R247). -/
def execSift (t key : Nat) (parts : List (Nat × Nat)) (bad : Option Nat) (s : State) : Result :=
  let s := s.at t
  match s.packet? key with
  | none => .next s
  | some p =>
    if p.phase ≠ .running ∨ p.hdr.opcode ≠ 0x0301 then .next s
    else
      let ev := (parts.filter (fun (x : Nat × Nat) => p.cores.contains x.1)).foldl (fun (m : Tbl Nat) (x : Nat × Nat) => tset m x.1 (max (tgetD m x.1 0) x.2)) p.evaluated
      let s := s.modPacket key (fun p => { p with evaluated := ev })
      let q := Sift.read p.param
      let whole : Bool := match p.prim with
        | none => true
        | some o =>
          let v := View.read o.all
          (tget? s.link.namespaces v.nsid).elim true (fun n =>
            let secs := (List.range (p.plan.elim 0 (fun pl => if pl.fits then pl.items.headD 0 else 0))).map (fun i =>
              sectorDrift n v.slba (q.rowFirst / v.rps + i))
            (dedupNat secs).all (fun d => decide ((secs.filter (· == d)).length ≤ tgetD ev d 0)))
      let s := match p.prim with
        | none => s
        | some o =>
          let v := View.read o.all
          (tget? s.link.namespaces v.nsid).elim s (fun n =>
            s.pinViews (objNumber o.handle) (mapPages n v.slba (q.rowFirst / v.rps) (p.plan.elim 0 (fun pl => if pl.fits then pl.items.headD 0 else 0))))
      if whole ∨ bad.isSome then .next (s.run t key [0x0301] [] (siftWork bad)) else .next s

/-- The vectors of the planned items of an EMBED or EMBED AND INSERT (R251). -/
def embedVectors (p : Packet) (o : Object) (n : Nat) : List (Nat × List Nat) :=
  let m := Model.read o.all
  ((embedItems p.hdr m p.param).take n).map (fun it => (it.id, m.vector o.all p.scales it.tokens))

/-- What EMBED reads of its model: its header, its shard table and its shards (R248). -/
def modelRanges (o : Object) : List (Nat × Nat) :=
  let m := Model.read o.all
  unitRange 0 (64 + 16 * m.shards.length) :: m.shards.map (fun x => unitRange x.1 x.2)

/-- The work of EMBED: the vectors of its leading items, held at the largest finite value where one is not finite (R251, R253). -/
def embedWork (s : State) (p : Packet) (pl : Plan) : JobEnd :=
  match p.prim with
  | none => .done {}
  | some o =>
    let m := Model.read o.all
    let n := if pl.fits then pl.items.headD 0 else 0
    let es := (embedVectors p o n).map (fun x => x.2.map m.element)
    let w := if m.outFmt = 0 then 4 else 2
    let d := le 4 n ++ le 2 m.outDim ++ le 1 m.outFmt ++ le 1 0 ++ le 8 o.version ++ es.flatMap (fun v => v.flatMap (fun e => le w e.1))
    let sat := es.any (fun v => v.any (·.2))
    if !pl.fits then .done { payload := d } else unlessMarked (s.readMark o (modelRanges o)) { payload := d, satd := sat }

/-- EMBED (R251, R253). -/
def execEmbed (t key : Nat) (s : State) : Result := .next (s.run t key [0x0401] [] embedWork)

/-- The work of EMBED AND INSERT: each embedding inserted in OUT_FMT, until a full set of seams or a vector with no direction (R254). -/
def embedInsertWork (s : State) (p : Packet) (pl : Plan) : JobEnd :=
  match p.prim, p.sec, p.sec.bind Object.index? with
  | some o, some x, some b =>
    let m := Model.read o.all
    if !pl.fits then .done { payload := le 8 0 ++ le 8 x.version }
    else
      let es := (embedVectors p o (pl.items.headD 0)).map (fun v => (v.1, v.2.map m.element))
      let recs := es.map (fun v => (v.1, acceptVec b.metric (v.2.map (fun e => if m.outFmt = 0 then e.1 else e.1 * 65536))))
      let (b', toks, stop) := b.insertAll recs
      let (c, v) := changed x (.index b') (!toks.isEmpty)
      unlessMarked ((s.readMark o (modelRanges o)).orElse (fun _ => s.readMark x (b.fixedRanges x [])))
        { payload := le 4 toks.length ++ le 4 0 ++ le 8 v ++ toks.flatMap (le 8), trunc := stop, change := c
          satd := es.any (fun v => v.2.any (·.2)) }
  | _, _, _ => .done {}

/-- EMBED_AND_INSERT (R254). -/
def execEmbedAndInsert (t key : Nat) (lodes : List Nat) (s : State) : Result := .next (s.run t key [0x0402] lodes embedInsertWork)

/-! ### ASSAY, RUN PROGRAM, FRAME PROBE (spec/06) -/

/-- A tap's record (R167): zeros, with its number, for a tap that is not declared. -/
def Tap.bytes (tp : Tap) (n : Nat) : List Byte :=
  if tp.cfg.mode = 2 then padTo 288 (le 2 n)
  else padTo 32 (le 2 n ++ le 1 tp.cfg.mode ++ le 1 1 ++ le 4 0 ++ le 8 tp.lastFrame ++ le 4 tp.maxabs ++ le 1 tp.scale ++ le 3 0 ++ le 8 tp.sat) ++
    (List.range 64).flatMap (fun i => le 4 (tgetD tp.hist i 0))

/-- The work of ASSAY: the records of its taps; a clear takes effect at the commit (R167). -/
def assayWork (s : State) (p : Packet) (_ : Plan) : JobEnd :=
  let first := leAt p.param 0 2
  .done { payload := (List.range (leAt p.param 2 2)).flatMap (fun i => (s.assay.tap p.tenant (first + i)).bytes (first + i)) }

/-- ASSAY (R167). -/
def execAssay (t key : Nat) (s : State) : Result := .next (s.run t key [0x0501] [] assayWork)

/-- The image of a program in a core's bank: its code, then its data from the next 64-byte boundary (R287). -/
def RCore.loadImage (c : RCore) (cage : Cage) (o : Object) : RCore :=
  let h := ProgHeader.read o.all
  let c := { c with codeLen := h.codeLen, dataLen := h.dataLen, scratch := h.scratch }
  let c := c.bankWrite 0 (objBytes cage o h.codeOff h.codeLen)
  let c := c.bankWrite (align64 h.codeLen) (objBytes cage o h.dataOff h.dataLen)
  { c with written := [] }

/-- RUN_PROGRAM: once the images of its cores are streamed, every core of the job holds the registers of R259 and issues from
the entry's first bundle. A job whose plan its cap cannot hold does not run (R259, R285, R287, R289). -/
def execRunProgram (t key : Nat) (s : State) : Result :=
  let s := s.at t
  match s.packet? key with
  | none => .next s
  | some p =>
    match p.plan, p.prim with
    | some pl, some o =>
      if p.phase ≠ .running ∨ p.hdr.opcode ≠ 0x0601 ∨ s.global.mfault then .next s
      else if !pl.fits then .next (s.finishJob key pl [] {})
      else if !s.jobReady p pl ∨ p.cores.any (fun n => (s.core n).packet != some key || !(s.core n).exited || (s.core n).codeLen != 0) then .next s
      else
        let r := RunProg.read p.param
        let e := ProgEntry.read o.all r.entry
        let start := fun (s : State) (n : Nat) =>
          let c := (s.core n).loadImage s.cage o
          s.setCore n { c with exited := false, pc := e.start, watchdog := e.bundleMax
                               x := tset (tset (tset [] 1 { val := BitVec.ofNat 64 c.index }) 2 { val := BitVec.ofNat 64 c.cores })
                                 3 { val := BitVec.ofNat 64 r.argLen } }
        .next ((p.cores.foldl start s).modPacket key (fun p => { p with cost := pl.cost, energy := pl.energy }))
    | _, _ => .next s

/-- The codes of the references (Table Lodestar 1). -/
def Ref.code : Ref → Nat
  | .ptm => 1 | .pin => 2 | .fab => 3 | .twin => 4 | .int => 5

/-- The codes of the phases (Table Lodestar 7). -/
def SwitchPhase.code : SwitchPhase → Nat
  | .committed => 0 | .leaving => 1 | .joining => 2

/-- The frame index of the current frame under the active table (R76). -/
def State.frameIndex (s : State) : Nat := (s.meridian.frame - s.orrery.start) % s.orrery.active.cycle

/-- A phase error in whole ns, rounded toward zero. -/
def fsToNs (x : Int) : Int := x.tdiv 1000000

/-- The payload of FRAME PROBE (R168). -/
def State.probePayload (s : State) (p : Packet) : List Byte :=
  padTo 64 (le 8 p.receiptNs ++ le 8 (s.meridian.tickFs / 1000000) ++ le 8 p.placeNs ++ le 8 s.now ++ le 4 p.backlog ++
    le 1 s.meridian.period ++ le 1 s.lodestar.sel.code ++ le 1 s.lodestar.phase.code ++ le 1 0 ++
    le 4 (unsigned 32 (fsToNs s.lodestar.phaseErrFs)) ++ le 4 s.frameIndex ++ le 4 s.meridian.bootCount)

/-- FRAME_PROBE: Headframe runs it in the Place phase of its admission frame, and posts it at once (R168). -/
def execFrameProbe (t key : Nat) (s : State) : Result :=
  let s := s.run t key [0x0F01] [] (fun s p _ => .done { payload := s.probePayload p })
  match s.packet? key with
  | some p => if p.hdr.opcode = 0x0F01 ∧ p.phase = .finished ∧ p.status = .done then .next (s.deliver key) else .next s
  | none => .next s

/-! ### PLACE, PIN, UNPIN, PREFETCH (spec/06, spec/12) -/

/-- The source of a create, as of its admission: its bytes, none where a map entry is lost. -/
def State.placeSource (s : State) (p : Packet) (size : Nat) : Option (List Byte) :=
  match tget? s.link.namespaces (leAt p.param 16 4) with
  | none => none
  | some n =>
    let blocks := tgetD p.views n.nsid []
    let secs := (List.range (ceilDiv size 4096)).map (fun i => sectorBytes n blocks (leAt p.param 24 8) i)
    if secs.all (·.isSome) then some ((secs.flatMap (fun x => x.getD [])).take size) else none

/-- The work of PLACE create: a new object, unwritten, zeroed, or filled from a namespace (R163). -/
def placeWork (s : State) (p : Packet) (_ : Plan) : JobEnd :=
  match p.create with
  | none => .done {}
  | some o =>
    let w := fun (o : Object) => ({ payload := handleVersion o.handle 1, change := some o } : Work)
    if !bitAt (leAt p.param 3 1) 1 then .done (w o)
    else match s.placeSource p o.size with
      | none => .poison (tierFLocator (nsDrift (leAt p.param 16 4) 0) 0 0 0 0 0) true
      | some d => .done (w { o with bytes := csetBytes [] 0 d, units := List.range (ceilDiv o.size 64) })

/-- PLACE_CREATE (R163). A block that names another operation is not its row. -/
def execPlaceCreate (t key : Nat) (lodes : List Nat) (s : State) : Result :=
  match s.packet? key with
  | some p => if leAt p.param 0 1 = 0 then .next (s.run t key [0x0701] lodes placeWork) else .next (s.at t)
  | none => .next (s.at t)

/-- Ask for the page-in of every lode of an object that is not in Tier H. -/
def State.wantAll (s : State) (o : Object) : State :=
  { s with cage := ((List.range o.lodes).map (o.base + ·)).foldl Cage.want s.cage }

/-- Every lode of an object is in Tier H. -/
def State.wholeIn (s : State) (o : Object) : Bool := s.cage.allResident ((List.range o.lodes).map (o.base + ·))

/-- PLACE_SET_PLACEMENT: the class applies at the commit; PINNED_H waits until every lode is in Tier H; the class that the
object already holds changes nothing (R163, R318). -/
def execPlaceSetPlacement (t key : Nat) (s : State) : Result :=
  let s := s.at t
  match s.packet? key with
  | none => .next s
  | some p =>
    match s.objects.named p.hdr.primary with
    | none => .next s
    | some o =>
      if p.phase ≠ .running ∨ p.hdr.opcode ≠ 0x0701 ∨ leAt p.param 0 1 ≠ 1 then .next s
      else
        let cls := placeClass (leAt p.param 2 1)
        let same := o.cls == cls
        if !same ∧ cls = .pinnedH ∧ !s.wholeIn o then .next (s.wantAll o)
        else .next (s.run t key [0x0701] [] (fun _ _ _ =>
          .done { payload := handleVersion o.handle (if same then o.version else o.version + 1)
                  change := if same then none else some { o with cls := cls } }))

/-- PLACE_DELETE (R158, R163). -/
def execPlaceDelete (t key : Nat) (s : State) : Result :=
  match s.packet? key with
  | some p => if leAt p.param 0 1 = 2 then .next (s.run t key [0x0701] [] deleteWork) else .next (s.at t)
  | none => .next (s.at t)

/-- The lodes of a range block, as window lodes of an object. -/
def rangeLodes (o : Object) (r : PinRange) : List Nat :=
  (((List.range (r.len / lodeBytes)).map (r.off / lodeBytes + ·)).filter (fun i => !o.notClosed i)).map (o.base + ·)

/-- An earlier PIN or UNPIN on the object has not applied its changes (R165). -/
def State.pinsBefore (s : State) (p : Packet) : Bool :=
  s.packets.live.any (fun x => decide (x.1 < p.key) && (x.2.hdr.opcode == 0x0702 || x.2.hdr.opcode == 0x0703) &&
    x.2.hdr.primary == p.hdr.primary && (x.2.phase == .received || x.2.phase == .admitted || x.2.phase == .running || x.2.phase == .replaying) && !x.2.hdr.fProbe)

/-- Lodes of a list that a pin would charge beside what is charged now (R165, R329). -/
def State.pinCharge (s : State) (ws : List Nat) : Nat :=
  (ws.filter (fun w => match s.cage.find w with
    | some h => let e := s.cage.entry h; !(e.charged s.meridian.frame) && !e.reservedClass
    | none => (s.objectAt w).elim true (fun o => !(o.cls == .pinnedH || o.cls == .hot)))).length

/-- The quota can hold the pins of a list of a tenant's lodes, once its other evictable lodes are gone (R165). -/
def State.pinFits (s : State) (n : Nat) (ws : List Nat) : Bool :=
  let own := (tgetD s.cage.clocks n {}).lodes.filter (fun h => let e := s.cage.entry h; e.evictable s.meridian.frame && !ws.contains e.wlode)
  decide (s.charge n + s.pinCharge ws ≤ s.quota n + own.length)

/-- Add one to the pin counts of resident lodes, at most 255, with room made for what they charge (R165, R329). -/
def State.pinAll (s : State) (n : Nat) (ws : List Nat) : State :=
  let before := s.charge n
  let need := s.pinCharge ws
  let m := ws.foldl (fun m w => match s.cage.find w with
    | some h => tupd m h (fun e => { e with pin := min 255 (e.pin + 1) })
    | none => m) s.cage.map
  let s := { s with cage := { s.cage with map := m } }
  let s := if need = 0 then s else s.evictTo n (s.quota n) (tgetD s.cage.clocks n {}).lodes.length
  s.quotaHigh n before

/-- The payload of PIN, UNPIN and PREFETCH (Table Packet 7). -/
def rangePayload (result a b c : Nat) : List Byte := le 1 result ++ le 3 0 ++ le 4 a ++ le 4 b ++ le 4 c

/-- Lodes of a plan that were read from NAND: out of Tier H at its placement, with a Tier F copy. -/
def Plan.reads (pl : Plan) (o : Object) : List Nat := pl.lodes.filter (fun w => (o.lodeDrift (w - o.base)).isSome)

/-- PIN: every lode of its plan, or none where the quota cannot hold them all (R165). -/
def execPin (t key : Nat) (s : State) : Result :=
  let s := s.at t
  match s.packet? key with
  | none => .next s
  | some p =>
    match p.prim, p.plan with
    | some o, some pl =>
      if p.phase ≠ .running ∨ p.hdr.opcode ≠ 0x0702 ∨ s.pinsBefore p ∨ s.global.mfault then .next s
      else
        let range := rangeLodes o (PinRange.read p.param)
        let ws := pl.items.map (o.base + ·)
        let pinned := fun (s : State) => (range.filter (fun w => (s.cage.find w).elim false (fun h => decide (0 < (s.cage.entry h).pin)))).length
        if !s.pinFits p.tenant ws then
          let got := ((pl.reads o).filter (fun w => (s.cage.find w).isSome)).length
          .next (s.finishJob key pl [] { payload := rangePayload 1 got (pinned s) (range.length - ws.length) })
        else if !s.cage.allResident ws then .next { s with cage := ws.foldl Cage.want s.cage }
        else
          let s := s.pinAll p.tenant ws
          .next (s.finishJob key pl [] { payload := rangePayload 0 (pl.reads o).length (pinned s) (range.length - ws.length) })
    | _, _ => .next s

/-- UNPIN: one off each pin count of the range that is not zero (R165, R329). -/
def execUnpin (t key : Nat) (s : State) : Result :=
  let s := s.at t
  match s.packet? key with
  | none => .next s
  | some p =>
    match p.prim, p.plan with
    | some o, some pl =>
      if p.phase ≠ .running ∨ p.hdr.opcode ≠ 0x0703 ∨ s.pinsBefore p ∨ s.global.mfault then .next s
      else
        let hs := ((rangeLodes o (PinRange.read p.param)).filterMap s.cage.find).filter (fun h => decide (0 < (s.cage.entry h).pin))
        let ended := (hs.filter (fun h => (s.cage.entry h).pin == 1)).length
        let s := { s with cage := { s.cage with map := hs.foldl (fun m h => tupd m h (fun e => { e with pin := e.pin - 1 })) s.cage.map } }
        .next (s.finishJob key pl [] { payload := rangePayload 0 ended 0 0 })
    | _, _ => .next s

/-- The work of PREFETCH: the lodes of its plan are in Tier H; those of a stripe that is not closed count as resident (R165, R212). -/
def prefetchWork (_ : State) (p : Packet) (pl : Plan) : JobEnd :=
  match p.prim with
  | none => .done {}
  | some o =>
    let r := PinRange.read p.param
    let left := (rangeLodes o r).length - pl.items.length
    .done { payload := rangePayload 0 (pl.reads o).length (r.len / lodeBytes - left - pl.lodes.length) left }

/-- PREFETCH (R165). -/
def execPrefetch (t key : Nat) (s : State) : Result := .next (s.run t key [0x0704] [] prefetchWork)

/-! ### Faults of a run (R283 to R285, R408) -/

/-- JOB_FAULT: a fault event on a core of the job, with its locator and, for the loss of a unit, the unit (R283, R400, R408). -/
def execJobFault (t key : Nat) (ev : FaultEvent) (loc unit : Nat) (s : State) : Result := .next ((s.at t).faultJob key ev loc unit)

/-- WATCHDOG_OVERRUN: a core has issued more bundles than its limit; of a built-in kernel, whose bundles are firmware's own, the
core reports it (R285). -/
def execWatchdogOverrun (t core : Nat) (s : State) : Result :=
  let s := s.at t
  let c := s.core core
  match c.packet with
  | none => .next s
  | some key =>
    let program := (s.packet? key).elim false (fun p => p.hdr.opcode == 0x0601)
    if program ∧ (c.exited ∨ c.bundles < c.watchdog) then .next s
    else .next (s.faultJob key .watchdog (coreLocator 3 core c.pc))

/-- MODULE_FAULT: INT stops, both copies of a record or a firmware structure are lost, or every steward or D4 is (R422). -/
def execModuleFault (t cause : Nat) (s : State) : Result := if 3 < cause then .next (s.at t) else .next ((s.at t).moduleFault cause)

end Sys2Proof.Machine
end

