-- ==== Sys2Proof/Machine/Lodestar.lean ====
section
/-!
DEFINITION. Lodestar: the references, their windows and states, the switches, the length of a frame, and feature 0Eh
(spec/04_lodestar_and_powered_time.md, R93 to R112; spec/19_power_up_and_the_almanac.md, R540; spec/23_the_sled.md, R623).
-/
namespace Sys2Proof.Machine

/-! ### References and their order -/

/-- What is kept of a reference; of INT nothing is. -/
def Lodestar.ref (l : Lodestar) : Ref → RefInfo
  | .ptm => l.ptm | .pin => l.pin | .fab => l.fab | .twin => l.twin | .int => {}

/-- Change what is kept of a reference. -/
def Lodestar.modRef (l : Lodestar) (r : Ref) (f : RefInfo → RefInfo) : Lodestar :=
  match r with
  | .ptm => { l with ptm := f l.ptm } | .pin => { l with pin := f l.pin } | .fab => { l with fab := f l.fab }
  | .twin => { l with twin := f l.twin } | .int => l

/-- Change a reference. -/
def State.modRef (s : State) (r : Ref) (f : RefInfo → RefInfo) : State := { s with lodestar := s.lodestar.modRef r f }

/-- A reference of the state. -/
def State.ref (s : State) (r : Ref) : RefInfo := s.lodestar.ref r

/-- The external references, in the order of their codes. -/
def externals : List Ref := [.ptm, .pin, .fab, .twin]

/-- The reference a code names (Table Lodestar 1). -/
def refOf : Nat → Option Ref
  | 1 => some .ptm | 2 => some .pin | 3 => some .fab | 4 => some .twin | 5 => some .int | _ => none

/-- The codes of the states (Table Lodestar 3). -/
def RefState.code : RefState → Nat
  | .absent => 0 | .qualifying => 1 | .qualified => 2 | .drifting => 3 | .disqualified => 4

/-- The codes of the causes (R100). -/
def SwitchCause.code : SwitchCause → Nat
  | .failure => 0 | .planned => 1 | .revert => 2 | .manual => 3 | .role => 4

/-- The order of preference in force (R95, Tables Lodestar 2 and 5). -/
def State.refOrder (s : State) : List Ref :=
  let c := s.lodestar.cfg.toNat
  if bitAt c 0 then
    (([4, 8, 12, 16].map (fun i => refOf (field c i 3))).filterMap id).filter (· != .int) ++ [.int]
  else match s.const.role with
    | .foreman => [.pin, .ptm, .twin, .int]
    | .hewer => [.fab, .twin, .pin, .ptm, .int]
    | .none =>
      if !s.pair.has then [.pin, .ptm, .int]
      else if s.pair.id.side then [.twin, .pin, .ptm, .int] else [.pin, .ptm, .twin, .int]

/-- The place of a reference in an order: past its end where the order does not name it. -/
def rankIn (o : List Ref) (r : Ref) : Nat := (o.findIdx? (· == r)).getD o.length

/-- Wait-to-restore in ns (Table Lodestar 5). -/
def Lodestar.wtrNs (l : Lodestar) : Nat := field l.cfg.toNat 20 6 * 10000000000

/-- Revertive mode. -/
def Lodestar.revert (l : Lodestar) : Bool := bitAt l.cfg.toNat 1

/-! ### Phase and the length of a frame (R25, R93, R102, R103) -/

/-- The period in fs. -/
def State.periodFs (s : State) : Int := (s.period : Int) * 1000000000

/-- An interval in fs reduced to the range from −p/2, exclusive, to +p/2, inclusive (R93). -/
def reducePhase (x p : Int) : Int :=
  let y := x % p
  if p < 2 * y then y - p else y

/-- The phase error of the latest tick against a reference: 0 where no mark of it is known (R93). -/
def State.phaseOf (s : State) (r : Ref) : Int :=
  match (s.ref r).lastMark with
  | some m => reducePhase ((s.meridian.tickFs : Int) - (m : Int) * 1000000) s.periodFs
  | none => 0

/-- The slew limit of a frame in fs: 25 ns per 500 µs (R25). -/
def State.slewLimit (s : State) : Int := (s.period : Int) * 50000

/-- A value held within ±b. -/
def within_ (b x : Int) : Int := if x < -b then -b else if b < x then b else x

/-- The frequency of a reference against INT, in 0.001 ppm: 0 for INT. -/
def State.freqOf (s : State) (r : Ref) : Int := if r = .int then 0 else (s.ref r).offset - s.lodestar.intOffset

/-- The reference that the tick follows in the current frame: the selected one while Committed, the target in Joining. -/
def State.steeredBy (s : State) : Option Ref :=
  match s.lodestar.phase with
  | .committed => if s.lodestar.sel = .int then none else some s.lodestar.sel
  | .joining => s.lodestar.target
  | .leaving => none

/-- The length of the frame in progress, in fs: the frequency of the target is matched first, and the rest of the limit
shrinks the phase error (R102; notes/assumptions/16.md). -/
def State.frameFs (s : State) : Nat :=
  match s.steeredBy with
  | none => s.periodFs.toNat
  | some r =>
    let lim := s.slewLimit
    let d := if s.lodestar.phase = .joining then s.freqOf r - s.lodestar.correction else 0
    let f := within_ lim (-(d * s.periodFs / 1000000000))
    let left := lim - f.natAbs
    (s.periodFs + f - within_ left (s.phaseOf r)).toNat

/-! ### Marks -/

/-- Bytes of an offset in an event. -/
def offsetBytes (x : Int) : List Byte := le 4 (unsigned 32 x)

/-- A code of a reference as a byte. -/
def Ref.byte (r : Ref) : Byte := BitVec.ofNat 8 r.code

/-- The selected reference is gone, or the target of a switch is (R100, R104). -/
def State.refGone (s : State) (r : Ref) : State :=
  let l := s.lodestar
  if l.phase = .committed ∧ l.sel = r then { s with lodestar := { l with trigger := some .failure } }
  else if l.phase ≠ .committed ∧ l.target = some r then
    { s with lodestar := { l with target := none, phase := .leaving
                                  leavingSince := if l.phase = .joining then s.now else l.leavingSince } }
  else s

/-- Disqualify a reference with a cause of R99. -/
def State.disqualify (s : State) (r : Ref) (cause : Nat) : State :=
  let s := s.modRef r (fun i => { i with state := .disqualified, inBand := 0, beyondHalf := 0, beyondOne := 0, qualifiedSince := none })
  let s := s.raiseM 0x0203 ([r.byte] ++ offsetBytes (s.ref r).offset ++ [BitVec.ofNat 8 cause])
  s.refGone r

/-- A loss of signal or a phase jump beyond 10 µs disqualifies at once (R97, R99). -/
def State.loseSignal (s : State) (r : Ref) (jump : Bool) : State :=
  let was := (s.ref r).state
  let s := s.modRef r (fun i => { i with signal := jump, wholeWindow := false, failedDialogs := 0 })
  if was = .absent ∨ was = .disqualified ∨ r = .int then s else s.disqualify r (if jump then 3 else 2)

/-- REFERENCE_LOSS_OF_SIGNAL of an external reference; only what is present can be lost (R97). -/
def execReferenceLossOfSignal (t : Nat) (r : Ref) (jump : Bool) (s : State) : Result :=
  let s := s.at t
  if !s.powered 4 ∨ !(s.ref r).signal ∨ (jump ∧ r = .ptm) then .next s else .next (s.loseSignal r jump)

/-- A mark of a reference at `t` ns, with marks every `every` ns: one more than 10 µs from its expected time is a phase jump
(Table Lodestar 1). -/
def State.mark (s : State) (r : Ref) (t every : Nat) : State :=
  let i := s.ref r
  let off : Int := match i.lastMark with
    | some m => reducePhase ((t : Int) - m) every
    | none => 0
  let s := if i.signal ∧ 10000 < off.natAbs then s.loseSignal r true else s
  s.modRef r (fun i => { i with signal := true, lastMark := some t })

/-- PIN_MARK: a rising crossing of SYNC_IN (R623). -/
def execPinMark (t : Nat) (s : State) : Result :=
  let s := s.at t
  if !s.powered 4 then .next s else .next (s.mark .pin t 4000000)

/-- PTM_DIALOG: every 10 ms; a passed one gives the PTM master time at `t`, and the third failure in a row loses the signal
(Table Lodestar 1). -/
def execPtmDialog (t : Nat) (ok : Bool) (master : Nat) (s : State) : Result :=
  let s := s.at t
  if !s.powered 4 then .next s
  else if !ok then
    let n := s.lodestar.ptm.failedDialogs + 1
    let s := s.modRef .ptm (fun i => { i with failedDialogs := n })
    .next (if 3 ≤ n ∧ s.lodestar.ptm.signal then s.loseSignal .ptm false else s)
  else
    let back := master % 4000000
    .next (s.modRef .ptm (fun i => { i with signal := true, failedDialogs := 0
                                            lastMark := some (if back ≤ t then t - back else t + 4000000 - back) }))

/-! ### Windows (R96 to R99) -/

/-- What a window's end measured: each external reference's frequency against INT in 0.001 ppm. -/
structure Measured where
  ptm : Int
  pin : Int
  fab : Int
  twin : Int

/-- The measurement of a reference. -/
def Measured.of (m : Measured) : Ref → Int
  | .ptm => m.ptm | .pin => m.pin | .fab => m.fab | .twin => m.twin | .int => 0

/-- The median of frequencies: the mean of the two middle ones for an even count (R96). -/
def medianOf (l : List Int) : Int :=
  let v := sortBy (fun a b => decide (a < b)) l
  let n := v.length
  if n % 2 = 1 then v.getD (n / 2) 0 else (v.getD (n / 2 - 1) 0 + v.getD (n / 2) 0) / 2

/-- The live references of the window that ends, INT apart (R96). -/
def State.live (s : State) : List Ref :=
  externals.filter (fun r => (s.ref r).wholeWindow && (s.ref r).state != .disqualified)

/-- The sum of a list of integers. -/
def sumInt (l : List Int) : Int := l.foldl (· + ·) 0

/-- The bias of a reference: the mean of its offsets over the last 16 windows, this one included (R96). -/
def RefInfo.bias (i : RefInfo) : Int :=
  let l := i.history.take 16
  if l.isEmpty then 0 else sumInt l / (l.length : Int)

/-- Enter QUALIFIED, with its event. -/
def State.qualify (s : State) (r : Ref) : State :=
  let s := s.modRef r (fun i => { i with state := .qualified, beyondHalf := 0, qualifiedSince := some s.now })
  s.raiseM 0x0201 ([r.byte] ++ offsetBytes (s.ref r).offset)

/-- Judge a reference whose signal was present for the whole window by its adjusted offset (R97). -/
def State.judge (s : State) (r : Ref) (few : Bool) (adj : Int) : State :=
  let i := s.ref r
  let a := adj.natAbs
  let band := if a ≤ 200 ∧ !i.barred then i.inBand + 1 else 0
  let half := if 500 < a then i.beyondHalf + 1 else 0
  let one := if 1000 < a then i.beyondOne + 1 else 0
  let far := few && decide (12000 < i.offset.natAbs)
  if i.state = .disqualified then
    if a ≤ 200 ∧ !far then s.modRef r (fun i => { i with state := .qualifying, inBand := 1, beyondHalf := 0, beyondOne := 0 }) else s
  else if far then s.disqualify r 4
  else if 5000 < a then s.disqualify r 1
  else if 4 ≤ one then s.disqualify r 0
  else
    let s := s.modRef r (fun i => { i with inBand := band, beyondHalf := half, beyondOne := one })
    match i.state with
    | .absent => s.modRef r (fun i => { i with state := .qualifying })
    | .qualifying => if 16 ≤ band then s.qualify r else s
    | .drifting => if 16 ≤ band then s.qualify r else s
    | .qualified =>
      if 32 ≤ half then
        let s := s.modRef r (fun i => { i with state := .drifting, inBand := 0, qualifiedSince := none })
        s.raiseM 0x0202 ([r.byte] ++ offsetBytes (s.ref r).offset)
      else s
    | .disqualified => s

/-- The end of a window for one reference: `base` is the comparison base, `few` says that it is INT for want of three live
references. -/
def State.refWindow (m : Measured) (base : Int) (few : Bool) (s : State) (r : Ref) : State :=
  let i := s.ref r
  let s := if !i.wholeWindow then
      s.modRef r (fun i => { i with inBand := 0, beyondHalf := 0, beyondOne := 0
                                    state := if i.state = .absent ∧ i.signal then .qualifying else i.state })
    else
      let off := m.of r - base
      let s := s.modRef r (fun i => { i with offset := off, history := (off :: i.history).take 32 })
      let adj := if few then off - (s.ref r).bias else off
      let s := if s.lodestar.sel = r ∧ s.lodestar.phase = .committed then
          s.modRef r (fun i => { i with sinceSel := (adj :: i.sinceSel).take 32 }) else s
      s.judge r few adj
  s.modRef r (fun i => { i with wholeWindow := i.signal })

/-- INT against the median: INT_FAULT beyond ±5 ppm, until it has been back for 16 windows (R99 edges). -/
def State.intWindow (s : State) (base : Int) (few : Bool) : State :=
  let off := if few then 0 else -base
  let l := { s.lodestar with intOffset := off }
  if !few ∧ 5000 < off.natAbs then
    ({ s with lodestar := { l with holdDegr := true, intBack := 0 } } : State).raiseM 0x0208 (offsetBytes off)
  else
    let n := l.intBack + 1
    { s with lodestar := { l with intBack := n, holdDegr := l.holdDegr && decide (n < 16) } }

/-- The line of R98 reaches ±1.0 ppm within 60 s: points one window apart, the newest first. -/
def trendOut (ys : List Int) : Bool :=
  let n : Int := ys.length
  let pts := (ys.zipIdx).map (fun (y, i) => (-(i : Int), y))
  let sx := sumInt (pts.map (·.1))
  let sy := sumInt (pts.map (·.2))
  let sxx := sumInt (pts.map (fun p => p.1 * p.1))
  let sxy := sumInt (pts.map (fun p => p.1 * p.2))
  let d := n * sxx - sx * sx
  let a := sy * sxx - sx * sxy
  let b := n * sxy - sx * sy
  decide (2 ≤ ys.length) && (decide (1000 * d ≤ (a.natAbs : Int)) || decide (1000 * d ≤ ((a + 60 * b).natAbs : Int)))

/-- A reference may be restored: more preferred than the selected one, QUALIFIED without a break for the wait, which runs from
the selection; with INT selected otherwise than by hand, any QUALIFIED one at once (R107). -/
def State.restoreDue (s : State) : Bool :=
  let l := s.lodestar
  let o := s.refOrder
  let waited := fun r : Ref => match (s.ref r).qualifiedSince with
    | some q => (s.ref r).state == .qualified && decide (max q l.selSince + l.wtrNs ≤ s.now)
    | none => false
  l.phase == .committed && l.trigger.isNone && o.any (fun r => r != .int && decide (rankIn o r < rankIn o l.sel) &&
    (if l.sel = .int ∧ !l.intByManual then (s.ref r).state == .qualified && !(s.ref r).barred else l.revert && waited r))

/-- FIRST_COMMIT is set (R540). -/
def State.setFirst (s : State) : State := { s with lodestar := { s.lodestar with firstCommit := true } }

/-- The reference wait ends at this window end, or 60 s have passed since frame 0 (R540). -/
def State.waitOver (s : State) : Bool :=
  let idle := s.refOrder.all (fun r => let x := (s.ref r).state; r == .int || !(x == .qualifying || x == .qualified || x == .drifting))
  (decide (2 ≤ s.lodestar.windows) && idle) || decide (s.startup.frame0Ns + 60000000000 ≤ s.now)

/-- A more preferred reference than the target has just qualified: the switch retargets (R104). -/
def State.retarget (s : State) (fresh : List Ref) : State :=
  let l := s.lodestar
  let o := s.refOrder
  match l.target, o.find? (fun r => fresh.contains r && !(s.ref r).barred) with
  | some cur, some r =>
    if l.phase ≠ .committed ∧ rankIn o r < rankIn o cur then
      ({ s with lodestar := { l with target := some r } } : State).raiseM 0x0205 [cur.byte, r.byte]
    else s
  | _, _ => s

/-- The evaluation of a window, in the order of R106. -/
def State.windowEnd (s : State) (m : Measured) : State :=
  let was := externals.filter (fun r => (s.ref r).state == .qualified)
  let live := s.live
  let few := decide (live.length < 2)
  let base := if few then 0 else medianOf (0 :: live.map m.of)
  let s := (externals.foldl (State.refWindow m base few) s).intWindow base few
  let l := s.lodestar
  let s := { s with lodestar := { l with windowDue := false, windowStart := s.meridian.frame, windows := l.windows + 1 } }
  let s := if l.phase = .committed ∧ l.sel ≠ .int ∧ l.trigger.isNone ∧ trendOut (s.ref l.sel).sinceSel then
      { s with lodestar := { s.lodestar with trigger := some .planned } } else s
  let s := if s.waitOver then s.setFirst else s
  let s := s.retarget (externals.filter (fun r => (s.ref r).state == .qualified && !was.contains r))
  if s.restoreDue then { s with lodestar := { s.lodestar with trigger := some .revert } } else s

/-! ### Switches (R100 to R107) -/

/-- The switch is committed on a reference (R103). -/
def State.commitSwitch (s : State) (r : Ref) (err : Int) : State :=
  let l := s.lodestar
  let l := { l with sel := r, phase := .committed, target := none, manual := none, intByManual := false, selSince := s.now
                    correction := s.freqOf r, phaseErrFs := err }
  let s := ({ s with lodestar := l } : State).modRef r (fun i => { i with sinceSel := [] })
  s.setFirst.raiseM 0x0206 ([r.byte] ++ offsetBytes (fsToNs err) ++ le 4 l.joiningFrames)

/-- The Committed test of a tick (R103): within ±100 ns. -/
def State.commitTest (s : State) : State :=
  match s.lodestar.phase, s.lodestar.target with
  | .joining, some r =>
    let err := s.phaseOf r
    if err.natAbs ≤ 100000000 then s.commitSwitch r err else { s with lodestar := { s.lodestar with phaseErrFs := err } }
  | .committed, _ => { s with lodestar := { s.lodestar with
      phaseErrFs := if s.lodestar.sel = .int then 0 else s.phaseOf s.lodestar.sel
      correction := if s.lodestar.sel = .int then s.lodestar.correction else s.freqOf s.lodestar.sel } }
  | _, _ => { s with lodestar := { s.lodestar with phaseErrFs := 0 } }

/-- A switch begins (R100). -/
def State.beginSwitch (s : State) (c : SwitchCause) (target : Option Ref) : State :=
  let l := s.lodestar
  let s := { s with lodestar := { l with old := l.sel, phase := .leaving, leavingSince := s.now, target := target, trigger := none
                                         joiningFrames := 0, switchCnt := satAdd 16 l.switchCnt 1 } }
  s.raiseM 0x0204 [l.sel.byte, BitVec.ofNat 8 c.code]

/-- A reference that can be a target: QUALIFIED or DRIFTING (R101). -/
def State.usable (s : State) (r : Ref) : Bool :=
  ((s.ref r).state == .qualified || (s.ref r).state == .drifting) && !(s.ref r).barred && r != .int

/-- The target that Leaving looks for: the most preferred QUALIFIED reference, else the most preferred DRIFTING one (R101). -/
def State.findTarget (s : State) : Option Ref :=
  let o := s.refOrder.filter s.usable
  (o.find? (fun r => (s.ref r).state == .qualified)).orElse (fun _ => o.head?)

/-- A manual switch to INT commits at its tick (R107 edges). -/
def State.manualInt (s : State) : State :=
  let c := s.lodestar.correction
  let s := (s.beginSwitch .manual none).commitSwitch .int 0
  { s with lodestar := { s.lodestar with intByManual := true, correction := c } }

/-- The triggers that have come begin a switch at this tick (R95, R100, R109). -/
def State.beginDue (s : State) : State :=
  let l := s.lodestar
  match l.manual, l.phase with
  | some .int, _ => s.manualInt
  | some r, .committed => (({ s with lodestar := { l with manual := none } } : State).beginSwitch .manual (some r))
  | some r, _ =>
    let s := { s with lodestar := { l with manual := none, target := some r } }
    s.raiseM 0x0205 [BitVec.ofNat 8 (l.target.elim 0 Ref.code), r.byte]
  | none, .committed =>
    match l.trigger with
    | some c => s.beginSwitch c none
    | none => if s.refOrder.contains l.sel then s else s.beginSwitch .role none
  | none, _ => s

/-- Joining begins at a tick after Leaving found its target, with its own Committed test (R101, R103). -/
def State.joinTarget (s : State) : State :=
  let l := s.lodestar
  match l.phase, l.target with
  | .leaving, some r =>
    if s.usable r then ({ s with lodestar := { l with phase := .joining, joiningFrames := 0 } } : State).commitTest
    else { s with lodestar := { l with target := none } }
  | _, _ => s

/-- Leaving looks for a target at each tick (R101). -/
def State.seekTarget (s : State) : State :=
  let l := s.lodestar
  if l.phase = .leaving ∧ l.target.isNone then { s with lodestar := { l with target := s.findTarget } } else s

/-- Lodestar's work at a tick before a window is evaluated (R106). -/
def State.lodestarFirst (s : State) : State :=
  let l := s.lodestar
  let s := if l.phase = .joining then { s with lodestar := { l with joiningFrames := l.joiningFrames + 1 } } else s
  s.commitTest

/-- Lodestar's work at a tick after it: due switches begin, and Leaving finds its target. -/
def State.lodestarLast (s : State) : State := (s.joinTarget.beginDue).seekTarget

/-- HOLDOVER_EXPIRED: Leaving has lasted 2 s with no target, and INT is selected (R101). -/
def execHoldoverExpired (t : Nat) (s : State) : Result :=
  let s := s.at t
  let l := s.lodestar
  if l.phase ≠ .leaving ∨ l.target.isSome ∨ s.now < l.leavingSince + 2000000000 ∨ !s.powered 4 then .next s
  else
    let s := { s with lodestar := { l with sel := .int, phase := .committed, intByManual := false, selSince := s.now } }
    .next (s.raiseM 0x0207 [l.old.byte])

/-- WAIT_TO_RESTORE_EXPIRY: a revert switch is due, and begins at the next tick (R107). -/
def execWaitToRestoreExpiry (t : Nat) (s : State) : Result :=
  let s := s.at t
  if s.powered 4 ∧ s.restoreDue then .next { s with lodestar := { s.lodestar with trigger := some .revert } } else .next s

/-- A write of LOD_CMD.SWITCH: a request for the next tick, or ignored with CMD_REJ (R107 edges, Table Lodestar 7). -/
def State.lodCmd (s : State) (v : Nat) : State :=
  let l := s.lodestar
  match field v 0 3 with
  | 0 => s
  | 5 => { s with lodestar := { l with manual := some .int } }
  | n => match refOf n with
    | some r => if (s.ref r).state = .qualified ∧ !(s.ref r).barred then { s with lodestar := { l with manual := some r } }
                else { s with lodestar := { l with cmdRej := true } }
    | none => { s with lodestar := { l with cmdRej := true } }

/-- LOD_CMD_SWITCH: the PF writes LOD_CMD (R107). -/
def execLodCmdSwitch (t : Nat) (v : BitVec 32) (s : State) : Result :=
  let s := s.at t
  if s.powered 4 then .next (s.lodCmd v.toNat) else .next s.offWrite

/-! ### Features C1h and 0Eh (R108 to R112) -/

/-- The value of feature C1h that a Set with dword 11 `v` leaves, none where R109 refuses it. -/
def Lodestar.setC1h (l : Lodestar) (v : Nat) : Option Word32 :=
  let old := l.cfgAccepted.toNat
  let at_ := [4, 8, 12, 16]
  let pri := at_.map (fun i => field v i 3)
  let rest := field v 0 2 + field v 20 6 * 2 ^ 20
  let named := pri.filter (· != 0)
  let gap := (pri.dropWhile (· != 0)).any (· != 0)
  if bitAt v 0 then
    if pri.any (fun p => decide (5 ≤ p)) ∨ (dedupNat named).length ≠ named.length ∨ gap then none
    else some (BitVec.ofNat 32 (rest + sumNat (at_.map (fun i => field v i 3 * 2 ^ i))))
  else some (BitVec.ofNat 32 (rest + sumNat (at_.map (fun i => (if 5 ≤ field v i 3 then field old i 3 else field v i 3) * 2 ^ i))))

/-- The Save bit of Set Features: CDW10 bit 31; the Select field of Get Features: CDW10 bits [10:8]. -/
def saveBit (q : Sqe) : Bool := bitAt q.d10.toNat 31

/-- See `saveBit`. -/
def selectField (q : Sqe) : Nat := dwField q.d10 8 3

/-- Supported capabilities as Get Features reports them: saveable, changeable (NVMe Base 2.0c). -/
def capabilities (saveable changeable : Bool) : Nat := bit saveable + 4 * bit changeable

/-- SET_FEATURES_LODESTAR_CONFIG (R108, R109). -/
def execSetFeaturesLodestarConfig (q : Sqe) (s : State) : Result :=
  .next (s.command q true (fun s =>
    if q.fn ≠ 0 then s.complete q .featureNotChangeable
    else match s.lodestar.setC1h q.d11.toNat with
      | none => s.complete q .invalidField
      | some v =>
        let s := { s with lodestar := { s.lodestar with cfgAccepted := v } }
        let s := if saveBit q then s.save (fun b => { b with c1h := some v }) else s
        s.complete q .success))

/-- GET_FEATURES_LODESTAR_CONFIG: the value last accepted, the default or the saved one (R108). -/
def execGetFeaturesLodestarConfig (q : Sqe) (s : State) : Result :=
  .next (s.command q true (fun s =>
    match selectField q with
    | 0 => s.complete q .success s.lodestar.cfgAccepted.toNat
    | 1 => s.complete q .success 0x00600002
    | 2 => s.complete q .success (s.saved.c1h.getD 0x00600002).toNat
    | 3 => s.complete q .success (capabilities true (q.fn == 0))
    | _ => s.complete q .invalidField))

/-- SET_FEATURES_TIMESTAMP: a module-wide value; TIMESTAMP_SET carries the previous origin (R111, R112). -/
def execSetFeaturesTimestamp (q : Sqe) (s : State) : Result :=
  .next (s.command q true (fun s =>
    if q.fn ≠ 0 then s.complete q .featureNotChangeable
    else if saveBit q then s.complete q .featureNotSaveable
    else
      let old := bit s.lodestar.timestamp.isSome
      let s := { s with lodestar := { s.lodestar with timestamp := some (leAt q.data 0 6, s.now) } }
      (s.raiseM 0x020B [BitVec.ofNat 8 old]).complete q .success))

/-- The Timestamp data structure: the value in ms, and Timestamp Origin in byte 6 bits [3:1] with Synch 0. -/
def timestampBytes (ms origin : Nat) : List Byte := padTo 8 (le 6 ms ++ le 1 (2 * origin))

/-- GET_FEATURES_TIMESTAMP (R111). -/
def execGetFeaturesTimestamp (q : Sqe) (s : State) : Result :=
  .next (s.command q true (fun s =>
    let plain := timestampBytes (s.now / 1000000) 0
    let cur := match s.lodestar.timestamp with
      | some (v, t0) => timestampBytes (v + (s.now - t0) / 1000000) 1
      | none => plain
    match selectField q with
    | 0 => (s.toHost q cur).complete q .success
    | 1 => (s.toHost q plain).complete q .success
    | 2 => (s.toHost q plain).complete q .success
    | 3 => s.complete q .success (capabilities false true)
    | _ => s.complete q .invalidField))

end Sys2Proof.Machine
end

