-- ==== Sys2Proof/Machine/Orrery.lean ====
section
/-!
DEFINITION. The Orrery: capacities, contract classes, tables and their loading, feature C0h, streaming and the budgets of a
frame (spec/03_contracts_and_the_orrery.md, R63 to R82; spec/02_meridian_frame.md, R55 to R61; spec/17, R498, R499).
-/
namespace Sys2Proof.Machine

/-! ### Capacities (R68, R498) -/

/-- The contractable quantities of a frame of `p` µs: what is left of each kind after 5 %, rounded up (R68). -/
def contractable (p : Nat) : Charges :=
  let keep := fun n => n - ceilDiv (5 * n) 100
  { cf := keep 4096, th := keep (20 * p), lpd := keep (359375 * p / 6553600), hin := keep (121 * p), hout := keep (121 * p) }

/-- Sum of two quantities. -/
def Charges.add (a b : Charges) : Charges :=
  { cf := a.cf + b.cf, th := a.th + b.th, lpd := a.lpd + b.lpd, hin := a.hin + b.hin, hout := a.hout + b.hout }

/-- What is left after a charge. -/
def Charges.sub (a b : Charges) : Charges :=
  { cf := a.cf - b.cf, th := a.th - b.th, lpd := a.lpd - b.lpd, hin := a.hin - b.hin, hout := a.hout - b.hout }

/-- Every kind is at most its bound. -/
def Charges.le (a b : Charges) : Bool :=
  decide (a.cf ≤ b.cf ∧ a.th ≤ b.th ∧ a.lpd ≤ b.lpd ∧ a.hin ≤ b.hin ∧ a.hout ≤ b.hout)

/-- A core counts as powered: its domain is, and placement on it has not stopped, or has resumed (R482, R483, R498). -/
def State.placeable (s : State) (n : Nat) : Bool :=
  let d := unitDomain n
  s.powered d && !s.power.leaving.getLsbD d && (!s.power.arriving.getLsbD d || (s.core n).ready)

/-- The contractable core-frames A′ in sixteenths (R498). -/
def State.aPrime (s : State) : Nat :=
  sumNat ((List.range 256).map (fun n => if s.placeable n then (if s.coreStepped n then 12 else 16) else 0)) - 205

/-- The cluster's cores, with the cluster numbered from 0 (R84). -/
def clusterCores (c : Nat) : List Nat := (List.range 16).map (fun j => 64 + 16 * c + j)

/-- A mask names no cluster with a powered core (R499); 0 names every cluster. -/
def State.maskDark (s : State) (mask : Nat) : Bool :=
  mask != 0 && (List.range 12).all (fun c => !bitAt mask c || (clusterCores c).all (fun n => !s.placeable n))

/-! ### Tables (R71 to R76) -/

/-- The first cycle boundary of the active table at or after a frame (R76). -/
def Orrery.boundaryFrom (o : Orrery) (f : Nat) : Nat :=
  let d := f - o.start
  o.start + ceilDiv d o.active.cycle * o.active.cycle

/-- The latest tick is a cycle boundary of the active table (R76). -/
def State.atBoundary (s : State) : Bool := s.orrery.boundaryFrom s.meridian.frame == s.meridian.frame

/-- The entry at which the sums of its frame index first exceed what that index holds, in table order (R73). -/
def overfull (avail : Nat → Charges) : List Entry → Nat → Tbl Charges → Option Nat
  | [], _, _ => none
  | e :: es, i, sums =>
    let c := (tgetD sums e.frame {}).add e.budget
    if c.le (avail e.frame) then overfull avail es (i + 1) (tset sums e.frame c) else some i

/-- Frames over which an activation or a power-on reserves its streaming (R78). -/
def streamFrames (period : Nat) : Nat := ceilDiv 12000 period

/-- Core-frames reserved in a frame (R77, R78). -/
def Orrery.reservedAt (o : Orrery) (f : Nat) : Nat :=
  sumNat (o.reserved.map (fun r => if r.1 ≤ f ∧ f < r.1 + r.2.1 then r.2.2 else 0))

/-- The powered cores that stream a new image when a table becomes active (R78). -/
def State.changing (s : State) (t : OrreryTable) : List Nat :=
  (t.bindings.filter (fun b => b.image != 0 && b.image != (s.core b.core).bound && s.placeable b.core)).map (·.core)

/-- The table passes R73 at its activation: with the powered cores, their clocks and the reservations of its first frames. -/
def State.activates (s : State) (t : OrreryTable) : Bool :=
  let f := s.meridian.frame
  let p := periodUs t.period
  let base := contractable p
  let a := s.aPrime
  let n := streamFrames p
  let new := 16 * (s.changing t).length
  let kept := fun i => maxNat ((List.range n).map (fun j => if j % t.cycle = i then s.orrery.reservedAt (f + j) + new else 0))
  (overfull (fun i => { base with cf := a - kept i }) t.entries 0 []).isNone &&
    (List.range t.cycle).all (fun i => decide (kept i ≤ a))

/-- An object number's model or program object, by its handle: it exists and is not being deleted. -/
def State.imageOf (s : State) (h : Nat) : Option Object :=
  (s.objects.named h).filter (fun o => o.deletingBy.isNone && (match o.body with | .model => true | .program => true | _ => false))

/-- An entry of a tenant places on a core (Table Orrery 4): its CLUSTERS names the core's cluster, or any; of a drift core, any
entry. -/
def Entry.placesOn (e : Entry) (n : Nat) : Bool := e.clusters == 0 || decide (n < 64) || bitAt e.clusters ((n - 64) / 16)

/-- A class as the last CONTRACT SET left it, in force or not yet. -/
def Orrery.accepted (o : Orrery) (key : Nat) : Option ClassDef :=
  match (o.changes.filter (fun c => c.tenant * 16 + c.cls == key)).getLast? with
  | some c => c.deff
  | none => tget? o.classes key

/-- The entry in 32 bytes at an offset. -/
def readEntry (d : List Byte) (o : Nat) : Entry :=
  { frame := leAt d o 1, tenant := leAt d (o + 1) 1, cls := leAt d (o + 2) 1, slots := leAt d (o + 3) 1
    budget := { cf := leAt d (o + 4) 4, th := leAt d (o + 8) 4, lpd := leAt d (o + 12) 2, hin := leAt d (o + 16) 4
                hout := leAt d (o + 20) 4 }
    clusters := leAt d (o + 24) 2 % 4096 }

/-- A table's bytes with CRC zero. -/
def withoutCrc (d : List Byte) : List Byte := d.take 16 ++ List.replicate 8 0 ++ d.drop 24

/-- The checks of R72 in order, each with the offset of its field; and the table. -/
def State.readTable (s : State) (len : Nat) (d : List Byte) : List (Bool × Nat) × OrreryTable :=
  let ne := leAt d 4 2
  let nb := leAt d 6 2
  let want := 64 + 16 * nb + 32 * ne
  let cycle := leAt d 3 1
  let head := [(decide (len < 64), 8), (leAt d 0 2 != 1, 0), (decide (5 < leAt d 2 1), 2), (outside cycle 1 64, 3),
               (decide (1024 < ne), 4), (decide (256 < nb), 6), (leAt d 8 4 != want || len != want, 8)]
  if head.any (·.1) then (head, {})
  else
    let bs := (List.range nb).map (fun i => let o := 64 + 16 * i; (o, ({ core := leAt d o 2, image := leAt d (o + 8) 8 } : Binding)))
    let es := (List.range ne).map (fun i => let o := 64 + 16 * nb + 32 * i; (o, readEntry d o))
    let dupEntry := fun (x : Nat × Entry) => es.any (fun (y : Nat × Entry) =>
      decide (y.1 < x.1) && y.2.frame == x.2.frame && y.2.tenant == x.2.tenant && y.2.cls == x.2.cls)
    let dupCore := fun (x : Nat × Binding) => bs.any (fun (y : Nat × Binding) => decide (y.1 < x.1) && y.2.core == x.2.core)
    let badImage := fun (x : Nat × Binding) => x.2.image != 0 && ((s.imageOf x.2.image).isNone ||
      !es.any (fun (y : Nat × Entry) => y.2.tenant == handleTenant x.2.image && y.2.placesOn x.2.core))
    let t : OrreryTable := { period := leAt d 2 1, cycle := cycle, bindings := bs.map (·.2), entries := es.map (·.2), crc := leAt d 16 8 }
    let past := overfull (fun _ => contractable (periodUs t.period)) t.entries 0 []
    (bs.map (fun (x : Nat × Binding) => (decide (255 < x.2.core), x.1)) ++
     es.flatMap (fun (x : Nat × Entry) => [(decide (cycle ≤ x.2.frame), x.1), (decide (63 < x.2.tenant), x.1 + 1),
       (decide (7 < x.2.cls), x.1 + 2), (x.2.slots == 0, x.1 + 3)]) ++
     [(crc64 (withoutCrc (padTo want d)) != leAt d 16 8, 16)] ++
     es.map (fun (x : Nat × Entry) => (dupEntry x, x.1)) ++
     es.map (fun (x : Nat × Entry) => ((s.orrery.accepted (x.2.tenant * 16 + x.2.cls)).isNone, x.1 + 1)) ++
     bs.map (fun (x : Nat × Binding) => (dupCore x, x.1)) ++
     bs.map (fun (x : Nat × Binding) => (badImage x, x.1 + 8)) ++
     [(past.isSome, 64 + 16 * nb + 32 * past.getD 0)], t)

/-- The images of a table can no longer be changed (R249, R288). -/
def State.freezeImages (s : State) (t : OrreryTable) : State :=
  let hs := t.bindings.map (·.image)
  { s with objects := { s.objects with live := tmapv s.objects.live (fun _ o => if hs.contains o.handle then { o with frozen := true } else o) } }

/-- ORRERY_LOAD (R71 to R75, and the edges of R61). -/
def execOrreryLoad (q : Sqe) (s : State) : Result :=
  .next (s.pfCommand q (fun s =>
    let (checks, t) := s.readTable q.d10.toNat q.data
    match checks.find? (·.1) with
    | some c => s.complete q .invalidField c.2
    | none =>
      let m := s.meridian
      let o := s.orrery
      match m.pend with
      | some (p, _) =>
        if t.period ≠ p then s.complete q .commandSequence
        else (({ s with orrery := { o with shadow := some t, shadowAt := none } } : State).freezeImages t).complete q .success
      | none =>
        let at_ := if t.period = m.period then some (o.boundaryFrom (m.frame + 4)) else none
        (({ s with orrery := { o with shadow := some t, shadowAt := at_ } } : State).freezeImages t).complete q .success))

/-! ### Contract classes (R65, R66) -/

/-- An entry of the active or the shadow table names the class (R66). -/
def Orrery.names (o : Orrery) (tenant cls : Nat) : Bool :=
  (o.active.entries ++ o.shadow.elim [] (·.entries)).any (fun e => e.tenant == tenant && e.cls == cls)

/-- CONTRACT_SET (R65, R66). -/
def execContractSet (q : Sqe) (s : State) : Result :=
  .next (s.pfCommand q (fun s =>
    let n := dwField q.d10 0 6
    let k := dwField q.d10 8 3
    let gone := bitAt q.d10.toNat 15
    let d := q.data
    let cls : ClassDef := { cfMax := leAt d 0 4, lpdMax := leAt d 4 2, candMax := leAt d 6 4, paramMax := leAt d 10 4 }
    if gone ∧ s.orrery.names n k then s.complete q .commandSequence
    else if !gone ∧ (outside cls.cfMax 1 243 ∨ outside cls.lpdMax 1 208) then s.complete q .invalidField
    else
      let o := s.orrery
      let f := o.boundaryFrom (s.meridian.frame + 1)
      let change : ClassChange := { tick := f, tenant := n, cls := k, deff := if gone then none else some cls }
      let s := { s with orrery := { o with changes := o.changes ++ [change] } }
      (s.raise 0x0107 n ([BitVec.ofNat 8 k, BitVec.ofNat 8 (bit gone)] ++ le 8 f)).complete q .success))

/-- A class change has come to its boundary. -/
def State.classDue (s : State) : Bool := s.orrery.changes.any (fun c => decide (c.tick ≤ s.meridian.frame))

/-- The class changes that are due take effect, and are saved with the boot area (R65). -/
def State.applyClasses (s : State) : State :=
  let o := s.orrery
  let due := o.changes.filter (fun c => decide (c.tick ≤ s.meridian.frame))
  let classes := due.foldl (fun (m : Tbl ClassDef) c => match c.deff with
    | some d => tset m (c.tenant * 16 + c.cls) d
    | none => terase m (c.tenant * 16 + c.cls)) o.classes
  let s := { s with orrery := { o with classes := classes, changes := o.changes.filter (fun c => decide (s.meridian.frame < c.tick)) } }
  s.save (fun v => { v with classes := classes })

/-! ### Streaming (R77, R78, R483, R538) -/

/-- The time of streaming an image, in ns: 1 ms, and 11 ms scaled by the lodes of its 24 that are out of Tier H (R77). -/
def State.streamNs (s : State) (h : Nat) : Nat :=
  match s.objects.find h with
  | some o =>
    let m := ((List.range (min 24 o.lodes)).filter (fun i => (s.cage.find (o.base + i)).isNone)).length
    1000000 + 11000000 * m / 24
  | none => 1000000

/-- Begin to stream an image into a core: its time is charged as reserved core-frames, and the image is frozen (R77, R249). -/
def State.stream (s : State) (n h : Nat) : State :=
  let t := s.streamNs h
  let s := s.setCore n { s.core n with image := h, streamingUntil := s.now + t, ready := (s.core n).bound == 0 }
  let s := { s with tally := { s.tally with reservedNow := s.tally.reservedNow + ceilDiv (16 * t) (1000 * s.period) } }
  { s with objects := { s.objects with live := tmapv s.objects.live (fun _ o => if o.handle = h then { o with frozen := true } else o) } }

/-- The object's lodes that its class keeps in Tier H are there: stage 8 pages them in before it streams (R538). -/
def State.pinnedIn (s : State) : Bool := s.objects.live.all (fun p => p.2.uncharged || s.cage.allResident p.2.pinnedLodes)

/-- At a tick: bound cores whose image is in are ready, and those that must still stream it begin, in a powered domain and a
state that can run (R483, R513, R538). -/
def State.streamBound (s : State) : State :=
  let go := s.startup.ended.contains .residency || s.pinnedIn
  (s.cores.map (·.1)).foldl (fun s n =>
    let c := s.core n
    if c.bound = 0 ∨ c.ready ∨ !s.powered (unitDomain n) ∨ !c.kernelStore then s
    else if c.image = c.bound then
      if c.streamingUntil ≤ s.now then s.setCore n { c with ready := true } else s
    else if go ∧ ((s.unit n).state = .active ∨ (s.unit n).state = .off) ∧ c.packet.isNone then s.stream n c.bound
    else s) s

/-- A table becomes active at the latest tick: its bindings take effect, and the cores whose binding changes are to stream
(R75, R78). -/
def State.install (s : State) (t : OrreryTable) : State :=
  let f := s.meridian.frame
  let change := s.changing t
  let o := s.orrery
  let s := { s with orrery := { o with active := t, start := f, shadow := none, shadowAt := none, remaining := []
                                       reserved := if change.isEmpty then o.reserved
                                         else o.reserved ++ [(f, streamFrames (periodUs t.period), 16 * change.length)] } }
  let bound := fun n => ((t.bindings.find? (fun b => b.core == n)).map (·.image)).getD 0
  let s := { s with cores := tmapv s.cores (fun n c =>
      if c.bound = bound n then c else { c with bound := bound n, ready := bound n == 0 && c.kernelStore, image := if bound n = 0 then c.image else 0 }) }
  change.foldl (fun s n => if (s.core n).packet.isNone ∧ (s.unit n).state = .active ∧ (s.core n).kernelStore then s.stream n (bound n) else s) s

/-- ORRERY_ACTIVATED: the shadow table of the current period at its tick (R75). -/
def State.activateShadow (s : State) : State :=
  match s.orrery.shadow, s.orrery.shadowAt with
  | some t, some b =>
    if s.meridian.frame < b then s
    else
      let ok := s.activates t
      let s := if ok then s.install t else { s with orrery := { s.orrery with shadow := none, shadowAt := none } }
      let s := if ok ∧ t.period = s.saved.period then s.save (fun v => { v with orrery := some t }) else s
      s.raiseM 0x0106 ([BitVec.ofNat 8 (bit (!ok))] ++ le 8 (if ok then s.meridian.frame else b) ++ le 8 t.crc)
  | _, _ => s

/-- The shadow table is due at the latest tick. -/
def State.shadowDue (s : State) : Bool := s.orrery.shadow.isSome && s.orrery.shadowAt.any (fun b => decide (b ≤ s.meridian.frame))

/-! ### Feature C0h (R55 to R61) -/

/-- A module whose twin or foreman made the pending change, and which has been lost since, keeps its period (R61). -/
def State.peerGone (s : State) : Bool :=
  s.meridian.pendPeer && !(s.pair.state == .paired || (s.const.role == .hewer && s.const.formed))

/-- A period change is due at the latest tick. -/
def State.periodDue (s : State) : Bool := s.meridian.pend.any (fun p => decide (p.2 ≤ s.meridian.frame))

/-- PERIOD_CHANGED: at tick b the new period governs, and the shadow table is active (R58). -/
def State.changePeriod (s : State) : State :=
  match s.meridian.pend, s.orrery.shadow with
  | some (p, b), some t =>
    if s.meridian.frame < b then s
    else if s.peerGone then { s with meridian := { s.meridian with pend := none, pendPeer := false, owed := some (p, none) } }
    else
      let m := s.meridian
      let s := { s with meridian := { m with period := p, pend := none, pendPeer := false }
                        lodestar := { s.lodestar with windowStart := m.frame } }
      (s.install t).raiseM 0x0103 ([BitVec.ofNat 8 p] ++ le 8 m.frame)
  | some (_, b), none => if s.meridian.frame < b then s else { s with meridian := { s.meridian with pend := none, pendPeer := false } }
  | none, _ => s

/-- Cancel a pending period change (R61). -/
def State.cancelPeriod (s : State) : State := { s with meridian := { s.meridian with pend := none, pendPeer := false, owed := none } }

/-- Make a period change pending for tick `b` (R57, R58). -/
def State.pendPeriod (s : State) (p b : Nat) (peer : Bool) : State :=
  ({ s with meridian := { s.meridian with pend := some (p, b), pendPeer := peer, owed := none } } : State).raiseM 0x0102 ([BitVec.ofNat 8 p] ++ le 8 b)

/-- The shadow table declares a period. -/
def State.shadowFor (s : State) (p : Nat) : Bool := s.orrery.shadow.elim false (fun t => t.period == p)

/-- The link to the module that made a period change is up (R61): a hewer's to its foreman, else the binary link. -/
def State.peerLink (s : State) : Bool :=
  if s.const.role = .hewer then (tget? s.const.routes s.const.foreman).elim false (fun p => (s.port p).state == .up) else s.binaryLive

/-- At a tick: a module that was lost before tick b takes the period that it owes at its first cycle boundary at least three ticks
after its link is up, if its shadow table declares that period (R61). -/
def State.owedTick (s : State) : State :=
  match s.meridian.owed with
  | none => s
  | some (p, seen) =>
    if p = s.meridian.period then { s with meridian := { s.meridian with owed := none } }
    else if !s.peerLink then { s with meridian := { s.meridian with owed := some (p, none) } }
    else
      let f := seen.getD s.meridian.frame
      let s := { s with meridian := { s.meridian with owed := some (p, some f) } }
      if s.meridian.pend.isNone ∧ s.shadowFor p then
        s.pendPeriod p (s.orrery.boundaryFrom (max (f + 2) (s.meridian.frame + 1))) false
      else s

/-- Save the period with the table that declares it (R60). -/
def State.savePeriod (s : State) (p : Nat) : State :=
  let t := if s.meridian.period = p then some s.orrery.active else s.orrery.shadow
  s.save (fun v => { v with period := p, orrery := t })

/-- SET_FEATURES_FRAME_PERIOD: `both` says that the twin, or every member, holds a shadow table of the period too; `peer` is the
tick of a change that the twin or the foreman makes on this module (R55 to R61). -/
def execSetFeaturesFramePeriod (q : Sqe) (both : Bool) (peer : Option Nat) (s : State) : Result :=
  let p := dwField q.d11 0 3
  match peer with
  | some b =>
    let s := s.at q.t
    if 5 < p ∨ !s.powered 4 ∨ s.global.mfault then .next s
    else if p = s.meridian.period then .next (let s := s.cancelPeriod; if saveBit q then s.savePeriod p else s)
    else if !s.shadowFor p ∨ b ≤ s.meridian.frame then .next s
    else .next (let s := s.pendPeriod p b true; if saveBit q then s.savePeriod p else s)
  | none =>
    .next (s.command q true (fun s =>
      let shared := s.pair.state == .paired || (s.const.role == .foreman && s.const.formed)
      if q.fn ≠ 0 then s.complete q .featureNotChangeable
      else if 5 < p then s.complete q .invalidField
      else if s.const.role = .hewer ∧ s.const.formed then s.complete q .commandSequence
      else if p = s.meridian.period then
        let s := s.cancelPeriod
        (if saveBit q then s.savePeriod p else s).complete q .success
      else if !s.shadowFor p ∨ (shared ∧ !both) then s.complete q .commandSequence
      else
        let s := s.pendPeriod p (s.orrery.boundaryFrom (s.meridian.frame + 4)) false
        (if saveBit q then s.savePeriod p else s).complete q .success))

/-- Completion DW0 of Get Features C0h (Table Frame 2). -/
def Meridian.c0h (m : Meridian) : Nat := m.period + m.pend.elim 0 (fun p => p.1 * 16 + 128)

/-- GET_FEATURES_FRAME_PERIOD (R55, R56). -/
def execGetFeaturesFramePeriod (q : Sqe) (s : State) : Result :=
  .next (s.command q true (fun s =>
    match selectField q with
    | 0 => s.complete q .success s.meridian.c0h
    | 1 => s.complete q .success 2
    | 2 => s.complete q .success s.saved.period
    | 3 => s.complete q .success (capabilities true (q.fn == 0))
    | _ => s.complete q .invalidField))

/-! ### The budgets of a frame (R80, R82, R499) -/

/-- The entries of the frame begun, their budgets reduced to what the powered cores and the host link give (R82, R499, and the
edges of R117). -/
def State.openBudgets (s : State) : State :=
  let i := s.frameIndex
  let es := (s.orrery.active.entries.filter (fun e => e.frame == i)).map (fun e =>
    if s.maskDark e.clusters then { e with budget := { e.budget with cf := 0 } } else e)
  let a := s.aPrime
  let sum := sumNat (es.map (·.budget.cf))
  let host := fun n => n * s.link.scale / 1024
  let rs := es.map (fun e =>
    ({ entry := e, slots := e.slots
       left := { e.budget with cf := if a < sum then e.budget.cf * a / sum else e.budget.cf
                               hin := host e.budget.hin, hout := host e.budget.hout } } : Remaining))
  { s with orrery := { s.orrery with remaining := rs, withheld := []
                                     reserved := s.orrery.reserved.filter (fun r => decide (s.meridian.frame < r.1 + r.2.1)) } }

end Sys2Proof.Machine
end

