-- ==== Sys2Proof/Machine/Constellation.lean ====
section
/-!
DEFINITION. The constellation: tick markers, forming and surveys, scatter, the shards' runs and their results, and the loss of
members and of the foreman (spec/04_lodestar_and_powered_time.md, R113 to R115; spec/16_pairs_and_constellations.md, R434,
R461 to R474; spec/19, R542).
-/
namespace Sys2Proof.Machine

/-! ### Tick markers (R434, R456, R464, R473) -/

/-- This module's frame number minus a sender's at the same tick: a marker that arrives in the second half of a frame is that of
the tick to come. -/
def State.markerOffset (s : State) (t sent : Nat) : Int :=
  let late : Int := if s.meridian.tickFs + s.frameFs / 2 ≤ t * 1000000 then 1 else 0
  (s.meridian.frame : Int) + late - sent

/-- The time from `t` to the nearest tick of this module, in ns. -/
def State.tickDistance (s : State) (t : Nat) : Nat :=
  let x : Int := (t : Int) * 1000000 - s.meridian.tickFs
  (reducePhase x s.periodFs).natAbs / 1000000

/-- Forget the sub-packets that an earlier foreman sent (R473). -/
def State.dropSubs (s : State) (gone : SubPacket → Bool) : State :=
  let subs := s.const.subs.filter gone
  let s := subs.foldl (fun s b => match b.packet with
    | some k => match s.packet? k with
      | some p =>
        let s := (s.stopCores k).freeJobLodes p.jobLodes
        { s with packets := { s.packets with live := terase s.packets.live k }
                 cage := { s.cage with reserved := terase s.cage.reserved k } }
      | none => s
    | none => s) s
  { s with const := { s.const with subs := s.const.subs.filter (fun b => !gone b) } }

/-- TICK_MARKER: the marker on port `p`, sent by member `from_`, whose source has selected `sel` and keeps the period code
`period`. On a binary port it is TWIN; on a hewer's constellation port it is FAB, when the foreman sent it. Markers of a new
foreman within 1 µs of this module's own tick continue FAB (R61, R94, R434, R456, R473). -/
def execTickMarker (t p from_ sel period : Nat) (s : State) : Result :=
  let s := s.at t
  match s.takeRecord p 3 with
  | none => .next s
  | some (r, s) =>
    let frame := leAt r 8 8
    let every := 1000 * s.period
    if !s.powered 4 then .next s
    else if isBinary p then
      let s := s.modRef .twin (fun i => { i with barred := sel == 4 || period != s.meridian.period })
      .next { s.mark .twin t every with pair := { s.pair with markerOff := s.markerOffset t frame } }
    else if s.const.role ≠ .hewer then .next s
    else
      let old := s.const.foreman
      let s := if from_ = old then s
        else
          let s := ({ s with const := { s.const with foreman := from_ } } : State).dropSubs (fun b => b.member == old)
          if 1000 < s.tickDistance t ∧ (s.ref .fab).signal then s.loseSignal .fab true
          else s.modRef .fab (fun i => { i with lastMark := none })
      let s := s.modRef .fab (fun i => { i with barred := sel == 3 || period != s.meridian.period })
      .next { s.mark .fab t every with const := { s.const with frameOff := -(s.markerOffset t frame) } }

/-! ### Forming and surveys (R113, R461 to R463, R542) -/

/-- A survey entry as 32 bytes (Table Lodestar 6). -/
def SurveyEntry.bytes (e : SurveyEntry) : List Byte :=
  le 8 (unsigned 64 e.offset) ++ le 8 (unsigned 64 e.frameOff) ++ le 4 e.delay ++ le 4 e.spread ++ le 1 e.member ++
    le 1 (bit e.valid + 2 * bit e.stale) ++ le 2 0 ++ le 4 e.boot

/-- The data that SURVEY returns: a header whose contents the spec does not give (notes/assumptions/3.md), and an entry for every
member index (R462). -/
def State.surveyData (s : State) (head : Nat) : List Byte :=
  le 64 (Config.freeBits 512 head).toNat ++ (List.range 64).flatMap (fun m => (tgetD s.lodestar.survey m {}).bytes)

/-- The survey at the front has measured its last member: SURVEY_DONE, after a FORM CONST_FORMED and routes for the next tick,
and its completion (R113, R462). -/
def State.endSurvey (s : State) (j : SurveyJob) : State :=
  let s := { s with lodestar := { s.lodestar with surveys := s.lodestar.surveys.drop 1 } }
  let s := s.raiseM 0x0209 [BitVec.ofNat 8 j.measured]
  let s := if j.form then
      ({ s with const := { s.const with formed := true, routesNext := some j.routes } } : State).raiseM 0x0701 [BitVec.ofNat 8 s.const.members.length]
    else s
  if j.own then s
  else
    let (n, s) := s.draw
    let s := { s with link := { s.link with mem := writeRuns s.link.mem j.buf (s.surveyData n) } }
    s.completeOn j.fn j.sqid j.cid .success 0 0

/-- End every survey at the front that has no member left. -/
def State.endSurveys (s : State) : Nat → State
  | 0 => s
  | fuel + 1 => match s.lodestar.surveys with
    | j :: _ => if j.left.isEmpty then (s.endSurvey j).endSurveys fuel else s
    | [] => s

/-- A survey begins, after those that run or wait. -/
def State.startSurvey (s : State) (j : SurveyJob) : State :=
  let l := s.lodestar
  ({ s with lodestar := { l with surveys := l.surveys ++ [j] } } : State).endSurveys (l.surveys.length + 1)

/-- FORM: `found` are the hewers that answered with this constellation ID, were authenticated and lie within 4 hops, with this
module's routes to them and each one's table (R462, R463). -/
def State.form (s : State) (found : List Nat) (routes : List (Nat × Nat)) (tables : List (Nat × List (Nat × Nat))) (j : SurveyJob) :
    State :=
  let ms := dedupNat ((found.filter (fun m => decide (0 < m ∧ m < 64))))
  let put := fun (r : List (Nat × Nat)) => r.foldl (fun (t : Tbl Nat) (x : Nat × Nat) => tset t x.1 x.2) []
  let own := s.const.member
  let s := { s with const := { s.const with members := own :: ms, lost := [], savedMembers := ms, foreman := own } }
  let s := tables.foldl (fun s (x : Nat × List (Nat × Nat)) => match tget? (put routes) x.1 with
    | some p => s.sendMessage { port := p, vc := 0, dst := x.1, src := own, typ := MsgType.routes.code, tag := 0
                                body := routeBytes (put x.2) }
    | none => s) s
  s.startSurvey { j with form := true, left := ms, measured := ms.length, routes := put routes }

/-- SURVEY_FORM; `clash` says that two modules gave one member index, or that a second foreman answered (R462). -/
def execSurveyForm (q : Sqe) (found : List Nat) (clash : Bool) (routes : List (Nat × Nat)) (tables : List (Nat × List (Nat × Nat)))
    (s : State) : Result :=
  .next (s.pfCommand q (fun s =>
    if dwField q.d10 0 8 ≠ 0 then s.complete q .invalidField
    else if s.const.role ≠ .foreman ∨ clash then s.complete q .commandSequence
    else s.form found routes tables { fn := q.fn, sqid := q.sqid, cid := q.cid, buf := q.buf }))

/-- SURVEY: measures again for every member, or for the one that CDW11 names (R462). -/
def execSurvey (q : Sqe) (s : State) : Result :=
  .next (s.pfCommand q (fun s =>
    let m := dwField q.d11 0 6
    let hewers := s.const.members.filter (· != s.const.member)
    if dwField q.d10 0 8 ≠ 1 then s.complete q .invalidField
    else if s.const.role ≠ .foreman ∨ !s.const.formed then s.complete q .commandSequence
    else if m ≠ 0 ∧ !hewers.contains m then s.complete q .invalidField
    else
      let ms := if m = 0 then hewers else [m]
      s.startSurvey { fn := q.fn, sqid := q.sqid, cid := q.cid, buf := q.buf, left := ms, measured := ms.length }))

/-- FOREMAN_AUTO_FORM: once, when every saved member answers, or 60 s after CSTS.RDY (R542). -/
def execForemanAutoForm (t : Nat) (found : List Nat) (clash : Bool) (routes : List (Nat × Nat)) (tables : List (Nat × List (Nat × Nat)))
    (s : State) : Result :=
  let s := s.at t
  let c := s.const
  let due := c.savedMembers.all (fun m => found.contains m) || decide (s.startup.readyNs + 60000000000 ≤ s.now)
  if c.savedRole ≠ .foreman ∨ c.formed ∨ c.formAsked ∨ !s.startup.ended.contains .ready ∨ !due ∨ s.global.mfault then .next s
  else
    let s := { s with const := { c with formAsked := true } }
    if clash then .next s else .next (s.form found routes tables { own := true })

/-- The times of one exchange, each side's in its own powered time (R113). -/
structure Exchanged where
  t1 : Int
  t2 : Int
  t3 : Int
  t4 : Int

/-- The delay of an exchange, and its offset. -/
def Exchanged.measure (e : Exchanged) : Int × Int :=
  let d := ((e.t4 - e.t1) - (e.t3 - e.t2)) / 2
  (d, e.t2 - e.t1 - d)

/-- The entry that 64 exchanges give: medians, and the spread between the medians of the lower and the upper half (R113;
notes/assumptions/16.md). -/
def surveyOf (member boot : Nat) (frameOff : Int) (es : List Exchanged) : SurveyEntry :=
  let ds := es.map (fun e => e.measure.1)
  let os := sortBy (fun a b => decide (a < b)) (es.map (fun e => e.measure.2))
  let h := os.length / 2
  { offset := medianOf os, delay := (medianOf ds).toNat, spread := (medianOf (os.drop (os.length - h)) - medianOf (os.take h)).toNat
    frameOff := frameOff, member := member, valid := true, boot := boot }

/-- SURVEY_EXCHANGE: the exchanges over the route to a member, each as (t1, t2, t3, t4). On the foreman, 64 of them measure the
member that its survey waits for, and its entry is replaced. On the hewer they are its replies; with all 64 it holds its own
entry, as the foreman tells it (R113, R115). -/
def execSurveyExchange (t member boot : Nat) (frameOff : Int) (xs : List (Int × Int × Int × Int)) (s : State) : Result :=
  let s := s.at t
  let es := xs.map (fun (x : Int × Int × Int × Int) => ({ t1 := x.1, t2 := x.2.1, t3 := x.2.2.1, t4 := x.2.2.2 } : Exchanged))
  let e := surveyOf member boot frameOff es
  let put := fun (s : State) => { s with lodestar := { s.lodestar with survey := tset s.lodestar.survey member e } }
  if s.const.role = .hewer then
    if xs.length = 64 ∧ member = s.const.member then .next { put s with const := { s.const with frameOff := frameOff } } else .next s
  else match s.lodestar.surveys with
    | j :: rest =>
      if xs.length ≠ 64 ∨ !j.left.contains member ∨ s.const.role ≠ .foreman then .next s
      else
        let j := { j with left := j.left.filter (· != member) }
        let s := put { s with lodestar := { s.lodestar with surveys := j :: rest } }
        .next (s.endSurveys (rest.length + 1))
    | [] => .next s

/-- SURVEY_STALE: a member has been on another reference than FAB or TWIN for more than 2 s, or reports the boot count `boot`,
which is not its entry's; a hewer marks its own entry (R114, R115 edges). -/
def execSurveyStale (t member : Nat) (boot : Option Nat) (s : State) : Result :=
  let s := s.at t
  let e := tgetD s.lodestar.survey member {}
  let l := s.lodestar
  let here := member == s.const.member
  let off := l.sel != .fab && l.sel != .twin && decide (l.selSince + 2000000000 < s.now)
  if !e.valid ∨ e.stale ∨ boot = some e.boot ∨ (here ∧ (s.const.role ≠ .hewer ∨ !off)) then .next s
  else
    let s := { s with lodestar := { l with survey := tset l.survey member { e with stale := true } } }
    .next (if s.const.role = .foreman then s.raiseM 0x020A [BitVec.ofNat 8 member] else s)

/-! ### Scatter (R466, R467) -/

/-- The current frame in constellation numbering (R464). -/
def State.constFrame (s : State) : Nat := ((s.meridian.frame : Int) + s.const.frameOff).toNat

/-- The charge of the foreman's merge: one core for the merge of R199 (notes/assumptions/7.md). -/
def State.mergeCharge (s : State) : Nat := ({ num := 2 } : Us).sixteenths s.period

/-- A sub-packet on the wire: the model's own layout (notes/assumptions/11.md). -/
def SubPacket.body (b : SubPacket) : List Byte :=
  le 1 b.shard ++ le 1 b.tenant ++ le 8 b.frame ++ le 2 b.hdr.opcode ++ le 1 b.hdr.flags ++ le 1 b.hdr.cls ++ le 8 b.hdr.packetId ++
    le 8 b.hdr.primary ++ le 8 b.hdr.secondary ++ le 4 b.hdr.costCap ++ le 4 b.hdr.answerLen ++ le 4 b.hdr.paramLen ++ b.param

/-- Send one shard's sub-packet to a member, or hold it here when this module is the member (R467). -/
def State.sendSub (s : State) (p : Packet) (i member prim sec : Nat) (again : Bool) : State :=
  let frame := ((p.admitFrame.getD s.meridian.frame : Int) + s.const.frameOff).toNat
  let b : SubPacket :=
    { member := s.const.member, tag := p.key * 64 + i, shard := i, tenant := p.tenant, frame := frame, param := p.param, resent := again
      hdr := { p.hdr with primary := prim, secondary := sec, flags := p.hdr.flags / 4 * 4 % 8 + bit p.contracted } }
  let s := if member = s.const.member then { s with const := { s.const with subs := s.const.subs ++ [b] } }
    else match tget? s.const.routes member with
      | some port => s.sendMessage { port := port, vc := 2, dst := member, src := s.const.member, typ := MsgType.subPacket.code
                                     tag := b.tag, body := b.body }
      | none => s
  s.trace 0xC p.tenant p.hdr.packetId [BitVec.ofNat 8 member, BitVec.ofNat 8 i, BitVec.ofNat 8 (if again then 2 else 0)]

/-- The handles of shard `i` on its preferred or its alternate member. -/
def State.shardHandles (s : State) (p : Packet) (i : Nat) (alt : Bool) : Nat × Nat :=
  let of := fun key : Nat => match (tget? s.const.spans key).bind (fun x => x.shards[i]?) with
    | some sh => if alt then sh.altH else sh.prefH
    | none => 0
  (of p.hdr.primary, of p.hdr.secondary)

/-- Send shard `i` to a member. -/
def State.sendShard (s : State) (p : Packet) (i member : Nat) (alt again : Bool) : State :=
  let h := s.shardHandles p i alt
  s.sendSub p i member h.1 h.2 again

/-- The scatter of a packet on the foreman: a packet of the twin that this module took over. -/
def State.scatter (s : State) (key : Nat) : State :=
  match s.packet? key with
  | none => s
  | some p =>
    let s := s.updateRecord key (fun p => { p with phase := .running, placeNs := s.now, fault := none })
    match tget? s.const.scatters key, tget? s.const.spans p.hdr.primary with
    | some sc, _ =>
      let left := (List.range sc.shards.length).filter (fun i => !sc.missing.contains i && !sc.results.any (fun r => r.shard == i))
      left.foldl (fun s i =>
        let m := tgetD sc.runner i 0
        s.sendShard p i m ((sc.shards[i]?).elim false (fun sh => sh.pref != m)) true) s
    | none, some span =>
      let lost := fun m : Nat => s.const.lost.contains m || !s.const.members.contains m
      let run := (span.shards.zipIdx).map (fun (x : Shard × Nat) =>
        (x.2, if !lost x.1.pref then some x.1.pref else if x.1.alt != 0xFF && !lost x.1.alt then some x.1.alt else none))
      let sc : Scatter := { packet := key, shards := span.shards
                            runner := run.filterMap (fun (x : Nat × Option Nat) => x.2.map (fun m => (x.1, m)))
                            missing := (run.filter (fun (x : Nat × Option Nat) => x.2.isNone)).map (fun (x : Nat × Option Nat) => x.1) }
      let s := { s with const := { s.const with scatters := tset s.const.scatters key sc } }
      sc.runner.foldl (fun s (x : Nat × Nat) => s.sendShard p x.1 x.2 ((span.shards[x.1]?).elim false (fun sh => sh.pref != x.2)) p.takenOver) s
    | none, none => s.conclude key .refusedObject (refusalLocator 9 40 false)

/-! ### Results and the merge (R469 to R471) -/

/-- The order of R189, with the shard index last (R469). -/
def ShardEntry.before (a b : ShardEntry) : Bool :=
  lt32 a.dist b.dist || (!lt32 b.dist a.dist && (decide (a.id < b.id) || (a.id == b.id &&
    (decide (a.slot < b.slot) || (a.slot == b.slot && decide (a.shard < b.shard))))))

/-- The merged answer: the leading K entries (R194, R469). -/
def mergedPayload (k : Nat) (rs : List ShardResult) : List Byte :=
  ((sortBy ShardEntry.before (rs.flatMap (·.entries))).take k).flatMap (fun e => le 8 e.id ++ le 4 e.dist ++ le 4 (bit e.exact))

/-- The set of shards as a mask. -/
def shardMask (l : List Nat) : Nat := sumNat ((dedupNat l).map (fun i => 2 ^ i))

/-- Merge once every live shard's list is in; a shard whose run failed ends the packet so (R469 to R472). -/
def State.gather (s : State) (key : Nat) : State :=
  match tget? s.const.scatters key, s.packet? key with
  | some sc, some p =>
    if p.phase ≠ .running ∨ !sc.resend.isEmpty ∨ sc.results.length + sc.missing.length < sc.shards.length then s
    else match sc.results.find? (fun r => r.status != .done) with
      | some r => s.conclude key r.status r.locator
      | none =>
        let pay := mergedPayload (Search.read p.param).k sc.results
        let cost := sumNat (sc.results.map (·.cost)) + s.mergeCharge
        let energy := min (2 ^ 32 - 1) (sumNat (sc.results.map (·.energy)) + ({ host := p.hdr.hostBytes } : Counts).energy)
        let s := s.updateRecord key (fun p =>
          { p with phase := .finished, status := .done, payload := pay, cost := cost, energy := energy
                   truncated := sc.results.any (·.truncated), partialAns := !sc.missing.isEmpty })
        if sc.missing.isEmpty then s
        else s.raise 0x0703 p.tenant (le 8 p.hdr.packetId ++ [BitVec.ofNat 8 sc.missing.length] ++ le 8 (shardMask sc.missing))
  | _, _ => s

/-- A shard's result is in; a second one of the same shard changes nothing. -/
def State.takeResult (s : State) (tag : Nat) (r : ShardResult) : State :=
  let key := tag / 64
  match tget? s.const.scatters key, s.packet? key with
  | some sc, some p =>
    if p.phase ≠ .running ∨ sc.results.any (fun x => x.shard == r.shard) ∨ r.shard ≠ tag % 64 ∨ sc.missing.contains r.shard then s
    else
      let sc := { sc with results := sc.results ++ [r] }
      let s := { s with const := { s.const with scatters := tset s.const.scatters key sc } }
      let s := s.trace 0xC p.tenant p.hdr.packetId ([BitVec.ofNat 8 (tgetD sc.runner r.shard 0), BitVec.ofNat 8 r.shard, 1, 0] ++ le 4 r.entries.length)
      s.gather key
  | _, _ => s

/-- RESULT: a shard's list arrives at the foreman; marked units are consumed by its merge, and its job faults (R419, R469). -/
def execResult (t tag : Nat) (r : ShardResult) (poisoned : Bool) (s : State) : Result :=
  let s := s.at t
  if s.global.mfault ∨ !s.powered 4 then .next s
  else if poisoned then
    let (n, s) := s.draw
    if (tget? s.const.scatters (tag / 64)).isSome then .next (s.faultJob (tag / 64) .poison (deviceLocator (Config.freeNat n % 2 ^ 40 / 64 * 64)))
    else .next s
  else .next (s.takeResult tag r)

/-! ### A shard holder's runs (R468) -/

/-- SUBPACKET: a sub-packet arrives; it waits for its tick. At most 4,096 are outstanding (R468, R474). -/
def execSubpacket (t : Nat) (b : SubPacket) (s : State) : Result :=
  let s := s.at t
  if s.global.mfault ∨ !s.powered 4 ∨ 4096 ≤ s.const.subs.length ∨ s.const.role = .none ∨ b.member = s.const.member then .next s
  else .next { s with const := { s.const with subs := s.const.subs ++ [{ b with packet := none }] } }

/-- The entries of a sub-packet's payload. -/
def shardEntries (i : Nat) (d : List Byte) : List ShardEntry :=
  (List.range (d.length / 24)).map (fun k =>
    { shard := i, id := leAt d (24 * k) 8, dist := leAt d (24 * k + 8) 4, exact := bitAt (leAt d (24 * k + 12) 1) 0, slot := leAt d (24 * k + 16) 8 })

/-- What a sub-packet's run gives the foreman. -/
def Packet.shardResult (p : Packet) (i : Nat) : ShardResult :=
  if p.status = .done then { shard := i, entries := shardEntries i p.payload, cost := p.cost, energy := p.energy, truncated := p.truncated }
  else { shard := i, entries := [], cost := 0, energy := 0, truncated := false, status := p.status, locator := p.lastLoc }

/-- A result on the wire: the model's own layout (notes/assumptions/11.md). -/
def ShardResult.body (r : ShardResult) : List Byte :=
  le 1 r.shard ++ le 1 r.status.code ++ le 1 (bit r.truncated) ++ le 4 r.cost ++ le 4 r.energy ++ le 8 r.locator ++
    r.entries.flatMap (fun e => le 8 e.id ++ le 4 e.dist ++ le 4 (bit e.exact) ++ le 8 e.slot)

/-- The run of a sub-packet is over: its result goes to the foreman on VC2, and its record is answered (R468). -/
def State.returnShard (s : State) (key : Nat) : State :=
  match s.packet? key, s.const.subs.find? (fun b => b.packet == some key) with
  | some p, some b =>
    if p.phase ≠ .finished then s
    else
      let r := p.shardResult b.shard
      let s := (s.freeJobLodes p.jobLodes).modPacket key (fun p => { p with phase := .answered, jobLodes := [], deliverFrame := some s.meridian.frame })
      let s := { s with const := { s.const with subs := s.const.subs.filter (fun x => x.packet != some key) } }
      if b.member = s.const.member then s.takeResult b.tag r
      else match tget? s.const.routes b.member with
        | some port => s.sendMessage { port := port, vc := 2, dst := b.member, src := s.const.member, typ := MsgType.result.code, tag := b.tag
                                       body := r.body }
        | none => s
  | _, _ => s

/-- SEAM_SEARCH: a shard's list goes to the foreman as soon as it is merged (R195, R468). -/
def execSeamSearch (t key : Nat) (s : State) : Result := .next ((s.run t key [0x0101] [] searchWork).returnShard key)

/-- SEAM_SEARCH_FILTERED (R193, R195, R468). -/
def execSeamSearchFiltered (t key : Nat) (s : State) : Result := .next ((s.run t key [0x0102] [] searchWork).returnShard key)

/-- SUBPACKET_CANCEL: the sub-packet of a foreman's tag stops (R473, and the edges of R474). -/
def execSubpacketCancel (t member tag : Nat) (s : State) : Result :=
  .next ((s.at t).dropSubs (fun b => b.member == member && b.tag == tag))

/-- An abort of a constellation packet cancels its sub-packets, here and on the members (the edges of R474). -/
def State.cancelScatter (s : State) (key : Nat) : State :=
  match tget? s.const.scatters key with
  | none => s
  | some sc =>
    let s := s.dropSubs (fun b => b.member == s.const.member && b.tag / 64 == key)
    let s := sc.runner.foldl (fun s (x : Nat × Nat) => match tget? s.const.routes x.2 with
      | some port => if x.2 = s.const.member then s
        else s.sendMessage { port := port, vc := 2, dst := x.2, src := s.const.member, typ := MsgType.cancel.code, tag := key * 64 + x.1, body := [] }
      | none => s) s
    { s with const := { s.const with scatters := terase s.const.scatters key } }

/-! ### Losses (R471, R473) -/

/-- Shards of a scatter that a lost member was to run go to their other copy at the next tick, or are missing. -/
def Scatter.without (sc : Scatter) (gone : Nat → Bool) : Scatter :=
  (sc.shards.zipIdx).foldl (fun (sc : Scatter) (x : Shard × Nat) =>
    let i := x.2
    if sc.results.any (fun r => r.shard == i) ∨ sc.missing.contains i ∨ !gone (tgetD sc.runner i 0xFF) then sc
    else if tgetD sc.runner i 0xFF = x.1.pref ∧ x.1.alt ≠ 0xFF ∧ !gone x.1.alt then
      { sc with runner := tset sc.runner i x.1.alt, resend := sc.resend ++ [i] }
    else { sc with missing := sc.missing ++ [i], resend := sc.resend.filter (· != i) }) sc

/-- MEMBER_LOST: the fabric has no route to a member, or its twin reports it lost (R471). -/
def execMemberLost (t m : Nat) (s : State) : Result :=
  let s := s.at t
  if s.const.role ≠ .foreman ∨ !s.const.members.contains m ∨ s.const.lost.contains m ∨ m = s.const.member then .next s
  else
    let lost := s.const.lost ++ [m]
    let s := { s with const := { s.const with lost := lost, scatters := tmapv s.const.scatters (fun _ sc => sc.without (fun x => lost.contains x)) } }
    let s := s.raiseM 0x0702 [BitVec.ofNat 8 m]
    .next ((s.const.scatters.map (·.1)).foldl State.gather s)

/-- FOREMAN_CHANGED: the deputy, whose twin is lost, becomes foreman; `spans`, which the packets it takes over name, are what its
twin mirrored with them (R473). -/
def execForemanChanged (t : Nat) (spans : List Span) (s : State) : Result :=
  let s := s.at t
  let c := s.const
  if c.role ≠ .hewer ∨ !c.deputy ∨ s.pair.state ≠ .solo then .next s
  else
    let old := c.foreman
    let s := { s with const := { c with role := .foreman, foreman := c.member, deputy := false, lost := dedupNat (c.lost ++ [old])
                                        members := dedupNat (c.member :: c.routes.map (fun (x : Nat × Nat) => x.1))
                                        spans := spans.foldl (fun (m : Tbl Span) (x : Span) => tset m x.key x) c.spans } }
    let s := s.dropSubs (fun b => b.member == old)
    .next (s.raiseM 0x0709 [BitVec.ofNat 8 c.member])

/-- At a tick: routes go live, results that wait are sent, and lost shards are sent to their other copy (R462, R471). -/
def State.constTick (s : State) : State :=
  let s := match s.const.routesNext with
    | some r => { s with const := { s.const with routes := r, routesNext := none } }
    | none => s
  let s := (s.const.subs.filterMap (·.packet)).foldl State.returnShard s
  let open_ := fun (k : Nat) => (s.packet? k).elim false (·.open_)
  let s := { s with const := { s.const with scatters := s.const.scatters.filter (fun (x : Nat × Scatter) => open_ x.1) } }
  s.const.scatters.foldl (fun s (x : Nat × Scatter) => match s.packet? x.1 with
    | some p =>
      let s := { s with const := { s.const with scatters := tset s.const.scatters x.1 { x.2 with resend := [] } } }
      x.2.resend.foldl (fun s i => s.sendShard p i (tgetD x.2.runner i 0) true true) s
    | none => s) s

end Sys2Proof.Machine
end

