-- ==== Sys2Proof/Machine/RuhaicScalar.lean ====
section
/-!
DEFINITION. The scalar operations of the S0 and S1 slots (spec/10_the_ruhaic_core.md, R266, Table Ruhaic 4).
-/
namespace Sys2Proof.Machine

/-- First source of a scalar operation. -/
def src1 (vs : List (BitVec 64)) : BitVec 64 := vs.headD 0

/-- Second source. -/
def src2 (vs : List (BitVec 64)) : BitVec 64 := (vs.drop 1).headD 0

/-- The shift count of SHL, SHR and SAR: XB[5:0]. -/
def shiftCount (vs : List (BitVec 64)) : Nat := (src2 vs).toNat % 64

/-- All ones when the comparison holds, else all zeros. -/
def flagMask (b : Bool) : BitVec 64 := if b then BitVec.allOnes 64 else 0

/-- ADD: XD = XA + XB (R266). -/
def execAdd (core : Nat) (sl : SSlot) (g : Guard) (xd xa xb : BitVec 5) (s : State) : Result :=
  .next (s.scalarOp core sl g xd.toNat [xa.toNat, xb.toNat] 1 (fun v => src1 v + src2 v))

/-- SUB: XD = XA − XB (R266). -/
def execSub (core : Nat) (sl : SSlot) (g : Guard) (xd xa xb : BitVec 5) (s : State) : Result :=
  .next (s.scalarOp core sl g xd.toNat [xa.toNat, xb.toNat] 1 (fun v => src1 v - src2 v))

/-- AND (R266). -/
def execAnd (core : Nat) (sl : SSlot) (g : Guard) (xd xa xb : BitVec 5) (s : State) : Result :=
  .next (s.scalarOp core sl g xd.toNat [xa.toNat, xb.toNat] 1 (fun v => src1 v &&& src2 v))

/-- OR (R266). -/
def execOr (core : Nat) (sl : SSlot) (g : Guard) (xd xa xb : BitVec 5) (s : State) : Result :=
  .next (s.scalarOp core sl g xd.toNat [xa.toNat, xb.toNat] 1 (fun v => src1 v ||| src2 v))

/-- XOR (R266). -/
def execXor (core : Nat) (sl : SSlot) (g : Guard) (xd xa xb : BitVec 5) (s : State) : Result :=
  .next (s.scalarOp core sl g xd.toNat [xa.toNat, xb.toNat] 1 (fun v => src1 v ^^^ src2 v))

/-- SHL by XB[5:0] (R266). -/
def execShl (core : Nat) (sl : SSlot) (g : Guard) (xd xa xb : BitVec 5) (s : State) : Result :=
  .next (s.scalarOp core sl g xd.toNat [xa.toNat, xb.toNat] 1 (fun v => src1 v <<< shiftCount v))

/-- SHR by XB[5:0], zero fill (R266). -/
def execShr (core : Nat) (sl : SSlot) (g : Guard) (xd xa xb : BitVec 5) (s : State) : Result :=
  .next (s.scalarOp core sl g xd.toNat [xa.toNat, xb.toNat] 1 (fun v => src1 v >>> shiftCount v))

/-- SAR by XB[5:0], sign fill (R266). -/
def execSar (core : Nat) (sl : SSlot) (g : Guard) (xd xa xb : BitVec 5) (s : State) : Result :=
  .next (s.scalarOp core sl g xd.toNat [xa.toNat, xb.toNat] 1 (fun v => (src1 v).sshiftRight (shiftCount v)))

/-- ADDI: XD = XA + IMM (R266). -/
def execAddi (core : Nat) (sl : SSlot) (g : Guard) (xd xa : BitVec 5) (imm : BitVec 32) (s : State) : Result :=
  .next (s.scalarOp core sl g xd.toNat [xa.toNat] 1 (fun v => src1 v + sext32 imm))

/-- LI: XD = IMM, sign-extended (R262, R266). -/
def execLi (core : Nat) (sl : SSlot) (g : Guard) (xd : BitVec 5) (imm : BitVec 32) (s : State) : Result :=
  .next (s.scalarOp core sl g xd.toNat [] 1 (fun _ => sext32 imm))

/-- LUI: XD = (IMM << 32) | XA[31:0] (R266). -/
def execLui (core : Nat) (sl : SSlot) (g : Guard) (xd xa : BitVec 5) (imm : BitVec 32) (s : State) : Result :=
  .next (s.scalarOp core sl g xd.toNat [xa.toNat] 1 (fun v => imm ++ (src1 v).setWidth 32))

/-- MUL: low 64 bits of XA × XB (R266). -/
def execMul (core : Nat) (sl : SSlot) (g : Guard) (xd xa xb : BitVec 5) (s : State) : Result :=
  .next (s.scalarOp core sl g xd.toNat [xa.toNat, xb.toNat] 3 (fun v => src1 v * src2 v))

/-- DIVU: unsigned; divisor 0 gives all ones (R266). -/
def execDivu (core : Nat) (sl : SSlot) (g : Guard) (xd xa xb : BitVec 5) (s : State) : Result :=
  .next (s.scalarOp core sl g xd.toNat [xa.toNat, xb.toNat] 20 (fun v => if src2 v = 0 then BitVec.allOnes 64 else src1 v / src2 v))

/-- CMPEQ: predicate XD[2:0] = all ones or all zeros (R266). -/
def execCmpeq (core : Nat) (sl : SSlot) (g : Guard) (xd xa xb : BitVec 5) (s : State) : Result :=
  .next (s.predOp core sl g (xd.toNat % 8) [xa.toNat, xb.toNat] (fun v => flagMask (src1 v == src2 v)))

/-- CMPLT: signed (R266). -/
def execCmplt (core : Nat) (sl : SSlot) (g : Guard) (xd xa xb : BitVec 5) (s : State) : Result :=
  .next (s.predOp core sl g (xd.toNat % 8) [xa.toNat, xb.toNat] (fun v => flagMask ((src1 v).slt (src2 v))))

/-- CMPLTU: unsigned (R266). -/
def execCmpltu (core : Nat) (sl : SSlot) (g : Guard) (xd xa xb : BitVec 5) (s : State) : Result :=
  .next (s.predOp core sl g (xd.toNat % 8) [xa.toNat, xb.toNat] (fun v => flagMask ((src1 v).ult (src2 v))))

/-- FADD: FP32 on the low halves, nearest even, flushing denormals (R266, R301). -/
def execFadd (core : Nat) (sl : SSlot) (g : Guard) (xd xa xb : BitVec 5) (s : State) : Result :=
  .next (s.scalarOp core sl g xd.toNat [xa.toNat, xb.toNat] 4 (fun v => BitVec.ofNat 64 (fadd32 ((src1 v).toNat % 2 ^ 32) ((src2 v).toNat % 2 ^ 32))))

/-- FMUL: FP32 on the low halves, nearest even (R266, R301). -/
def execFmul (core : Nat) (sl : SSlot) (g : Guard) (xd xa xb : BitVec 5) (s : State) : Result :=
  .next (s.scalarOp core sl g xd.toNat [xa.toNat, xb.toNat] 4 (fun v => BitVec.ofNat 64 (fmul32 ((src1 v).toNat % 2 ^ 32) ((src2 v).toNat % 2 ^ 32))))

/-- MOVPX: XD = predicate XA[2:0] (R266). -/
def execMovpx (core : Nat) (sl : SSlot) (g : Guard) (xd xa : BitVec 5) (s : State) : Result :=
  .next (s.issueOn core (slotOf sl) (some (.x xd.toNat)) (fun c =>
    if c.acts g then c.queue 1 (.x xd.toNat) (.x { val := c.readP (xa.toNat % 8) }) else c))

/-- MOVXP: predicate XD[2:0] = XA; a predicate carries no mark, so a marked XA is consumed (R260, R266). -/
def execMovxp (core : Nat) (sl : SSlot) (g : Guard) (xd xa : BitVec 5) (s : State) : Result :=
  .next (s.predOp core sl g (xd.toNat % 8) [xa.toNat] src1)

/-- Take a branch to bundle offset `target` after two delay bundles; a branch in a delay bundle of an earlier
taken branch is illegal, whatever its guard (R267; notes/assumptions/7.md). -/
def RCore.branchTo (c : RCore) (n : Nat) (g : Guard) (src : List XVal) (target : Nat) : RCore :=
  if c.branch.isSome then c.illegal n
  else c.scalar g src (fun c => { c with branch := some (3, target) })

/-- BR: branch to this bundle + IMM (R266, R267). -/
def execBr (core : Nat) (g : Guard) (imm : BitVec 32) (s : State) : Result :=
  .next (s.issueOn core .s1 none (fun c =>
    c.branchTo core g [] (BitVec.ofNat 64 c.pc + sext32 imm).toNat))

/-- BRX: branch to bundle offset XA of the code section (R266, R267). -/
def execBrx (core : Nat) (g : Guard) (xa : BitVec 5) (s : State) : Result :=
  .next (s.issueOn core .s1 none (fun c =>
    c.branchTo core g [c.readX xa.toNat] (c.readX xa.toNat).val.toNat))

/-- The units of payload staging that hold the first `n` bytes. -/
def stagedMarked (p : Packet) (n : Nat) : Bool := p.stagingPoison.any (fun u => 64 * u < n)

/-- EXIT: this core's part of the job ends; on index 0, XA is the payload length, which must not exceed
ANSWER_LEN, and no marked byte may lie in the payload (R269, Table Ruhaic 8). -/
def execExit (core : Nat) (g : Guard) (xa : BitVec 5) (s : State) : Result :=
  .next (s.issueOn core .s1 none (fun c =>
    c.scalar g [c.readX xa.toNat] (fun c =>
      let len := (c.readX xa.toNat).val.toNat
      match c.packet.bind (tget? s.packets.live) with
      | none => c
      | some p =>
        if c.index = 0 ∧ stagedMarked p len then c.consumed
        else if c.index = 0 ∧ p.hdr.answerLen < len then c.outOfWindow core
        else { c with exited := true, payloadLen := len })))

/-- LOOP: run the bundles after this one up to END a count of times; a fifth active loop or an LC in use is
illegal, and a count of zero skips the body (R268). -/
def execLoop (core : Nat) (lc : BitVec 2) (xa : BitVec 5) (last : BitVec 20) (cnt : BitVec 12) (s : State) : Result :=
  .next (s.issueOn core .c none (fun c =>
    if c.loops.length ≥ 4 ∨ c.loops.any (fun l => l.lc = lc.toNat) then c.illegal core
    else if xa.toNat ≠ 0 ∧ (c.readX xa.toNat).poison then c.consumed
    else
      let count := if xa.toNat = 0 then cnt.toNat else (c.readX xa.toNat).val.toNat % 2 ^ 32
      if count = 0 then { c with skipTo := some (c.pc + last.toNat + 1), lc := tset c.lc lc.toNat 0 }
      else { c with newLoop := some { lc := lc.toNat, first := c.pc + 1, last := c.pc + last.toNat }
                    lc := tset c.lc lc.toNat count }))

end Sys2Proof.Machine
end

