-- ==== Sys2Proof/Machine/Delivery.lean ====
section
/-!
DEFINITION. Commits and the delivery of answers (spec/06_work_packets.md, R156 to R158, R169 to R173;
spec/12_tiers_stope_and_cage.md, R318, R329, R335; spec/15_faults_and_replay.md, R415, R419; spec/16, R445, R451).
-/
namespace Sys2Proof.Machine

/-! ### What only answered packets needed (R158, R177, R415) -/

/-- Free the storage of an object: its lodes, and its place in the directory (R158). -/
def State.dropStorage (s : State) (num : Nat) : State :=
  match tget? s.objects.live num with
  | none => s
  | some o =>
    let hs := (s.cage.map.filter (fun p => (p.2.state == .resident || p.2.state == .transit) &&
      decide (o.base ≤ p.2.wlode ∧ p.2.wlode < o.base + o.lodes))).map (·.1)
    let s := hs.foldl State.freeLode s
    let inside := fun w : Nat => decide (o.base ≤ w ∧ w < o.base + o.lodes)
    { s with objects := { s.objects with live := terase s.objects.live num }
             cage := { s.cage with wanted := s.cage.wanted.filter (fun w => !inside w) }
             media := { s.media with pinnedViews := s.media.pinnedViews.filter (fun (x : Nat × List (Nat × Nat)) => x.1 != num) } }

/-- Let go of what only answered packets needed: the storage of deleted objects, and slots that a delete emptied (R158,
R177). -/
def State.sweep (s : State) : State :=
  let isOpen := fun k : Nat => (s.packet? k).elim false (·.open_) || s.twinReads k
  let s := { s with objects := { s.objects with live := tmapv s.objects.live (fun _ o =>
    { o with keepFor := o.keepFor.filter isOpen
             body := match o.body with
               | .index b => .index { b with emptied := (b.emptied.map (fun (e : Nat × List Nat) => (e.1, e.2.filter isOpen))).filter (fun (e : Nat × List Nat) => !e.2.isEmpty) }
               | b => b }) } }
  ((s.objects.live.filter (fun (x : Nat × Object) => x.2.dead && x.2.keepFor.isEmpty)).map (fun (x : Nat × Object) => x.1)).foldl State.dropStorage s

/-! ### Lode swaps (R335, R415) -/

/-- Swap a job lode into the map in place of the lode it replaces, which is kept while a packet needs it; a lode that had no
place in Tier H takes one of its class. -/
def State.swapLode (s : State) (o : Object) (readers : List Nat) (w h : Nat) : State :=
  let n := handleTenant o.handle
  let cls := o.lodeClass w
  let e : LodeEntry := match s.cage.find w with
    | some h0 => { s.cage.entry h0 with state := .resident, poison := [], stored := [] }
    | none => { wlode := w, state := .resident, cls := cls, tenant := n, pool := cls == .stream || (cls == .paged && decide (s.quota n ≤ s.charge n)) }
  let s := match s.cage.find w with
    | some h0 =>
      let s := (s.invalidateHeld (h0 * lodeBytes) lodeBytes).freeLode h0
      if readers.isEmpty then s else { s with cage := { s.cage with retained := s.cage.retained ++ [(h0, readers)] } }
    | none => s
  let c := (s.cage.cacheOut w).chainIn h w
  let c := { c with map := tset c.map h e }
  { s with cage := match e.clock with
      | some k => c.clockIn h k
      | none => c }

/-- The class of an object has changed: its resident lodes take it, and their clocks with it (R318, R326). -/
def State.reclass (s : State) (o : Object) : State :=
  let hs := (s.cage.map.filter (fun p => p.2.state == .resident && decide (o.base ≤ p.2.wlode ∧ p.2.wlode < o.base + o.lodes))).map (·.1)
  hs.foldl (fun s h =>
    let e0 := s.cage.entry h
    let cls := o.lodeClass e0.wlode
    let keeps := cls == .pinnedH || cls == .hot
    let e := { e0 with cls := cls, pool := if keeps then false else if cls = .stream then true else e0.pool, overdraft := e0.overdraft && !keeps }
    let c := s.cage.clockOut h
    let c := { c with map := tset c.map h e }
    { s with cage := match e.clock with
        | some k => c.clockIn h k
        | none => c }) s

/-! ### Commits (R156, R335, R445, R451) -/

/-- A change or deletion of a mirrored object happens on the twin before it is reported (R445). -/
def State.mirrorReady (s : State) (h : Nat) (ack : Bool) : Bool := !s.mirrored h || !s.mirrors || (s.binaryLive && ack)

/-- Tell the twin of a commit or a deletion, or list it among the solo changes (R445, R451). -/
def State.mirrorObject (s : State) (h version : Nat) (gone : Bool) : State :=
  if !s.mirrored h then s
  else if s.mirrors then
    if gone then s.toTwin 1 .objectDelete (objNumber h) (le 8 h) else s.toTwin 1 .objectCopy (objNumber h) (le 8 h ++ le 8 version)
  else if s.pair.state = .solo then
    if gone then { s with pair := { s.pair with deleted := addKeys s.pair.deleted [objNumber h], changed := s.pair.changed.filter (· != objNumber h) } }
    else { s with pair := { s.pair with changed := addKeys s.pair.changed [objNumber h] } }
  else s

/-- Commit a changed or new object: one version more, its new lodes in place of the old, `placed` where their Tier F copies lie
(R156, R335, R369). -/
def State.commitObject (s : State) (key : Nat) (c : Object) (swaps : List (Nat × Nat)) (placed : List (Nat × Nat × Nat)) : State :=
  let num := objNumber c.handle
  let readers := s.readersOf c.handle key
  let body := match c.body with
    | .index b => ObjBody.index { b with emptied := (b.emptied.map (fun e => if e.2.isEmpty then (e.1, readers) else e)).filter (fun e => !e.2.isEmpty) }
    | b => b
  let put := fun (m : Tbl (Nat × Nat)) => (placed.filter (fun x => decide (x.1 < c.lodes))).foldl (fun m x => tset m x.1 (x.2.1, x.2.2)) m
  let o : Object := match tget? s.objects.live num with
    | some o => { o with body := body, bytes := c.bytes, units := c.units, cls := c.cls, version := o.version + 1, tierF := put o.tierF
                         badUnits := o.badUnits.filter (fun b => !placed.any (fun x => x.1 == b.1 / 1024)) }
    | none => { c with body := body, tierF := put c.tierF }
  let moved := (tget? s.objects.live num).elim false (fun old => old.cls != o.cls)
  let s := ({ s with objects := { s.objects with live := tset s.objects.live num o } } : State).objectKey o
  let s := (swaps.filter (fun x => decide (o.base ≤ x.1 ∧ x.1 < o.base + o.lodes))).foldl (fun s x => s.swapLode o readers x.1 x.2) s
  let s := if moved then s.reclass o else s
  (s.wantPinned o).mirrorObject o.handle o.version false

/-- Delete an object at its commit; its storage goes with the last packet that sees it (R158). -/
def State.commitDelete (s : State) (key num : Nat) : State :=
  match tget? s.objects.live num with
  | none => s
  | some o =>
    let s := { s with objects := { s.objects with live := tset s.objects.live num { o with dead := true, keepFor := s.readersOf o.handle key } } }
    s.mirrorObject o.handle o.version true

/-- The object that a packet's commit changes, creates or deletes. -/
def Packet.touches (p : Packet) : List Nat := p.changes.map (·.handle)

/-- Swaps of a delivery: of its job lodes, each once. -/
def Packet.swaps (p : Packet) (l : List (Nat × Nat)) : List (Nat × Nat) :=
  l.foldl (fun a x => if p.jobLodes.contains x.2 && !a.any (fun y => y.1 == x.1 || y.2 == x.2) then a ++ [x] else a) []

/-- The first marked unit of the job lodes that a commit would swap in (R419). -/
def State.swapMark (s : State) (swaps : List (Nat × Nat)) : Option Nat :=
  swaps.findSome? (fun x =>
    ((s.cage.entry x.2).poison.head?.map (fun m => deviceLocator (x.2 * lodeBytes + 64 * m.1))).orElse (fun _ =>
      (s.coherence.hPoison.find? (fun u => u / 1024 == x.2)).map (fun u => deviceLocator (64 * u))))

/-- A create that keeps all of its object in Tier H is answered once every lode has its place there (R318). -/
def State.createWaits (s : State) (p : Packet) (swaps : List (Nat × Nat)) : Bool :=
  p.changes.any (fun o => (tget? s.objects.live (objNumber o.handle)).isNone && o.cls == .pinnedH &&
    ((List.range o.lodes).map (o.base + ·)).any (fun w => !swaps.any (fun x => x.1 == w)))

/-! ### Holds at delivery (R164, R233, R329) -/

/-- Hold resident lodes through a frame, each as far as the tenant's quota can hold it. -/
def State.holdLodes (s : State) (n frame : Nat) (ws : List Nat) : State :=
  let before := s.charge n
  let s := ws.foldl (fun s w => match s.cage.find w with
    | none => s
    | some h =>
      let e := s.cage.entry h
      let free := e.charged s.meridian.frame || e.reservedClass
      if !free ∧ !s.canCharge n 1 then s
      else
        let s := { s with cage := { s.cage with map := tupd s.cage.map h (fun e => { e with hold := some (max frame (e.hold.getD 0)) }) } }
        if free then s else s.evictTo n (s.quota n) (tgetD s.cage.clocks n {}).lodes.length) s
  s.quotaHigh n before

/-- What a delivered run leaves held: the staged lodes of an ATTEND with HOLD_FRAMES, the lodes a PREFETCH took. -/
def State.holdAfter (s : State) (p : Packet) (pl : Plan) : State :=
  let d := s.meridian.frame
  match p.hdr.opcode, p.prim with
  | 0x0201, _ =>
    let n := (Attend.read p.param).holdFrames
    if n = 0 then s else s.holdLodes p.tenant (d + n) pl.lodes
  | 0x0704, some o =>
    let v := (PinRange.read p.param).holdUntil
    let f := if v = 0 then d + 1 else nearFrame d v
    if f < d then s else s.holdLodes p.tenant f (pl.items.map (o.base + ·))
  | _, _ => s

/-- The clear of an ASSAY at its commit (R167). -/
def State.clearTaps (s : State) (p : Packet) : State :=
  if p.hdr.opcode ≠ 0x0501 ∨ leAt p.param 4 1 ≠ 1 then s
  else
    let a := s.assay
    let keys := (List.range (leAt p.param 2 2)).map (fun i => p.tenant * 256 + leAt p.param 0 2 + i)
    { s with assay := { a with taps := keys.foldl (fun m k => tupd m k (fun tp => { tp with sat := 0, hist := [] })) a.taps } }

/-- The payload that an EXECUTE PROGRAM run commits to its output range (R135). -/
def Packet.output (p : Packet) (s : State) : List Object :=
  match p.viaExecute, p.out with
  | true, some (h, off) => match s.objects.named h with
    | some o =>
      if p.payload.isEmpty then []
      else
        let d := padTo (ceilDiv p.payload.length 64 * 64) p.payload
        let us := (List.range (d.length / 64)).map (off / 64 + ·)
        [{ o with bytes := csetBytes o.bytes off d, units := o.units.filter (fun u => !us.contains u) ++ us }]
    | none => []
  | _, _ => []

/-- ANSWER_DELIVERY: a finished job commits its change, then writes its payload, its record and its CQE (R38, R156, R169, R335).
`swaps` pairs each window lode that it wrote with the job lode that takes its place, `placed` says where Tier F copies lie
(lode, drift, slot), `ack` that the twin has made a mirrored change, `failed` that a write to the answer region failed. -/
def execAnswerDelivery (t key : Nat) (swaps : List (Nat × Nat)) (placed : List (Nat × Nat × Nat)) (ack failed : Bool) (s : State) : Result :=
  let s := s.at t
  match s.packet? key with
  | none => .next s
  | some p =>
    if p.phase ≠ .finished ∨ s.global.mfault ∨ p.sub then .next s
    else
      let p := { p with changes := p.changes ++ p.output s }
      let sw := p.swaps swaps
      let mark := if p.status ≠ .done then none
        else if stagedMarked p p.payload.length then some (deviceLocator (p.jobLodes.headD 0 * lodeBytes)) else s.swapMark sw
      match mark with
      | some loc => .next (s.faultJob key .poison loc)
      | none =>
        let gone := p.deletes.filterMap (fun k => (tget? s.objects.live k).map (·.handle))
        if s.createWaits p sw ∨ (p.touches ++ gone).any (fun h => !s.mirrorReady h ack) then .next s
        else
          let s := p.changes.foldl (fun s c => s.commitObject key c sw placed) s
          let s := p.deletes.foldl (fun s k => s.commitDelete key k) s
          let s := s.freeJobLodes (p.jobLodes.filter (fun h => !sw.any (fun x => x.2 == h)))
          let c := s.cage
          let s := { s with cage := { c with reserved := terase c.reserved key } }
          let s := if p.status = .done then (s.clearTaps p).holdAfter p (p.plan.getD {}) else s
          let s := s.modPacket key (fun p => { p with jobLodes := [], writeFailed := failed })
          .next ((s.deliver key).sweep)

end Sys2Proof.Machine
end

