-- ==== Sys2Proof/Machine/Placement.lean ====
section
/-!
DEFINITION. What a tick decides for packets: the outcome of faulted runs, aborts, admission, demotion, probes, and the placement
of jobs with the pre-emption it needs (spec/02_meridian_frame.md, R35, R52 to R54; spec/03, R79 to R87; spec/06, R148, R154;
spec/12, R328; spec/15, R409 to R416; spec/16, R456, R467, R468).
-/
namespace Sys2Proof.Machine

/-! ### Packets in the orders of R35 and R54 -/

/-- Packets that a test holds of, in order of receipt point. -/
def State.packetsBy (s : State) (f : Packet → Bool) : List Nat := (s.packets.live.filter (fun x => f x.2)).map (·.1)

/-- Oldest admission frame first, then receipt order (R54). -/
def State.byAdmission (s : State) (keys : List Nat) : List Nat :=
  let at_ := fun k : Nat => (s.packet? k).elim 0 (fun p => p.admitFrame.getD 0)
  sortBy (fun a b => decide (at_ a < at_ b) || (at_ a == at_ b && decide (a < b))) keys

/-- A job that waits for the decision of R409. -/
def Packet.undecided (p : Packet) (frame : Nat) : Bool :=
  p.phase == .replaying && p.fault.elim false (fun f => decide (f.frame < frame))

/-- A job that R53 may pre-empt: it is not contracted and not taken over (R52). -/
def Packet.preemptible (p : Packet) : Bool := !p.contracted && !p.takenOver

/-! ### Plans (R45, R195 to R199, R416) -/

/-- The cap on lodes per drift that a packet's block declares, 0 for none. -/
def Packet.lpdCap (p : Packet) : Nat :=
  match p.hdr.opcode with
  | 0x0101 => (Search.read p.param).lpdCap
  | 0x0102 => (Search.read p.param).lpdCap
  | 0x0201 => (Attend.read p.param).lpdCap
  | _ => 0

/-- The plan of a packet over its inputs at this tick. -/
def State.planFor (s : State) (p : Packet) : Plan :=
  let lpd := if p.contracted ∨ p.hdr.opcode = 0x0301 then some p.charges.lpd else declared p.lpdCap
  let ns := (s.spaceOf p.hdr p.param p.prim).map (fun n => (n, tgetD p.views n.nsid []))
  planOf s.cage p.hdr p.param p.prim p.sec ns
    { cap := (declared p.hdr.costCap).map (16 * ·), lpd := lpd, period := s.period
      drift := fun d => s.eligibleUnit d && s.eligibleUnit (256 + d) }

/-! ### The outcome of faulted runs (R409 to R412) -/

/-- A unit's work has an equivalent unit (R411): any eligible shaft core; for channel-bound work, the drift of the other copy. -/
def State.hasEquivalent (s : State) (p : Packet) (u : Nat) : Bool :=
  if 64 ≤ u ∧ u < 256 then (List.range 192).any (fun j => s.eligibleUnit (64 + j))
  else if 320 ≤ u ∧ u < 332 then (List.range 192).any (fun j => s.eligibleUnit (64 + j))
  else if u < 64 ∨ (256 ≤ u ∧ u < 320) then
    (match p.prim.bind Object.index? with
     | some b => b.replicas != 0 && s.driftServes ((u % 64 + 32) % 64)
     | none => false)
  else true

/-- The row of Table Fault 4 that applies to a fault. -/
def State.faultRow (s : State) (p : Packet) (f : FaultInfo) : Nat :=
  if p.abortAsked then 1
  else if f.event = .poison ∧ f.lostEntry then 2
  else if f.event = .poison ∧ p.lastPoisonLoc = some f.locator then 3
  else if f.event = .unitLoss ∧ (s.unit f.unit).state = .outOfService ∧ !s.hasEquivalent p f.unit then 4
  else if 2 ≤ p.replays then 5
  else 6

/-- A replay reads its inputs again: a mark of a sector that the further attempt could read leaves the lode (R375). -/
def State.reread (s : State) (p : Packet) : State :=
  let stale := fun (o : Object) (w : Nat) (m : Nat × Nat) =>
    decide (m.2 / 2 ^ 60 = 2) && !(((tget? s.objects.live (objNumber o.handle)).getD o).badUnits.any (fun b => b.1 == (w - o.base) * 1024 + m.1))
  { s with cage := { s.cage with map := tmapv s.cage.map (fun _ e =>
      match p.snap.find? (fun o => decide (o.base ≤ e.wlode ∧ e.wlode < o.base + o.lodes)) with
      | some o => if e.state = .resident then { e with poison := e.poison.filter (fun m => !stale o e.wlode m) } else e
      | none => e) } }

/-- The decision for one faulted run: it is charged to the module's own account (R46), and the packet ends or replays. -/
def State.decide_ (s : State) (key : Nat) : State :=
  match s.packet? key, (s.packet? key).bind (·.fault) with
  | some p, some f =>
    let row := s.faultRow p f
    let y := s.tally
    let s := { s with tally := { y with replayNow := y.replayNow + p.cost, energyNow := y.energyNow + p.energy } }
    let s := s.trace 3 p.tenant p.hdr.packetId ([BitVec.ofNat 8 f.event.row, BitVec.ofNat 8 row] ++ le 6 0 ++ le 8 f.locator)
    let stop := fun (s : State) (st : AnsStatus) => s.conclude key st f.locator
    match row with
    | 1 => (stop (s.cancelScatter key) .aborted).deliver key
    | 2 => stop s .failedMedia
    | 3 => stop s (if f.locator / 2 ^ 60 = 2 then .failedMedia else .failedPoison)
    | 4 => stop s .failedUnit
    | 5 => stop s .failedReplays
    | _ =>
      let s := s.reread p
      s.updateRecord key (fun q =>
        { q with replays := q.replays + 1, fault := none, cost := 0, energy := 0
                 lastPoisonLoc := if f.event = .poison then some f.locator else none
                 plan := q.plan.map (fun pl => s.reroute_ q pl) })
  | _, _ => s

/-- Every run that faulted before the latest tick is decided, in receipt order (R409). -/
def State.decisions (s : State) : State := (s.packetsBy (fun p => p.undecided s.meridian.frame)).foldl State.decide_ s

/-- The jobs that ABORT WORK named stop, and are answered ABORTED in the Admit phase (R148). -/
def State.abortJobs (s : State) : State :=
  (s.packetsBy (fun p => p.abortAsked && !p.recordWritten && p.phase != .answered)).foldl (fun s k =>
    ((s.cancelScatter k).conclude k .aborted 0).deliver k) s

/-! ### Admission (R34 to R36, R79 to R81, R402, R414, R541) -/

/-- An admission record of the trace: 0 admitted, 1 demoted, 2 refused, 3 best effort. -/
def State.traceAdmit (s : State) (p : Packet) (outcome : Nat) : State :=
  s.trace 0 p.tenant p.hdr.packetId ([BitVec.ofNat 8 outcome, BitVec.ofNat 8 p.hdr.cls] ++ le 2 p.hdr.opcode ++ le 4 p.charges.cf ++
    le 4 p.charges.th ++ le 2 p.charges.lpd)

/-- The handles that a packet's header names as its inputs: a constellation packet on the foreman names spans (R466). -/
def Packet.handles (p : Packet) : List Nat :=
  if p.hdr.fConstellation ∧ !p.sub then [] else [p.hdr.primary, p.hdr.secondary].filter (· != 0)

/-- The first input object that no longer exists: the offset of its field (R155). -/
def State.goneInput (s : State) (p : Packet) : Option Nat :=
  if p.handles.isEmpty then none
  else if p.hdr.primary ≠ 0 ∧ (s.objects.named p.hdr.primary).isNone then some 40
  else if p.hdr.secondary ≠ 0 ∧ (s.objects.named p.hdr.secondary).isNone then some 48
  else none

/-- The activation scales of a tenant's taps, one byte a tap (R299, R311). -/
def State.scaleBlock (s : State) (n : Nat) : List Byte :=
  (List.range 256).map (fun i => BitVec.ofNat 8 (tgetD s.assay.taps (n * 256 + i) {}).scale)

/-- The record of a packet admitted at the latest tick: its frame, its inputs with their versions and cuts, and its scales
(R36, R156, R311, R402, R414). -/
def State.admitPacket (s : State) (key : Nat) : State :=
  match s.packet? key with
  | none => s
  | some p =>
    match s.goneInput p with
    | some off => (s.conclude key .refusedObject (refusalLocator 8 off false)).deliver key
    | none =>
      let os := p.handles.filterMap s.objects.named
      let ns := s.spaceOf p.hdr p.param (os.head?)
      let inputs := os.map (fun o => (o.handle, o.version)) ++ ns.toList.map (fun n => (0xFFFF000000000000 + n.nsid, n.cut))
      let held := os.flatMap (fun o => if o.cls = .pinnedH ∨ o.cls = .hot then
        ((List.range o.lodes).map (o.base + ·)).filter (fun w => s.cage.allResident [w]) else [])
      let embeds := p.hdr.opcode == 0x0401 || p.hdr.opcode == 0x0402
      s.updateRecord key (fun q =>
        { q with phase := .admitted, admitFrame := some s.meridian.frame, inputs := inputs, snap := os
                 views := ns.toList.map (fun n => (n.nsid, n.blocks))
                 residentAtAdmit := if p.hdr.opcode = 0x0601 then held else []
                 scales := if embeds then s.scaleBlock p.tenant else [] })

/-- The index of the entry that a packet's tenant and class hold in this frame (R80). -/
def State.entryIx (s : State) (p : Packet) : Option Nat :=
  s.orrery.remaining.findIdx? (fun r => r.entry.tenant == p.tenant && r.entry.cls == p.hdr.cls)

/-- A firmware activation keeps contracted admission closed at the latest tick: its contracted packets fail the test of R80 (R521). -/
def State.activationHolds (s : State) : Bool :=
  let a := s.activation
  let past := decide (a.since < s.meridian.frame)
  (a.step == 1 && past) || (decide (2 ≤ a.step) && decide (a.step ≤ 4)) || (a.step == 5 && !past)

/-- The entry with a slot and the budgets left for a packet's charges (R80). -/
def State.roomFor (s : State) (p : Packet) (c : Charges) : Option (Nat × Remaining) :=
  if s.activationHolds then none
  else (s.entryIx p).bind (fun i => (s.orrery.remaining[i]?).bind (fun r => if 0 < r.slots ∧ c.le r.left then some (i, r) else none))

/-- Deduct a slot and the charges (R80). -/
def State.deduct (s : State) (i : Nat) (r : Remaining) (c : Charges) : State :=
  { s with orrery := { s.orrery with remaining := s.orrery.remaining.set i { r with slots := r.slots - 1, left := r.left.sub c } } }

/-- The clusters of an entry's mask; 0 names every cluster (Table Orrery 5). -/
def Entry.mask (e : Entry) : Nat := if e.clusters = 0 then 0xFFF else e.clusters

/-- A core that a job may hold: its own unit and its channel's or cluster's are eligible, it counts as powered, and it is ready
(R85, R482, R483). -/
def State.coreServes (s : State) (n : Nat) : Bool :=
  s.eligibleUnit n && s.eligibleUnit (if n < 64 then 256 + n else 320 + (n - 64) / 16) && s.placeable n && (s.core n).ready

/-- A core that is idle, with an image bound to it, or none (0) (R85). -/
def State.idleFor (s : State) (image n : Nat) : Bool :=
  s.coreServes n && (s.core n).bound == image && (s.core n).packet.isNone

/-- A core that contracted work may take: idle, or held by a job that R53 pre-empts. -/
def State.takeableFor (s : State) (image n : Nat) : Bool :=
  s.coreServes n && (s.core n).bound == image && ((s.core n).packet.bind s.packet?).elim true Packet.preemptible

/-- The shaft cores of a cluster with an image bound, in ascending order. -/
def State.boundIn (s : State) (image c : Nat) : List Nat := (clusterCores c).filter (fun n => (s.core n).bound == image)

/-- The groups of `k` cores of a list (R250). -/
def coreGroups (k : Nat) (l : List Nat) : List (List Nat) := (List.range (l.length / k)).map (fun i => window l (i * k) k)

/-- The clusters of a mask, lowest first. -/
def clustersOf (mask : Nat) : List Nat := (List.range 12).filter (fun c => bitAt mask c)

/-- The lowest group of a model in the clusters of a mask all of whose cores pass a test (R250). -/
def State.groupFor (s : State) (mask image shards : Nat) (ok : Nat → Bool) : Option (List Nat) :=
  (clustersOf mask).findSome? (fun c => (coreGroups shards (s.boundIn image c)).find? (fun g => g.all ok))

/-- The shards of a packet's model. -/
def Packet.shards (o : Object) : Nat := (Model.read o.all).shards.length

/-- A contracted packet's image can be placed under an entry's mask (R79, R250). -/
def State.imageBound (s : State) (p : Packet) (mask : Nat) : Bool :=
  match p.hdr.opcode, s.objects.named p.hdr.primary with
  | 0x0401, some o => (s.groupFor mask o.handle (Packet.shards o) (s.takeableFor o.handle)).isSome
  | 0x0402, some o => (s.groupFor mask o.handle (Packet.shards o) (s.takeableFor o.handle)).isSome
  | 0x0601, some o => decide ((RunProg.read p.param).cores ≤ ((clustersOf mask).flatMap (s.boundIn o.handle)).length)
  | _, _ => true

/-- A count of the FRAME record. -/
def State.countFrame (s : State) (a d r : Nat) : State :=
  { s with tally := { s.tally with admitted := s.tally.admitted + a, demoted := s.tally.demoted + d, refused := s.tally.refused + r } }

/-- A contracted packet becomes best effort, with DEMOTED (R81, R541, R550 edges). -/
def State.demote (s : State) (key : Nat) : State :=
  match s.packet? key with
  | none => s
  | some p =>
    let s := { s with orrery := { s.orrery with demotedCnt := satAdd 32 s.orrery.demotedCnt 1 } }
    let s := ((s.countFrame 0 1 0).count p.tenant p.hdr.cls .demoted 1).count p.tenant 8 .demoted 1
    (s.updateRecord key (fun q => { q with contracted := false, demoted := true })).traceAdmit p 1

/-- One contracted packet at its tick (R79 to R81, R571). -/
def State.considerContracted (s : State) (key : Nat) : State :=
  match s.packet? key with
  | none => s
  | some p =>
    match s.roomFor p p.charges with
    | some (i, r) =>
      if !s.imageBound p r.entry.mask then
        ((s.countFrame 0 0 1).conclude key .refusedState (refusalLocator 0x11 0 false)).deliver key
      else
        let s := (s.deduct i r p.charges).modPacket key (fun q => { q with clusters := r.entry.mask })
        ((s.countFrame 1 0 0).traceAdmit p 0).admitPacket key
    | none =>
      if p.hdr.fNoDemote then
        let s := { s with orrery := { s.orrery with refusedCnt := satAdd 32 s.orrery.refusedCnt 1 } }
        let s := ((s.countFrame 0 0 1).count p.tenant p.hdr.cls .refused 1).traceAdmit p 2
        (s.conclude key .refusedBudget (refusalLocator 0x12 5 false)).deliver key
      else s.demote key

/-- The probe payload (Table Packet 3). -/
def State.probeAnswer (s : State) (p : Packet) : List Byte :=
  let would := if !p.hdr.fContracted then 3
    else if (s.roomFor p p.charges).isSome then 0 else if p.hdr.fNoDemote then 2 else 1
  let os := p.handles.filterMap s.objects.named
  let ns := s.spaceOf p.hdr p.param (os.head?)
  let pl := s.planFor { p with snap := os, contracted := p.hdr.fContracted && would == 0, views := ns.toList.map (fun n => (n.nsid, n.blocks)) }
  let c := p.charges
  padTo 32 (le 1 would ++ le 3 0 ++ le 4 c.cf ++ le 4 c.th ++ le 4 c.lpd ++ le 4 c.hin ++ le 4 c.hout ++ le 4 pl.cost ++ le 1 (bit pl.trunc))

/-- A PROBE packet at its first tick (R154). -/
def State.answerProbe (s : State) (key : Nat) : State :=
  match s.packet? key with
  | none => s
  | some p =>
    match s.goneInput p with
    | some off => (s.conclude key .refusedObject (refusalLocator 8 off false)).deliver key
    | none =>
      let pay := s.probeAnswer p
      (s.updateRecord key (fun q => { q with phase := .finished, admitFrame := some s.meridian.frame, status := .done, payload := pay })).deliver key

/-- One best-effort packet, or one that is admitted outside the budgets, at its tick. -/
def State.considerRest (s : State) (key : Nat) : State :=
  match s.packet? key with
  | none => s
  | some p =>
    if p.hdr.fProbe then s.answerProbe key
    else if p.takenOver ∧ p.contracted then ((s.countFrame 1 0 0).traceAdmit p 0).admitPacket key
    else if p.demoted then s.admitPacket key
    else (s.traceAdmit p 3).admitPacket key

/-- A packet that may be admitted at the latest tick (R32, R34). -/
def State.mayAdmit (s : State) (p : Packet) : Bool :=
  p.phase == .received && !p.sub && (p.takenOver || decide (p.receiptNs * 1000000 < s.meridian.tickFs)) && decide (p.notBefore ≤ s.meridian.frame)

/-- A sub-packet that is due, admitted against this shard's own entry, or outside the budgets (R468). -/
def State.admitSub (s : State) (b : SubPacket) : State :=
  let key := s.packets.nextKey
  let prim := s.objects.named b.hdr.primary
  let sec := s.objects.named b.hdr.secondary
  let asked := b.hdr.fContracted
  let p : Packet :=
    { key := key, tenant := b.tenant, hdr := b.hdr, param := b.param, receiptNs := s.now, boot := s.meridian.bootCount
      contracted := asked, sub := true, charges := chargesOf b.hdr b.param prim sec none, annexBytes := annexBytes b.hdr }
  let s := { s with packets := { s.packets with nextKey := key + 1, live := tset s.packets.live key p }
                    const := { s.const with subs := s.const.subs.map (fun (x : SubPacket) =>
                      if x.member = b.member ∧ x.tag = b.tag then { x with packet := some key } else x) } }
  let s := s.countAnnex
  if !asked then s.admitPacket key
  else match (if b.resent then none else s.roomFor p p.charges) with
    | some (i, r) => ((s.deduct i r p.charges).modPacket key (fun q => { q with clusters := r.entry.mask })).admitPacket key
    | none =>
      let s := if b.resent then s else s.raise 0x0704 p.tenant (le 8 p.hdr.packetId ++ [BitVec.ofNat 8 p.hdr.cls])
      (s.modPacket key (fun q => { q with clusters := 0xFFF })).admitPacket key

/-- A normal shutdown waits for the packet: its function's own, or the PF's of the whole module (R141, R550). -/
def State.shutsDown (s : State) (p : Packet) : Bool := s.startup.shutdowns.any (fun n => n == 0 || n == p.fn)

/-- Admission at the latest tick: contracted packets, then the rest, each in receipt order; then sub-packets. Before contracted
admission opens, contracted packets wait, but those of a shutdown are demoted (R35, R80, R468, R541, R550 edges). -/
def State.admissions (s : State) : State :=
  let s := if s.meridian.admitOpen then (s.packetsBy (fun p => s.mayAdmit p && p.contracted && !p.takenOver)).foldl State.considerContracted s
    else (s.packetsBy (fun p => s.mayAdmit p && p.contracted && !p.takenOver && s.shutsDown p)).foldl State.demote s
  let s := (s.packetsBy (fun p => s.mayAdmit p && (!p.contracted || p.takenOver))).foldl State.considerRest s
  (s.const.subs.filter (fun b => b.packet.isNone && decide (b.frame + 1 ≤ s.constFrame))).foldl State.admitSub s

/-! ### Placement (R42 to R46, R52 to R54, R83 to R87, R196, R250, R328) -/

/-- Pre-empt a best-effort job for contracted placement: its cores, its pool reservation and its lodes are free (R53, R328). -/
def State.preemptFor (s : State) (key : Nat) : State :=
  match s.packet? key with
  | none => s
  | some p =>
    if p.phase ≠ .running then s
    else
      let s := s.preempt key
      let s := { s with cage := { s.cage with reserved := terase s.cage.reserved key } }
      let s := s.recount (p.plan.elim [] (·.lodes))
      s.trace 4 p.tenant p.hdr.packetId (le 2 p.cores.length ++ le 2 0 ++ le 4 p.cost)

/-- Pre-empt whatever holds the cores of a list. -/
def State.clearCores (s : State) (ns : List Nat) : State :=
  (dedupNat (ns.filterMap (fun n => (s.core n).packet))).foldl State.preemptFor s

/-- Shaft cores for contracted work: of the lowest cluster of the mask with enough idle cores, else of the lowest where enough are
idle or held by best-effort jobs, else the most that one cluster gives (R53, R85). -/
def State.shaftFor (s : State) (mask image want : Nat) : Option (List Nat) :=
  let pick := fun (ok : Nat → Bool) => (clustersOf mask).findSome? (fun c =>
    let l := (clusterCores c).filter ok
    if want ≤ l.length then some (l.take want) else none)
  let most := (clustersOf mask).foldl (fun (m : List Nat) c =>
    let l := (clusterCores c).filter (s.takeableFor image)
    if m.length < l.length then l else m) []
  ((pick (s.idleFor image)).orElse (fun _ => pick (s.takeableFor image))).orElse (fun _ => if most.isEmpty then none else some most)

/-- The shaft cores, lowest first. -/
def shaftCores : List Nat := (List.range 192).map (64 + ·)

/-- Idle unbound cores of the lowest cluster that has `k` of them (R250). -/
def State.unboundGroup (s : State) (k : Nat) : Option (List Nat) :=
  (List.range 12).findSome? (fun c =>
    let l := (clusterCores c).filter (s.idleFor 0)
    if k ≤ l.length then some (l.take k) else none)

/-- The image is bound to no core at all (R87). -/
def State.unbound (s : State) (image : Nat) : Bool := !s.cores.any (fun x => x.2.bound == image)

/-- What placement gives a job: its cores, and those of them into which its image is streamed first. -/
structure Placed where
  cores : List Nat
  stream : List Nat := []

/-- The cores that a plan gets at this tick; none where the job waits. A plan that does not fit, and a Headframe operation, take
none (R45, R85 to R87, R250). -/
def State.coresFor (s : State) (p : Packet) (pl : Plan) : Option Placed :=
  let mask := if p.contracted ∧ p.replays = 0 ∧ !p.takenOver then p.clusters else 0xFFF
  let strong := p.contracted || p.takenOver
  if !pl.fits ∨ headframeOp p.hdr.opcode then some { cores := [] }
  else match p.hdr.opcode with
    | 0x0301 =>
      let ok := fun d : Nat => if strong then s.takeableFor 0 d else s.idleFor 0 d && !s.orrery.withheld.contains d
      let l := pl.driftCores.filter ok
      if l.isEmpty ∧ !pl.driftCores.isEmpty then none else some { cores := l }
    | 0x0601 =>
      let bound := shaftCores.filter (fun n => bitAt mask ((n - 64) / 16) && (if strong then s.takeableFor pl.image n else s.idleFor pl.image n))
      let idle := bound.filter (s.idleFor pl.image)
      if pl.shaft ≤ idle.length then some { cores := idle.take pl.shaft }
      else if pl.shaft ≤ bound.length then some { cores := bound.take pl.shaft }
      else if s.unbound pl.image then
        let l := (shaftCores.filter (s.idleFor 0)).take pl.shaft
        if l.length = pl.shaft then some { cores := l, stream := l } else none
      else none
    | _ =>
      if pl.image ≠ 0 then
        let k := pl.shaft
        match (s.groupFor mask pl.image k (s.idleFor pl.image)).orElse (fun _ =>
            if strong then s.groupFor mask pl.image k (s.takeableFor pl.image) else none) with
        | some g => some { cores := g }
        | none => if strong ∧ p.replays = 0 ∧ !p.takenOver then none
          else (s.unboundGroup k).map (fun g => { cores := g, stream := g })
      else if pl.shaft = 0 then some { cores := [] }
      else if strong then (s.shaftFor mask 0 pl.shaft).map (fun l => { cores := l })
      else
        let l := (shaftCores.filter (s.idleFor 0)).take pl.shaft
        if l.isEmpty then none else some { cores := l }

/-- The pool lodes that a job reserves: the lodes its plan stages that are not in Tier H, and its payload staging (R328). -/
def State.poolNeed (s : State) (p : Packet) (pl : Plan) : Nat :=
  (pl.lodes.filter (fun w => (s.cage.find w).isNone)).length + (if pl.fits then ceilDiv (64 + p.hdr.answerLen) 65536 else 0)

/-- The best-effort jobs that run, youngest first. -/
def State.runningBest (s : State) : List Nat :=
  (s.byAdmission (s.packetsBy (fun p => p.phase == .running && p.preemptible))).reverse

/-- Room in the pool for a job, with eviction and, for contracted work, pre-emption (R328): the lodes it reserves; none where a
best-effort job does not fit. -/
def State.reservePool (s : State) (strong : Bool) (k : Nat) : State × Option Nat :=
  let s := s.poolRoom k s.poolFuel
  let left := fun (s : State) => s.cage.poolLodes - s.cage.poolTaken
  if k ≤ left s then (s, some k)
  else if !strong then (s, none)
  else
    let s := s.runningBest.foldl (fun s b => if k ≤ left s then s else s.preemptFor b) s
    (s, some (min k (left s)))

/-- The bits of the clusters whose cores a job holds. -/
def clusterBits (cores : List Nat) : Nat := sumNat ((List.range 12).map (fun c => if cores.any (fun n => decide (64 + 16 * c ≤ n ∧ n < 80 + 16 * c)) then 2 ^ c else 0))

/-- The lodes whose page-in a placed plan asks for; a PIN that its quota cannot hold reads nothing (R165, R333). -/
def State.planWants (s : State) (p : Packet) (pl : Plan) : List Nat :=
  if p.hdr.opcode = 0x0702 ∧ !(p.prim.elim true (fun o => s.pinFits p.tenant (pl.items.map (o.base + ·)))) then [] else pl.lodes

/-- Give cores to a job. -/
def State.giveCores (s : State) (key : Nat) (held ns : List Nat) (total : Nat) : State :=
  ns.zipIdx.foldl (fun s (x : Nat × Nat) =>
    s.setCore x.1 { (s.core x.1).idle with packet := some key, index := held.length + x.2, cores := total, since := s.now, exited := true }) s

/-- A job starts: its cores, its lodes, its cost and its estimate (R42 to R46, R86). -/
def State.startJob (s : State) (key : Nat) (pl : Plan) (g : Placed) (pool : Nat) : State :=
  match s.packet? key with
  | none => s
  | some p =>
    let s := g.stream.foldl (fun s n => s.stream n pl.image) s
    let s := s.giveCores key [] g.cores g.cores.length
    let s := { s with cage := { s.cage with reserved := if pool = 0 then s.cage.reserved else tset s.cage.reserved key pool } }
    let s := { s with cage := (s.planWants p pl).foldl Cage.want s.cage }
    let s := s.updateRecord key (fun q => { q with phase := .running, placeNs := s.now, plan := some pl, cores := g.cores, cost := pl.cost
                                                   energy := pl.energy, evaluated := q.progress })
    let s := s.recount pl.lodes
    let y := s.tally
    let s := { s with tally := if p.contracted then { y with cfContract := y.cfContract + pl.cost } else { y with cfBest := y.cfBest + pl.cost } }
    s.trace 1 p.tenant p.hdr.packetId (le 2 (g.cores.foldl min (g.cores.headD 0)) ++ le 2 g.cores.length ++ [BitVec.ofNat 8 p.replays, 0] ++
      le 2 (clusterBits g.cores))

/-- The drifts that hold a copy of an index's seams (R178, R196). -/
def IndexBody.copyDrifts (b : IndexBody) (num : Nat) : List Nat :=
  dedupNat ((List.range b.nlist).flatMap (fun j => seamDrift num j false :: (if b.replicas = 0 then [] else [seamDrift num j true])))

/-- A contracted search withholds the drifts of its index from best-effort placement in this frame, and takes the drift cores of
its plan from the jobs that hold them (R53, R196). -/
def State.withhold (s : State) (p : Packet) (pl : Plan) : State :=
  match p.prim, p.prim.bind Object.index? with
  | some o, some b =>
    if p.hdr.opcode ≠ 0x0101 ∧ p.hdr.opcode ≠ 0x0102 then s
    else
      let s := { s with orrery := { s.orrery with withheld := dedupNat (s.orrery.withheld ++ b.copyDrifts (objNumber o.handle)) } }
      s.clearCores (pl.drifts.filter (fun d => ((s.core d).packet.bind s.packet?).elim false Packet.preemptible))
  | _, _ => s

/-- A running SIFT takes the planned drift cores that it does not hold yet (R86). -/
def State.topUp (s : State) (p : Packet) : State :=
  let want := (p.plan.elim [] (·.driftCores)).filter (fun d => !p.cores.contains d)
  let strong := p.contracted || p.takenOver
  let got := want.filter (fun d => if strong then s.takeableFor 0 d else s.idleFor 0 d && !s.orrery.withheld.contains d)
  if got.isEmpty then s
  else ((s.clearCores got).giveCores p.key p.cores got (p.cores.length + got.length)).updateRecord p.key (fun q => { q with cores := q.cores ++ got })

/-- Place one job, if its cores and its pool lodes are there (R83 to R87, R328). A constellation packet is scattered (R467). -/
def State.place (s : State) (key : Nat) : State :=
  match s.packet? key with
  | none => s
  | some p =>
    if p.hdr.fConstellation ∧ !p.sub then s.scatter key
    else if p.phase = .running then s.topUp p
    else
      let pl := p.plan.getD (s.planFor p)
      let strong := p.contracted || p.takenOver
      match s.coresFor p pl with
      | none => s
      | some g =>
        let s := if strong then s.clearCores g.cores else s
        match s.reservePool strong (s.poolNeed p pl) with
        | (s, none) => s
        | (s, some k) =>
          let s := if p.contracted then s.withhold p pl else s
          s.startJob key pl g k

/-- A job that placement considers: it waits for cores, or is a SIFT that lacks some. -/
def Packet.waits (p : Packet) : Bool :=
  p.phase == .admitted || (p.phase == .replaying && p.fault.isNone) ||
  (p.phase == .running && p.hdr.opcode == 0x0301 && p.plan.elim false (fun pl => pl.fits && decide (p.cores.length < pl.driftCores.length)))

/-- The Place phase: contracted jobs, then replays and restarts outside the budgets, then best-effort jobs, each oldest first
(R54, R83, R412, R456). A job that is pre-empted at this tick restarts at a later one; none restarts while new firmware is being activated (R521). -/
def State.placements (s : State) : State :=
  let runs := s.packetsBy (fun p => p.phase == .running)
  let first := s.byAdmission (s.packetsBy (fun p => p.waits && p.contracted && p.replays == 0 && !p.takenOver))
  let again := s.byAdmission (s.packetsBy (fun p => p.waits && ((p.contracted && p.replays != 0) || p.takenOver)))
  let rest := if s.activation.pp then [] else s.byAdmission (s.packetsBy (fun p => p.waits && p.preemptible))
  (first ++ again ++ rest).foldl (fun s k =>
    if runs.contains k ∧ !(s.packet? k).elim false (fun p => p.phase == .running) then s else s.place k) s

end Sys2Proof.Machine
end

