-- ==== Sys2Proof/Machine/Flash.lean ====
section
/-!
DEFINITION. The firmware flash in register mode and in array mode, its ownership, and firmware images: download, commit
and activation (spec/18_units_resets_and_updates.md, R519 to R532; spec/22_management_and_security.md, R603).
-/
namespace Sys2Proof.Machine

/-! ### Banks (R519, R526, R530) -/

/-- The bank of a slot (Table Unit 7). -/
def slotBank (slot : Nat) : Nat := slot - 1

/-- The staging bank: the one that does not hold the running slot (R519). -/
def Flash.staging (f : Flash) : Nat := 1 - slotBank f.runningSlot

/-- The staging slot. -/
def Flash.stagingSlot (f : Flash) : Nat := f.staging + 1

/-- A bank. -/
def Flash.bank (f : Flash) (b : Nat) : Bank := tgetD f.banks b {}

/-- Change a bank. -/
def Flash.modBank (f : Flash) (b : Nat) (g : Bank → Bank) : Flash := { f with banks := tset f.banks b (g (f.bank b)) }

/-- A byte of a bank: it is held as its complement. -/
def Bank.byte (b : Bank) (a : Nat) : Byte := ~~~(cget b.bytes a)

/-- Program bytes: each bit holds the AND of its previous value and the value written (R526). -/
def Bank.program (b : Bank) (a : Nat) : List Byte → Bank
  | [] => b
  | d :: ds => ({ b with bytes := cset b.bytes a (~~~(b.byte a &&& d)) }).program (a + 1) ds

/-- Bytes in a sector of the flash (R526). -/
def flashSectorBytes : Nat := 65536

/-- Erase the sector that holds an address: every byte reads 0xFF (R526). -/
def Bank.erase (b : Bank) (a : Nat) : Bank :=
  let k := a / flashSectorBytes
  { b with bytes := b.bytes.filter (fun p => p.1 / flashSectorBytes != k)
           loose := b.loose.filter (fun o => o.addr / flashSectorBytes != k) }

/-- First offset of the boot area and the log area (Table Unit 7). -/
def areaBase : Nat := 0x1800000


/-- The operation covers an address (R530). -/
def FlashOp.covers (o : FlashOp) (a : Nat) : Bool :=
  if o.op = 2 then a / flashSectorBytes == o.addr / flashSectorBytes else decide (o.addr ≤ a ∧ a < o.addr + o.data.length)

/-- What a byte under a suspended or abandoned operation reads: any value R530 allows. -/
def FlashOp.looseByte (o : FlashOp) (a n : Nat) (old : Byte) : Byte :=
  if o.op = 2 then (if Config.freeChoice n then old else 0xFF)
  else
    let target := old &&& o.data.getD (a - o.addr) 0xFF
    let f := Config.freeBits 8 n
    (old &&& f) ||| (target &&& ~~~f)

/-- A byte of a bank as a read returns it; each loose byte takes a free value (R530). -/
def State.flashByte (s : State) (bank a : Nat) : Byte × State :=
  let b := s.flash.bank bank
  let lying := b.loose ++ (match s.flash.susp with | some o => if o.bank = bank then [o] else [] | none => [])
  match lying.find? (fun o => o.covers a) with
  | some o => (o.looseByte a s.free (b.byte a), { s with free := s.free + 1 })
  | none => (b.byte a, s)

/-- FWF_STATUS (Table Unit 9). -/
def Flash.status (f : Flash) : Nat :=
  bit f.busy.isSome + 2 * bit f.susp.isSome + 4 * ((f.busy.map (·.op)).getD ((f.susp.map (·.op)).getD 0)) +
  16 * bit f.errKey + 32 * bit f.errOwn + 64 * bit f.errSeq + 256 * bit f.hostOwns + 512 * f.staging + 2 ^ 31 * bit f.wrq

/-! ### Commands of the block (R524 to R530) -/

/-- Set an error bit of FWF_STATUS. -/
def Flash.keyError (f : Flash) : Flash := { f with errKey := true }

/-- See `Flash.keyError`. -/
def Flash.ownError (f : Flash) : Flash := { f with errOwn := true }

/-- See `Flash.keyError`. -/
def Flash.seqError (f : Flash) : Flash := { f with errSeq := true }

/-- An access to the block: by the host only while it owns the flash, by firmware only while the host does not (R524). -/
def Flash.access (f : Flash) (host : Bool) (k : Flash → Flash) : Flash :=
  if host = f.hostOwns then k f else if host then f.ownError else f

/-- A write other than to FWF_KEY and FWF_CMD cancels an arming or breaks its sequence (R525). -/
def Flash.disarm (f : Flash) : Flash := if f.arm = 0 then f else { f.keyError with arm := 0 }

/-- A write to FWF_KEY (R525). -/
def Flash.key (f : Flash) (v : Nat) : Flash :=
  if f.arm = 1 ∧ v = 0xC3A5 then { f with arm := 2 }
  else
    let f := if f.arm = 0 ∧ v = 0x5A3C then f else f.keyError
    { f with arm := if v = 0x5A3C then 1 else 0 }

/-- Start an operation, if the present state permits it (R526 to R528). -/
def Flash.start (f : Flash) (host : Bool) (erase : Bool) (addr : Nat) (data : List Byte) : Flash :=
  if f.busy.isSome then f.seqError
  else
    match f.susp with
    | none =>
      if areaBase ≤ addr ∧ host then f.ownError
      else
        { f with busy := some { op := if erase then 2 else 1, bank := f.staging, addr := addr, data := data }
                 suspCnt := 0 }
    | some o =>
      if erase ∨ o.op ≠ 2 ∨ addr / flashSectorBytes = o.addr / flashSectorBytes then f.seqError
      else if areaBase ≤ addr ∧ host then f.ownError
      else { f with busy := some { op := 3, bank := f.staging, addr := addr, data := data } }

/-- SUSPEND: a running program or erase, never a program made during an erase suspend (R528). -/
def Flash.suspend (f : Flash) : Flash :=
  match f.busy with
  | some o =>
    if o.op = 3 then f.seqError
    else { f with busy := none, susp := some o, suspCnt := satAdd 32 f.suspCnt 1 }
  | none => f.seqError

/-- RESUME (R529). -/
def Flash.resume (f : Flash) : Flash :=
  match f.busy, f.susp with
  | none, some o => { f with busy := some o, susp := none }
  | _, _ => f.seqError

/-- The program buffer (Table Unit 9): held as complements, so that an unlisted byte is 0xFF. -/
def Flash.buffer (f : Flash) : List Byte := (cgetBytes f.buf 0 256).map (fun b => ~~~b)

/-- A write to FWF_CMD: it uses up the arming, and abandons a partly written array sequence (R525 to R527). -/
def Flash.cmd (f : Flash) (host : Bool) (v : Nat) : Flash :=
  let armed := f.arm = 2
  let f := if f.arm = 1 then f.keyError else f
  let f := { f with arm := 0, cycles := [] }
  match v with
  | 1 =>
    if !armed then f.keyError
    else if f.addr % 256 ≠ 0 then f.seqError
    else f.start host false f.addr f.buffer
  | 2 => if !armed then f.keyError else f.start host true f.addr []
  | 3 => f.suspend
  | 4 => f.resume
  | _ => f.seqError

/-- A command cycle of array mode: a write of `v` to offset `off` of the bank window; the host's cycles to the boot area or the log area
are ignored (R522, R527). -/
def Flash.cycle (f : Flash) (host : Bool) (off v : Nat) : Flash :=
  let f := f.disarm
  let b := v % 256
  let base := flashSectorBytes * f.win
  let next := fun (c : Nat) => { f with cycles := f.cycles ++ [c] }
  let idle := { f with cycles := [] }
  if host ∧ areaBase ≤ base then f.ownError
  else match f.cycles with
  | [] =>
    if b = 0xB0 then f.suspend
    else if b = 0x30 ∧ f.susp.isSome then f.resume
    else if b = 0xF0 then f
    else if b = 0xAA ∧ off = 0x0AAA then next 0xAA
    else f.seqError
  | [0xAA, 0x55, 0xA0] => if off % 4 ≠ 0 then idle.seqError else idle.start host false (base + off) (le 4 v)
  | cs =>
    if b = 0xF0 then idle
    else if (cs = [0xAA] ∨ cs = [0xAA, 0x55, 0x80, 0xAA]) ∧ b = 0x55 ∧ off = 0x0555 then next 0x55
    else if cs = [0xAA, 0x55] ∧ (b = 0xA0 ∨ b = 0x80) ∧ off = 0x0AAA then next b
    else if cs = [0xAA, 0x55, 0x80] ∧ b = 0xAA ∧ off = 0x0AAA then next 0xAA
    else if cs = [0xAA, 0x55, 0x80, 0xAA, 0x55] ∧ b = 0x30 then idle.start host true base []
    else idle.seqError

/-- Apply a change to the block at powered time `t`. -/
def State.flashAt (s : State) (t : Nat) (host : Bool) (k : Flash → Flash) : State :=
  let s := s.at t
  if host ∧ !s.powered 4 then s.offWrite else { s with flash := s.flash.access host k }

/-- FWF_KEY: a write by the host driver or by firmware (R525). -/
def execFwfKey (t : Nat) (host : Bool) (v : BitVec 16) (s : State) : Result :=
  .next (s.flashAt t host (fun f => f.key v.toNat))

/-- FWF_PROGRAM: FWF_CMD written 0x01 (R526). -/
def execFwfProgram (t : Nat) (host : Bool) (s : State) : Result := .next (s.flashAt t host (fun f => f.cmd host 1))

/-- FWF_SECTOR_ERASE: FWF_CMD written 0x02 (R526). -/
def execFwfSectorErase (t : Nat) (host : Bool) (s : State) : Result := .next (s.flashAt t host (fun f => f.cmd host 2))

/-- FWF_SUSPEND: FWF_CMD written 0x03 (R528). -/
def execFwfSuspend (t : Nat) (host : Bool) (s : State) : Result := .next (s.flashAt t host (fun f => f.cmd host 3))

/-- FWF_RESUME: FWF_CMD written 0x04 (R529). -/
def execFwfResume (t : Nat) (host : Bool) (s : State) : Result := .next (s.flashAt t host (fun f => f.cmd host 4))

/-- ARRAY_PROGRAM: the four cycles of Table Unit 10, the last the data at the target offset. -/
def execArrayProgram (t : Nat) (host : Bool) (off : Nat) (data : BitVec 32) (s : State) : Result :=
  .next (s.flashAt t host (fun f => (((f.cycle host 0x0AAA 0xAA).cycle host 0x0555 0x55).cycle host 0x0AAA 0xA0).cycle
    host (off % flashSectorBytes) data.toNat))

/-- ARRAY_ERASE: the six cycles of Table Unit 10, the last at any offset. -/
def execArrayErase (t : Nat) (host : Bool) (off : Nat) (s : State) : Result :=
  .next (s.flashAt t host (fun f =>
    (((((f.cycle host 0x0AAA 0xAA).cycle host 0x0555 0x55).cycle host 0x0AAA 0x80).cycle host 0x0AAA 0xAA).cycle
      host 0x0555 0x55).cycle host (off % flashSectorBytes) 0x30))

/-- ARRAY_SUSPEND: a 0xB0 cycle (R527, R528). -/
def execArraySuspend (t : Nat) (host : Bool) (off : Nat) (s : State) : Result :=
  .next (s.flashAt t host (fun f => f.cycle host (off % flashSectorBytes) 0xB0))

/-- ARRAY_RESUME: a 0x30 cycle while SUSP is 1 (R527, R529). -/
def execArrayResume (t : Nat) (host : Bool) (off : Nat) (s : State) : Result :=
  .next (s.flashAt t host (fun f => f.cycle host (off % flashSectorBytes) 0x30))

/-- ARRAY_ABANDON: a 0xF0 cycle ends a partly written sequence, and never stops an operation (R527). -/
def execArrayAbandon (t : Nat) (host : Bool) (off : Nat) (s : State) : Result :=
  .next (s.flashAt t host (fun f => f.cycle host (off % flashSectorBytes) 0xF0))

/-- FLASH_OPERATION_END: BUSY falls, with no pass or fail; an image area that was changed holds no committed image
(R526, R531). -/
def execFlashOperationEnd (t : Nat) (s : State) : Result :=
  let s := s.at t
  match s.flash.busy with
  | none => .next s
  | some o =>
    let f := s.flash.modBank o.bank (fun b =>
      let b := if o.op = 2 then b.erase o.addr else b.program o.addr o.data
      { b with image := if o.addr < areaBase then none else b.image })
    .next { s with flash := { f with busy := none } }

/-! ### Ownership (R510, R529, R532) -/

/-- FLASH_OWNER (R532). -/
def State.ownerEvent (s : State) (cause : Nat) : State :=
  s.raiseM 0x0909 [BitVec.ofNat 8 (bit s.flash.hostOwns), BitVec.ofNat 8 cause]

/-- A Firmware Image Download or Commit is outstanding: a Commit that activates without a reset has not completed. -/
def Activation.outstanding (a : Activation) : Bool := 1 ≤ a.step && a.step ≤ 4

/-- FLASH_OWN; `erased` says that firmware has erased and read back the old bank's areas (R510, R522 step 4). -/
def execFlashOwn (q : Sqe) (erased : Bool) (s : State) : Result :=
  .next (s.pfCommand q (fun s =>
    let s := if erased then { s with flash := { s.flash with oldAreas := false } } else s
    if s.flash.hostOwns ∨ s.activation.outstanding ∨ s.flash.oldAreas then s.complete q .commandSequence
    else (({ s with flash := { s.flash with hostOwns := true } } : State).ownerEvent 0).complete q .success
      (s.unitDw0 (dwField q.d11 0 16))))

/-- FLASH_RELEASE (R510, R529). -/
def execFlashRelease (q : Sqe) (s : State) : Result :=
  .next (s.pfCommand q (fun s =>
    if !s.flash.hostOwns ∨ s.flash.busy.isSome ∨ s.flash.susp.isSome then s.complete q .commandSequence
    else (({ s with flash := { s.flash with hostOwns := false } } : State).ownerEvent 1).complete q .success
      (s.unitDw0 (dwField q.d11 0 16))))

/-- FLASH_OWNER_RESET: after a reset of the PF, firmware resumes a suspended operation, lets it end, marks the staging
slot empty and raises FLASH_OWNER (R532). -/
def execFlashOwnerReset (t : Nat) (s : State) : Result :=
  let s := s.at t
  if !s.flash.resetAsked then .next s
  else
    let f := s.flash
    let f := { f with resetAsked := false, hostOwns := false, arm := 0, cycles := []
                      busy := if f.busy.isSome then f.busy else f.susp
                      susp := if f.busy.isSome then f.susp else none }
    let f := f.modBank f.staging (fun b => { b with image := none })
    .next (({ s with flash := f } : State).ownerEvent 2)

/-! ### Images (R520, R603) -/

/-- The lowest permitted security version: Almanac record 4 (Table Start 2, R603). -/
def Almanac.svn (a : Almanac) : Nat := leAt (a.record 4) 0 4

/-- An image verifies: its signature, and its SVN against record 4 (R520, R603). -/
def State.imageOk (s : State) (i : ImageInfo) : Bool := i.verifies && decide (s.almanac.svn ≤ i.svn)

/-- Commands on images: Command Sequence Error while the host owns the flash, or a PLDM update runs (R520, R594), or
another Commit is outstanding. -/
def State.imageCommand (s : State) (q : Sqe) (k : State → State) : State :=
  s.pfCommand q (fun s =>
    if s.flash.hostOwns ∨ s.manage.updating ∨ s.activation.outstanding then s.complete q .commandSequence else k s)

/-- FIRMWARE_IMAGE_DOWNLOAD: CDW10 dwords (0's based) at dword offset CDW11 of the staging slot; `readBack` is the
comparison of what was programmed (R520). -/
def execFirmwareImageDownload (q : Sqe) (readBack : Bool) (s : State) : Result :=
  .next (s.imageCommand q (fun s =>
    let f := s.flash
    let d := q.data.take (4 * (q.d10.toNat + 1))
    if areaBase < 4 * q.d11.toNat + d.length then s.complete q .invalidField
    else
      let f := f.modBank f.staging (fun b =>
        { b with image := none, bytes := csetBytes b.bytes (4 * q.d11.toNat) (d.map (fun x => ~~~x)) })
      let s := { s with flash := f }
      if readBack then s.complete q .success else s.complete q .imageDownload))

/-- The slot a Commit names; 0 leaves the choice, and the staging slot is taken. -/
def State.commitSlot (s : State) (q : Sqe) : Nat :=
  let n := dwField q.d10 0 3
  if n = 0 then s.flash.stagingSlot else n

/-- Replace the staging slot by the downloaded image, which verification judged as `i` (R520). -/
def State.commitReplace (s : State) (q : Sqe) (i : ImageInfo) (k : State → State) : State :=
  s.imageCommand q (fun s =>
    let slot := s.commitSlot q
    if slot ≠ s.flash.stagingSlot then s.complete q .invalidSlot
    else if !s.imageOk i then s.complete q .invalidImage
    else k { s with flash := s.flash.modBank (slotBank slot) (fun b => { b with image := some i }) })

/-- The boot record of the running bank names a slot (R520, R522). -/
def State.nameSlot (s : State) (slot : Nat) : State :=
  { s with flash := s.flash.modBank s.flash.runningBank (fun b => { b with bootSlot := slot }) }

/-- FIRMWARE_COMMIT_REPLACE: action 000b, with what verification found (R520). -/
def execFirmwareCommitReplace (q : Sqe) (i : ImageInfo) (s : State) : Result :=
  .next (s.commitReplace q i (fun s => s.complete q .success))

/-- FIRMWARE_COMMIT_REPLACE_ACTIVATE_RESET: action 001b (R520). -/
def execFirmwareCommitReplaceActivateReset (q : Sqe) (i : ImageInfo) (s : State) : Result :=
  .next (s.commitReplace q i (fun s => (s.nameSlot (s.commitSlot q)).complete q .success))

/-- FIRMWARE_COMMIT_ACTIVATE_RESET: action 010b verifies the image that the slot holds, written by the host or by an
earlier command (R520, R531). -/
def execFirmwareCommitActivateReset (q : Sqe) (i : ImageInfo) (s : State) : Result :=
  .next (s.imageCommand q (fun s =>
    let slot := s.commitSlot q
    if 2 < slot then s.complete q .invalidSlot
    else if !s.imageOk i then s.complete q .invalidImage
    else
      let s := { s with flash := s.flash.modBank (slotBank slot) (fun b => { b with image := some i }) }
      (s.nameSlot slot).complete q .success))

/-- FIRMWARE_COMMIT_ACTIVATE_NOW: action 011b, step 1 of Table Unit 8. Its completion comes with step 5 (R521). -/
def execFirmwareCommitActivateNow (q : Sqe) (i : ImageInfo) (s : State) : Result :=
  .next (s.commitReplace q i (fun s =>
    { s with activation := { s.activation with step := 1, fn := q.fn, sqid := q.sqid, cid := q.cid
                                               slot := s.flash.stagingSlot, since := s.meridian.frame } }))

/-! ### Activation without a reset (Table Unit 8, R521 to R523) -/

/-- 2 s, in ns. -/
def twoSeconds : Nat := 2000000000

/-- ACTIVATION_ADMISSION_CLOSE: the tick after the Commit (step 2). -/
def execActivationAdmissionClose (t : Nat) (s : State) : Result :=
  let s := s.at t
  if s.activation.step = 1 ∧ s.activation.since < s.meridian.frame then
    .next { s with activation := { s.activation with step := 2, t2 := s.now } }
  else .next s

/-- A contracted packet is outstanding (Table Unit 8, step 3). -/
def State.contractedOut (s : State) : Bool :=
  s.packets.live.any (fun p => p.2.contracted && p.2.admitFrame.isSome && (p.2.phase != .answered || p.2.cqeHeld))

/-- The Notice event that a firmware activation starts: type 2, information 1, log page 03h (step 3). -/
def State.activationNotice (s : State) : State :=
  (s.link.controllers.map (·.1)).foldl (fun s fn =>
    match (s.ctrl fn).aers with
    | (sq, cid) :: rest => (s.setCtrl fn { s.ctrl fn with aers := rest }).completeOn fn sq cid .success 0x00030102 0
    | [] => s) s

/-- ACTIVATION_START: steps 3 and 4 at the first tick at which no contracted packet is outstanding, within 2 s of step 2.
The stewards write back, their epochs rise and they take the new image; the areas move to the new bank, unsealed; idle
cores take the new kernel stores (R521, R522). -/
def execActivationStart (t : Nat) (s : State) : Result :=
  let s := s.at t
  let a := s.activation
  if a.step ≠ 2 ∨ s.contractedOut ∨ a.t2 + twoSeconds < s.now then .next s
  else
    let s := s.activationNotice
    let s := { s with activation := { a with step := 4, t3 := s.now, pp := true }
                      link := { s.link with controllers := tmapv s.link.controllers (fun _ c => { c with stopped := true }) } }
    let s := (s.packets.live.map (·.1)).foldl (fun s k =>
      match s.packet? k with
      | some p => if p.bestEffort then s.preempt k else s
      | none => s) s
    let s := s.persistLog.persistTally
    let s := (List.range 16).foldl (fun s i =>
      let u := 332 + i
      if (s.unit u).state = .active then
        let s := s.stewardFlush i
        let e := (s.unit u).epoch
        (s.modUnit u (fun x => { x with epoch := (x.epoch + 1) % 2 ^ 48 })).beginReset u e 2
      else s) s
    let new := slotBank a.slot
    let old := s.flash.bank s.flash.runningBank
    .next { s with
      flash := s.flash.modBank new (fun b => { b with bytes := b.bytes.filter (fun p => decide (p.1 < areaBase))
                                                      sealed := false, bootSlot := a.slot, areaSeq := old.areaSeq + 1 })
      cores := tmapv s.cores (fun n c => if c.packet.isNone ∧ s.powered (unitDomain n) then { c with kernelStore := true } else c) }

/-- Record 4 is raised to the image's SVN after a completed activation of a RAISE image; `bad` is the read-back that
failed (R603, R548). -/
def State.raiseSvn (s : State) (i : ImageInfo) (bad : Option Nat) : State :=
  if i.raise ∧ s.almanac.svn < i.svn then
    if s.almanac.exhausted 4 then s.exhaustedEvent 4
    else
      let s := s.burn 4 (padTo 64 (le 4 i.svn)) bad
      if bad.isNone then s.raiseM 0x0B03 (le 4 i.svn) else s
  else s

/-- The image a slot holds. -/
def Flash.image (f : Flash) (slot : Nat) : ImageInfo := (f.bank (slotBank slot)).image.getD {}

/-- FW_ACTIVATED: step 5, within 2 s of step 3. The seal makes the new bank the running bank; the new firmware adopts
the module's state, resumes fetching and completes the Commit (R521, R522, R598, R603). -/
def execFwActivated (t : Nat) (bad : Option Nat) (s : State) : Result :=
  let s := s.at t
  let a := s.activation
  if a.step ≠ 4 ∨ a.t3 + twoSeconds < s.now then .next s
  else
    let new := slotBank a.slot
    let i := s.flash.image a.slot
    let svn := (s.flash.image s.flash.runningSlot).svn
    let f := s.flash.modBank new (fun b => { b with sealed := true })
    let s := { s with flash := { f with runningSlot := a.slot, runningBank := new, oldAreas := true }
                      activation := { a with step := 5, pp := false, since := s.meridian.frame }
                      link := { s.link with controllers := tmapv s.link.controllers (fun _ c => { c with stopped := false }) } }
    let s := (List.range 16).foldl (fun s i =>
      if (s.unit (332 + i)).state = .resetting ∧ (s.unit (332 + i)).resetCause = 2 then s.endReset (332 + i) else s) s
    let s := s.raiseM 0x0907 ([BitVec.ofNat 8 a.slot] ++ le 4 i.version)
    let s := s.measurementChanged 2
    let s := if svn = i.svn then s else s.measurementChanged 3
    let s := s.raiseSvn i bad
    .next (s.completeOn a.fn a.sqid a.cid .success 0 0)

/-- ACTIVATION_ADMISSION_REOPEN: step 6, the tick after step 5, or after a time-out of step 3 (R521, R523). -/
def execActivationAdmissionReopen (t : Nat) (s : State) : Result :=
  let s := s.at t
  if s.activation.step = 5 ∧ s.activation.since < s.meridian.frame then
    .next { s with activation := { s.activation with step := 0 } }
  else .next s

/-- ACTIVATION_TIMEOUT: step 3 was not reached within 2 s of step 2. The Commit fails and nothing is activated; admission
reopens at the next tick (R523). -/
def execActivationTimeout (t : Nat) (s : State) : Result :=
  let s := s.at t
  let a := s.activation
  if a.step = 2 ∧ a.t2 + twoSeconds < s.now then
    let s := { s with activation := { a with step := 5, since := s.meridian.frame } }
    .next (s.completeOn a.fn a.sqid a.cid .maxTimeViolation 0 0)
  else .next s

/-- FW_ACTIVATE_FAILED: the new firmware did not reach step 5 within 2 s of step 3. The watchdog in D0 starts a cold
module reset from the previous slot, whose boot record is unchanged; the event follows that reset (R523). Firmware does
not run, so the reset is handled as a power loss, whose flush ends as `f` says. -/
def execFwActivateFailed (t : Nat) (f : FlushEnd) (s : State) : Result :=
  let s := s.at t
  let a := s.activation
  if a.step = 4 ∧ a.t3 + twoSeconds < s.now then
    .next (({ s with activation := { a with failed := some (a.slot, a.step) } } : State).lossReset f)
  else .next s

end Sys2Proof.Machine
end

