-- ==== Sys2Proof/Machine/Startup.lean ====
section
/-!
DEFINITION. Start-up from power or from a cold module reset, the supply, and the sidebands of the sled
(spec/19_power_up_and_the_almanac.md, R533 to R542; spec/23_the_sled.md, R616 to R619, R626, R631, R632).
-/
namespace Sys2Proof.Machine

/-! ### Stages -/

/-- A stage has ended. -/
def State.done (s : State) (g : Stage) : Bool := s.startup.ended.contains g

/-- End a stage. -/
def State.endStage (s : State) (g : Stage) : State :=
  if s.done g then s else { s with startup := { s.startup with ended := s.startup.ended ++ [g] } }

/-- A stage's work, at powered time `t`: it has not ended, and its predecessor has (R533). -/
def State.stage (s : State) (t : Nat) (g : Stage) (after : List Stage) (k : State → State) : State :=
  let s := s.at t
  if s.power.off ∨ s.global.mfault ∨ s.done g ∨ !after.all s.done then s else k s

/-- START_UP: stage 1. D0 and D1 are powered, powered time starts at zero, the Almanac is read and PAIR_DETECT rises
(R110, R440, R533, Table Sled 7). -/
def execStartUp (s : State) : Result :=
  .next (s.stage 0 .d0 [] (fun s =>
    let s := { s with now := 0, power := { s.power with domains := 0x003 }, pair := { s.pair with detectOut := true } }
    s.readAlmanac.endStage .d0))

/-- The bank whose boot area is valid with the higher area sequence (R522); with no valid area, the first. -/
def Flash.sealedBank (f : Flash) : Nat :=
  let a := f.bank 0
  let b := f.bank 1
  if b.sealed ∧ (!a.sealed ∨ a.areaSeq < b.areaSeq) then 1 else 0

/-- BOOT: stage 2, with what the verification of slots 1 and 2 finds. When neither verifies, the stages after it do not
run and the PF shows CSTS.CFS (R535). -/
def execBoot (t : Nat) (slot1 slot2 : ImageInfo) (s : State) : Result :=
  .next (s.stage t .boot [.d0] (fun s =>
    let f := s.flash
    let f := (f.modBank 0 (fun b => { b with image := some slot1 })).modBank 1 (fun b => { b with image := some slot2 })
    let run := f.sealedBank
    let named := if (f.bank run).bootSlot = 2 then 2 else 1
    let image := fun n => if n = 2 then slot2 else slot1
    let s := { s with flash := { f with runningBank := run } }
    if s.imageOk (image named) then ({ s with flash := { s.flash with runningSlot := named } } : State).endStage .boot
    else if s.imageOk (image (3 - named)) then
      let s := { s with flash := { s.flash with runningSlot := 3 - named }
                        startup := { s.startup with fallback := some (3 - named) } }
      (s.nameSlot (3 - named)).endStage .boot
    else (({ s with startup := { s.startup with noSlot := true } } : State).setCtrl 0 { s.ctrl 0 with cfs := true })))

/-- BOOT_COUNT_WRITE: stage 3. Frame 0 follows at the next tick, on INT, at the saved period and under the saved table
(R27, R60, R533). -/
def execBootCountWrite (t : Nat) (s : State) : Result :=
  .next (s.stage t .count [.boot] (fun s =>
    let n := min (s.saved.bootCount + 1) (2 ^ 32 - 1)
    let table : OrreryTable := match s.saved.orrery with
      | some o => if o.period = s.saved.period then o else { period := s.saved.period }
      | none => { period := s.saved.period }
    let s := { s with saved := { s.saved with bootCount := n }
                      meridian := { s.meridian with bootCount := n, period := s.saved.period }
                      orrery := { s.orrery with active := table, start := 0 } }
    s.endStage .count))

/-- The areas move to the bank of the running slot (R522 steps 1 to 3). -/
def State.moveAreas (s : State) : State :=
  let f := s.flash
  let new := slotBank f.runningSlot
  if new = f.runningBank then s
  else
    let old := f.bank f.runningBank
    let f := f.modBank new (fun b => { b with sealed := true, areaSeq := old.areaSeq + 1, bootSlot := f.runningSlot })
    { s with flash := { f with runningBank := new, oldAreas := true } }

/-- STEWARDS_START: stage 4. D2 to D4 and D7 to D11 are powered, the stewards start, the areas follow the running slot,
and what happened before the log ran is raised: a fallback, a failed activation, a raised security version (R522, R523,
R533, R535, R603). `tests` says that the ring and the flash log area pass their tests (R424). -/
def execStewardsStart (t : Nat) (tests : Bool) (bad : Option Nat) (s : State) : Result :=
  .next (s.stage t .stewards [.count] (fun s =>
    let s := { s with power := { s.power with domains := s.power.domains ||| 0xF9C }
                      coherence := { s.coherence with stewards := (List.range 16).map (fun n => (n, { started := true })) } }
    let moved := slotBank s.flash.runningSlot != s.flash.runningBank
    let s := (if tests then s else s.lastGasp 1 true).moveAreas
    let s := match s.startup.fallback with
      | some n => s.raiseM 0x090A [BitVec.ofNat 8 n]
      | none => s
    let s := match s.activation.failed with
      | some (slot, step) =>
        ({ s with activation := { s.activation with failed := none } } : State).raiseM 0x0908
          [BitVec.ofNat 8 slot, BitVec.ofNat 8 step]
      | none => s
    let s := if moved then (s.measurementChanged 2).measurementChanged 3 else s
    let s := if moved then s.raiseSvn (s.flash.image s.flash.runningSlot) bad else s
    s.endStage .stewards))

/-- QUOTA_REDUCED (R537). -/
def State.quotaReduced (s : State) (n old new handle : Nat) : State :=
  s.raise 0x0407 n (le 4 old ++ le 4 new ++ le 8 handle)

/-- Restore the saved quotas; at the first power-up tenant 0 holds STP_QUOTABLE (R322, R537). -/
def State.restoreQuotas (s : State) : State :=
  let q := s.cage.quotable
  let saved := s.saved.quotas
  if saved.isEmpty then
    let s := s.save (fun v => { v with quotas := [(0, q)] })
    { s with cage := { s.cage with quotas := [(0, q)] } }
  else
    let sum := sumNat (saved.map (·.2))
    if sum ≤ q then { s with cage := { s.cage with quotas := saved } }
    else
      let new := saved.map (fun p => (p.1, p.2 * q / sum))
      let s := s.save (fun v => { v with quotas := new })
      let s := { s with cage := { s.cage with quotas := new } }
      saved.foldl (fun s p => if tgetD new p.1 0 < p.2 then s.quotaReduced p.1 p.2 (tgetD new p.1 0) 0 else s) s

/-- TIER_H_PREPARE: stage 5. The stacks train, or the module faults with cause 2; the saved level, pool and ring size
apply; the firmware region is written; cores fill their kernel stores; quotas are restored (R516, R533, R536, R537,
R558). -/
def execTierHPrepare (t : Nat) (trained : Bool) (s : State) : Result :=
  .next (s.stage t .tierH [.stewards] (fun s =>
    let s := { s with power := { s.power with domains := s.power.domains ||| 0x060 } }
    if !trained then s.moduleFault 2
    else
      let v := s.saved
      let bound := fun n => ((s.orrery.active.bindings.find? (fun b => b.core == n)).map (·.image)).getD 0
      let cage := { s.cage with prepared := true, h2 := v.heccLevel, h2Next := v.heccLevel, poolSize := v.poolSize,
                                poolNext := v.poolSize, tailings := v.trcSize }
      let s := { s with cage := cage
                        cores := (List.range 256).map (fun n =>
                          (n, { bound := bound n, kernelStore := true, ready := bound n == 0 }))
                        tailings := { s.tailings with base := firmwareLodes } }
      s.restoreQuotas.endStage .tierH))

/-! ### Mount (R384 to R386, R537) -/

/-- A namespace as mount finds it: class J as of the last checkpoint with the pages the tag scan found, in the order of
their SEQ; class A with the sectors that the flush lost, or with their older data when the delta log is missing. -/
def Namespace.mounted (n : Namespace) (recovered : List Nat) (lost : List (Nat × Option SectorState)) (delta : Bool) :
    Namespace :=
  let found := (n.volatile.zipIdx).filter (fun p => recovered.contains p.2 && p.1.sector.isSome)
  let b := found.foldl (fun m p => applySectors m p.1.lba [p.1.sector]) n.durable
  let b := if delta then lost.foldl (fun m p => tset m p.1 .lost) b
    else lost.reverse.foldl (fun m p => applySectors m p.1 [p.2]) b
  { n with blocks := b, durable := b, volatile := [] }

/-- HOLDUP_DATA_LOST, once for each namespace: the sectors lost, or all ones when the delta log is missing (R386). -/
def State.dataLost (s : State) (n : Namespace) (count : Nat) : State :=
  s.raise 0x0309 (n.fn.getD 0xFF) (le 4 n.nsid ++ le 4 (if s.media.deltaDurable then count else 0xFFFFFFFF))

/-- Charge the PINNED_H and HOT reservations of every tenant in ascending object number; one that does not fit becomes
PAGED, or stays uncharged where its components are fixed (R320, R537). -/
def State.chargeObjects (s : State) : State :=
  let all := s.objects.live
  let s := { s with objects := { s.objects with live := tmapv all (fun _ o =>
    { o with uncharged := decide (0 < o.fullReservation) }) } }
  all.foldl (fun s p =>
    let o := p.2
    let n := handleTenant o.handle
    let put := fun (x : Object) => { s with objects := { s.objects with live := tset s.objects.live p.1 x } }
    if o.fullReservation = 0 then s
    else if s.charge n + o.fullReservation ≤ s.quota n then put { o with uncharged := false }
    else
      let s := put (if o.isFixed then { o with uncharged := true } else { o with uncharged := false, cls := .paged })
      s.quotaReduced n (s.quota n) (s.quota n) o.handle) s

/-- MOUNT: stage 6b. `loaded` says that a checkpoint can be loaded, else the module faults with cause 2; `pages` were
scanned; `recovered` names, by NSID and place, the writes of class J that the tag scan found (R384 to R386, R393, R394, R537). The
first power-up draws the internal key (R600). -/
def execMount (t : Nat) (loaded : Bool) (pages : Nat) (recovered : List (Nat × Nat)) (s : State) : Result :=
  .next (s.stage t .mount [.tierH] (fun s =>
    if !loaded then s.moduleFault 2
    else
      let m := s.media
      let before := s.link.namespaces
      let lostOf : Nat → List (Nat × Option SectorState) :=
        fun nsid => (m.unflushed.filter (fun e => e.1 == nsid)).map (fun e => e.2)
      let foundIn : Nat → List Nat := fun nsid =>
        (recovered.filter (fun (r : Nat × Nat) => r.1 == nsid)).map (fun (r : Nat × Nat) => r.2)
      let s := { s with
        link := { s.link with namespaces := tmapv before (fun nsid n =>
          n.mounted (foundIn nsid) (lostOf nsid) m.deltaDurable) }
        media := { m with mounted := true, unflushed := [] }
        manage := if s.manage.internalKey = 0 then { s.manage with internalKey := s.manage.nextKey + 1, nextKey := s.manage.nextKey + 1 } else s.manage }
      let s := s.raiseM 0x0307 (le 8 pages ++ le 8 recovered.length ++ le 1 (bit m.flushComplete))
      let s := before.foldl (fun s p =>
        if (lostOf p.1).isEmpty then s else s.dataLost p.2 (dedupNat ((lostOf p.1).map (·.1))).length) s
      s.checkSpares.chargeObjects.endStage .mount))

/-! ### Ready (R534, R538, R542) -/

/-- STAGE_READY: stage 7 sets CSTS.RDY on every enabled controller; the PINNED_H objects are to be paged in; a module
with a pair identity is WAITING (R534, R538, R542). -/
def execStageReady (t : Nat) (s : State) : Result :=
  .next (s.stage t .ready [.holdup, .mount] (fun s =>
    let s := { s with link := { s.link with controllers := tmapv s.link.controllers (fun _ c => { c with ready := c.enabled }) }
                      startup := { s.startup with readyNs := s.now } }
    let s := (s.objects.live.map (·.2)).foldl (fun s o => if o.uncharged then s else s.wantPinned o) s
    let s := if s.pair.has then
        let s := s.setPair .waiting
        { s with pair := { s.pair with waitingSince := s.now } }
      else s
    s.endStage .ready))

/-- Every lode that placement keeps in Tier H is resident, and every bound core in a powered domain holds its image
(R538). -/
def State.residencyWhole (s : State) : Bool :=
  s.objects.live.all (fun p => p.2.uncharged || s.cage.allResident p.2.pinnedLodes) &&
  s.cores.all (fun p => p.2.bound == 0 || !s.powered (unitDomain p.1) || p.2.ready)

/-- RESIDENCY_COMPLETE: the end of stage 8 (R538). -/
def execResidencyComplete (t : Nat) (s : State) : Result :=
  .next (s.stage t .residency [.ready] (fun s => if s.residencyWhole then s.endStage .residency else s))

/-- CONFIG_REQUEST: Request Retry Status until stage 4 has ended (R533). -/
def execConfigRequest (t : Nat) (s : State) : Result :=
  let s := s.at t
  .next { s with link := { s.link with configRetried := some (!s.done .stewards) } }

/-! ### Supply and sidebands (R616 to R619, R631, R632) -/

/-- INPUT_POWER_GOOD: the input has held within range for `heldNs`, and PWRDIS has been low for `lowNs`: start-up begins
from stage 1, and D0 is powered on (R616, R619). -/
def execInputPowerGood (heldNs lowNs : Nat) (s : State) : Result :=
  if !s.power.off ∨ heldNs < 10000000 ∨ s.power.pwrdis ∨ lowNs < 10000000 then .next s
  else .next { s with power := { s.power with off := false }
                      saved := { s.saved with powerCycles := s.saved.powerCycles + 1 } }

/-- A loss of input power is declared: fetching stops, D1, D2, D5 to D8 and ports 6 to 9 lose power, and the host sees a
surprise link down (R140, R631). The drifts keep running for the flush. -/
def State.declareLoss (s : State) : State :=
  if s.power.off ∨ s.power.lossDeclared.isSome then s
  else
    let s := s.dropPackets
    let s := if s.startup.shutdownDone then s
      else { s with saved := { s.saved with unsafeShutdowns := s.saved.unsafeShutdowns + 1 } }
    let down := fun (n : Nat) (p : Port) => if n < 10 then { cagePower := p.cagePower, cageRefused := p.cageRefused } else p
    { s with power := { s.power with lossDeclared := some s.now, domains := s.power.domains &&& 0xE19 }
             link := { s.link with up := false, controllers := [] }
             cores := []
             fabric := { s.fabric with ports := tmapv s.fabric.ports down } }

/-- INPUT_POWER_LOSS (R631); while a flush runs it has no further effect. -/
def execInputPowerLoss (t : Nat) (s : State) : Result := .next (s.at t).declareLoss

/-- HOLDUP_FLUSH_END: the flush has ended, or 45 ms have passed since the declaration; every remaining domain loses power
(R631). -/
def execHoldupFlushEnd (t : Nat) (f : FlushEnd) (s : State) : Result :=
  let s := s.at t
  match s.power.lossDeclared with
  | none => .next s
  | some d =>
    if !f.complete ∧ s.now < d + 45000000 then .next s
    else
      let s := s.flushed f
      let clean := s.startup.shutdownDone || (f.complete && f.delta)
      .next (({ s with startup := { s.startup with clean := clean } } : State).restart false)

/-- PWRDIS: a level held for `heldNs`. High for 10 µs is a loss of input power (R619). -/
def execPwrdis (t heldNs : Nat) (high : Bool) (s : State) : Result :=
  let s := s.at t
  if high then
    if heldNs < 10000 then .next s
    else .next (({ s with power := { s.power with pwrdis := true } } : State).declareLoss)
  else .next { s with power := { s.power with pwrdis := false } }

/-- PERST# low for `lowNs`: a cold module reset handled as a power loss, whose flush ends as `f` says; ignored while the
flush of a declared loss runs (R518, R618, R622 edges). -/
def execPerst (t lowNs : Nat) (f : FlushEnd) (s : State) : Result :=
  let s := s.at t
  if lowNs < 1000 ∨ s.power.lossDeclared.isSome then .next s
  else
    let s := { s with power := { s.power with perst := true } }
    if s.power.off then .next s else .next (s.lossReset f)

/-- PERST_DEASSERT: the host link trains (R618). -/
def execPerstDeassert (t : Nat) (s : State) : Result :=
  let s := s.at t
  .next { s with power := { s.power with perst := false }, link := { s.link with training := !s.power.off } }

/-- LINK_RATE_CHANGE: the link has trained, or changed its width. At 64 GT/s with FLIT mode refused it trains at 32 GT/s.
The host-bytes budgets scale from the next tick (R117 edges). -/
def execLinkRateChange (t rateGt width : Nat) (flit : Bool) (s : State) : Result :=
  let s := s.at t
  if s.power.off ∨ s.power.perst ∨ ! [16, 32, 64].contains rateGt ∨ ! [1, 2, 4, 8, 16].contains width then .next s
  else
    let rate := if rateGt = 64 ∧ !flit then 32 else rateGt
    .next { s with link := { s.link with up := true, training := false, rateGt := rate, width := width, flit := flit } }

/-- MGMT_VIO_CHANGE: without MGMT_VIO the bus pins are high impedance and the endpoint does not answer (R617 edges). -/
def execMgmtVioChange (t : Nat) (present : Bool) (s : State) : Result :=
  let s := s.at t
  .next { s with power := { s.power with mgmtVio := present }, manage := { s.manage with hiZ := !present } }

/-- CAGE_ASSEMBLY_INSERTED with the declared power in 0.1 W: above 3.5 W it is held in low-power mode and its port stays
down (R626). In P3 and P4 the port stays down until wake (R627 edges). -/
def execCageAssemblyInserted (t p power : Nat) (s : State) : Result :=
  let s := s.at t
  if 12 ≤ p then .next s
  else
    let refused := decide (35 < power)
    let s := s.modPort p (fun x => { x with cagePower := some power, cageRefused := refused
                                            state := if refused ∨ 3 ≤ s.power.cur then .down else .training })
    .next (if refused then s.raiseM 0x0809 ([BitVec.ofNat 8 p] ++ le 2 power) else s)

end Sys2Proof.Machine
end

