-- ==== Sys2Proof/Machine/Bar2.lean ====
section
/-!
DEFINITION. What the registers of BAR2 and of the tenant windows read: the block directory, the fields of every block, the latching
pairs, and the values held for unpowered domains (spec/20_register_map.md, R554, R556, R561 to R569; spec/17, R480; and the register
tables of the other chapters).
-/
namespace Sys2Proof.Machine

/-! ### The block directory (Table Reg 1) -/

/-- The domains whose power a block's registers need, any one of them; none for an offset in no block (Table Reg 1, Table Power 1). -/
def blockDomains (off : Nat) : List Nat :=
  let b := off / 0x10000
  if b = 0 then [1]
  else if b = 1 ∨ b = 4 ∨ b = 0xB0 ∨ b = 0xC0 then [0]
  else if 0x10 ≤ b ∧ b < 0x14 then [if (off - 0x100000) / 0x1000 < 32 then 9 else 10]
  else if b = 0x20 then [if (off - 0x200000) / 0x1000 < 6 then 7 else 8]
  else if b = 0x30 ∨ b = 0x40 then [5, 6]
  else if 0x600100 ≤ off ∧ off < 0x600280 then [if (off - 0x600100) / 0x20 < 6 then 2 else 3]
  else [4]

/-- The block of an offset is powered (R480). -/
def State.blockPowered (s : State) (off : Nat) : Bool := (blockDomains off).any s.powered

/-- A dword of a list of bytes. -/
def dwordAt (d : List Byte) (i : Nat) : Nat := leAt d (4 * i) 4

/-! ### Fields of the blocks -/

/-- The average of the latest samples of the input power, over the samples there are: their sum, and how many (R476). -/
def Power.inputOver (p : Power) (n : Nat) : Nat × Nat := let l := p.inSamples.take n; (sumNat l, l.length)

/-- An average in 0.1 W, rounded down; 0 before the first sample. -/
def Power.inputAvg (p : Power) (n : Nat) : Nat := let a := p.inputOver n; if a.2 = 0 then 0 else a.1 / a.2

/-- Identity and global status (Table Reg 3). -/
def State.globalReg (s : State) (o : Nat) : Nat :=
  let g := s.global
  match o with
  | 0x00 => 0x01015C16
  | 0x04 => bit s.media.q246 + (g.stepping % 256) <<< 8
  | 0x08 => (s.flash.image s.flash.runningSlot).version
  | 0x0C => s.flash.runningSlot + (s.flash.bank s.flash.runningBank).bootSlot <<< 2
  | 0x10 => g.serial % 2 ^ 32
  | 0x14 => g.serial / 2 ^ 32 % 2 ^ 32
  | 0x18 => 64 + 12 <<< 8 + 64 <<< 16 + 16 <<< 24
  | 0x1C => unitCount
  | 0x20 => bit (s.done .ready) + 2 * bit g.mfault + g.cause <<< 2 + bit s.meridian.admitOpen <<< 4 + s.log.stage <<< 6 +
      s.power.cur <<< 8 + bit g.badacc <<< 29 + bit g.wrq <<< 31
  | 0x24 => g.wrqAddr
  | 0x28 => g.wrqCnt
  | 0x2C => g.scratch
  | 0x30 => g.badaccAddr
  | _ => 0

/-- The Meridian block (Table Frame 3). -/
def State.meridianReg (s : State) (o : Nat) : Nat :=
  let m := s.meridian
  match o with
  | 0x00 => m.period + m.pend.elim 0 (fun p => p.1 <<< 4 + 128)
  | 0x04 => half m.frame false
  | 0x08 => half m.frame true
  | 0x0C => m.bootCount
  | 0x10 => half (m.tickFs / 1000000) false
  | 0x14 => half (m.tickFs / 1000000) true
  | 0x18 => m.ackLate.toNat + bit m.admitOpen <<< 16 + bit m.wrq <<< 17
  | 0x1C => m.ackLateCnt
  | 0x20 => min m.backlog 0xFFFF + (min m.peak 0xFFFF) <<< 16
  | 0x24 => half (m.pend.elim 0 (·.2)) false
  | 0x28 => half (m.pend.elim 0 (·.2)) true
  | _ => 0

/-- The Orrery block (Table Orrery 7). -/
def State.orreryReg (s : State) (o : Nat) : Nat :=
  let r := s.orrery
  match o with
  | 0x00 => r.active.cycle + bit r.shadow.isSome <<< 7 + (r.shadow.elim 2 (·.period)) <<< 8 + s.frameIndex <<< 16 + bit r.wrq <<< 31
  | 0x04 => half r.start false
  | 0x08 => half r.start true
  | 0x0C => half r.active.crc false
  | 0x10 => half r.active.crc true
  | 0x14 => r.demotedCnt
  | 0x18 => r.refusedCnt
  | _ => 0

/-- The Lodestar block and the survey table (Tables Lodestar 6 and 7). -/
def State.lodestarReg (s : State) (o : Nat) : Nat :=
  let l := s.lodestar
  if 0x100 ≤ o then dwordAt (tgetD l.survey ((o - 0x100) / 32) {}).bytes ((o - 0x100) % 32 / 4)
  else match o with
  | 0x00 => l.sel.code + l.phase.code <<< 4 + (if l.phase = .joining then l.target.elim 0 Ref.code else 0) <<< 8 + bit l.firstCommit <<< 12 + bit l.holdDegr <<< 13 +
      bit l.cmdRej <<< 14 + bit l.wrq <<< 31
  | 0x04 => 5 + l.ptm.state.code <<< 4 + l.pin.state.code <<< 8 + l.fab.state.code <<< 12 + l.twin.state.code <<< 16
  | 0x08 => l.cfg.toNat
  | 0x10 => unsigned 32 l.intOffset
  | 0x14 => unsigned 32 l.ptm.offset
  | 0x18 => unsigned 32 l.pin.offset
  | 0x1C => unsigned 32 l.fab.offset
  | 0x20 => unsigned 32 l.twin.offset
  | 0x24 => unsigned 32 (fsToNs l.phaseErrFs)
  | 0x28 => half s.now false
  | 0x2C => half s.now true
  | 0x30 => l.switchCnt
  | _ => 0

/-- The power block (Table Power 5). -/
def State.powerReg (s : State) (o : Nat) : Nat :=
  let p := s.power
  if 0x104 ≤ o ∧ o ≤ 0x12C then unsigned 8 (tgetD p.sensors ((o - 0x100) / 4) {}).temp
  else match o with
  | 0x00 => p.cur + p.req <<< 4 + bit (p.req != p.cur) <<< 7 + bit p.forced <<< 8 + bit p.offwr <<< 30 + bit p.wrq <<< 31
  | 0x04 => p.domains.toNat
  | 0x08 => p.clkstop.toNat
  | 0x0C => p.stepped.toNat + p.thermal.toNat <<< 8 + bit p.power <<< 12
  | 0x10 => p.stepCNext + p.hystNext <<< 8
  | 0x14 => p.inputAvg 100 % 2 ^ 13
  | 0x18 => p.inputAvg 10000 % 2 ^ 13
  | 0x1C => p.xstall
  | 0x20 => p.wakeSrc
  | 0x24 => p.wakeUs
  | 0x28 => p.evqLost
  | _ => 0

/-- CORE_ACT of a core: idle, job, streaming an image, stalled (Table Reg 4). -/
def State.coreAct (s : State) (n : Nat) : Nat :=
  let c := s.core n
  if c.packet.isSome then (if c.stall.isSome then 3 else 1) else if s.now < c.streamingUntil then 2 else 0

/-- The tenant of the job that a core holds; 0 when idle. -/
def State.coreTenant (s : State) (n : Nat) : Nat := ((s.core n).packet.bind s.packet?).elim 0 (·.tenant)

/-- A drift block (Tables Flash 5 and Reg 4). -/
def State.driftReg (s : State) (n o : Nat) : Nat :=
  let d := s.media.drift n
  let b := tgetD s.blocks.drifts n {}
  match o with
  | 0x00 => d.suspCnt
  | 0x04 => d.limitCnt
  | 0x08 => d.retryCnt
  | 0x0C => d.ueCnt
  | 0x10 => (List.range 16).foldl (fun m i => min m (d.die i).erased) 255
  | 0x14 => (List.range 64).foldl (fun m i => min m (tgetD d.spares i 40)) 63
  | 0x20 => b.readRef + b.drive <<< 8 + b.odt <<< 12
  | 0x24 => (s.unit (256 + n)).state.code + s.coreAct n <<< 4 + s.coreTenant n <<< 8 + bit (s.coreStepped n) <<< 16 + bit b.wrq <<< 31
  | 0x28 => b.busy
  | 0x2C => b.xstall
  | 0x30 => b.seCe + b.seUe <<< 16
  | 0x34 => b.lodes
  | _ => 0

/-- The module-wide media block (Table Flash 5). -/
def State.mediaReg (s : State) (o : Nat) : Nat :=
  let m := s.media
  match o with
  | 0x00 => m.patrolNext + bit m.wrq <<< 31
  | 0x04 => bit m.wp + 2 * bit m.holdupDegr + (min m.healthPct 255) <<< 8 + m.avSpare <<< 16
  | 0x08 => m.ckptDone % 2 ^ 32
  | _ => 0

/-- A core's register in its cluster block (Table Reg 5). -/
def State.clusterCoreReg (s : State) (k j : Nat) : Nat :=
  let n := 64 + 16 * k + j
  s.coreAct n + s.coreTenant n <<< 8 + bit ((s.core n).bound != 0) <<< 16 + (min (s.core n).streams.length 32) <<< 17 +
    (tgetD (tgetD s.blocks.clusters k {}).faults j 0) <<< 24

/-- A shaft cluster block (Table Reg 5). -/
def State.clusterReg (s : State) (k o : Nat) : Nat :=
  let b := tgetD s.blocks.clusters k {}
  if 0x100 ≤ o ∧ o < 0x140 then s.clusterCoreReg k ((o - 0x100) / 4)
  else match o with
  | 0x00 => b.scrub
  | 0x04 => (s.unit (320 + k)).state.code + bit (s.powered (unitDomain (320 + k))) <<< 4 + bit (s.coreStepped (64 + 16 * k)) <<< 5 +
      (sumNat ((List.range 16).map (fun j => bit (s.core (64 + 16 * k + j)).packet.isSome <<< j))) <<< 8 + bit b.wrq <<< 31
  | 0x08 => b.busy
  | 0x0C => b.xstall
  | 0x10 => b.seCe + b.seUe <<< 16
  | _ => 0

/-- Tier H and ECC (Table Tiers 9). -/
def State.heccReg (s : State) (o : Nat) : Nat :=
  match o with
  | 0x00 => bit s.cage.h2Next
  | 0x04 => s.cage.ceCnt
  | 0x08 => s.cage.ueCnt
  | 0x0C => s.cage.retiredCnt
  | _ => 0

/-- The Cage and Stope block (Table Tiers 9). A quota reads as last accepted. -/
def State.cageReg (s : State) (o : Nat) : Nat :=
  let c := s.cage
  let inState := fun (st : LodeState) => (c.map.filter (fun x => x.2.state == st)).length
  if 0x100 ≤ o ∧ o < 0x200 then (tget? c.quotaPending ((o - 0x100) / 4)).elim (s.quota ((o - 0x100) / 4)) (·.1)
  else if 0x200 ≤ o ∧ o < 0x300 then s.charge ((o - 0x200) / 4)
  else match o with
  | 0x00 => bit c.qrej + bit c.wrq <<< 31
  | 0x04 => inState .scrubbed
  | 0x08 => inState .zeroed
  | 0x0C => c.quotable
  | 0x10 => c.poolNext
  | 0x14 => s.poolFree
  | 0x300 => c.missCnt
  | 0x304 => c.unplannedCnt
  | 0x308 => c.overdraftCnt
  | _ => 0

/-- The Catalogue block (Table Coherence 5). -/
def State.catalogueReg (s : State) (o : Nat) : Nat :=
  let c := s.coherence
  match o with
  | 0x00 => bit c.wrq <<< 31
  | 0x04 => c.snoopHit
  | 0x08 => c.writeback
  | 0x0C => c.ringSnoop
  | 0x10 => c.poisonWb
  | _ => 0

/-- FAB_STATE (Table Pair 9). -/
def LinkState.code : LinkState → Nat
  | .down => 0 | .training => 1 | .up => 2 | .lantern => 3

/-- CONST_STATUS.ROLE (Table Pair 9). -/
def Role.code : Role → Nat
  | .none => 0 | .foreman => 1 | .hewer => 2

/-- The pair, constellation and fabric block (Table Pair 9). -/
def State.pairReg (s : State) (o : Nat) : Nat :=
  if 0x100 ≤ o ∧ o < 0x280 then
    let p := s.port ((o - 0x100) / 0x20)
    match (o - 0x100) % 0x20 with
    | 0x00 => p.state.code
    | 0x04 => p.fecCorr
    | 0x08 => p.crcErr
    | 0x0C => p.retry
    | 0x10 => p.downCnt
    | _ => 0
  else match o with
  | 0x00 => s.pairStatus + bit s.pair.wrq <<< 31
  | 0x04 => s.pair.dirty.length
  | 0x08 => s.pair.toCopy.length
  | 0x0C => half (unsigned 64 s.pair.frameOff) false
  | 0x10 => half (unsigned 64 s.pair.frameOff) true
  | 0x20 => s.const.role.code + s.const.member <<< 8 + s.const.members.length <<< 16 + bit s.const.deputy <<< 23
  | _ => 0

/-- The Assay block: one set's registers, and the tap view (Table Reg 6). -/
def State.assayReg (s : State) (o : Nat) : Nat :=
  let a := s.assay
  if 0x10000 ≤ o then
    let t := a.tap ((o - 0x10000) / 0x400) ((o - 0x10000) % 0x400 / 4)
    t.cfg.mode + t.cfg.fmt <<< 2 + t.cfg.head <<< 4 + t.scale <<< 8 + t.cfg.thresh <<< 16
  else if 0x100 ≤ o ∧ o < 0x100 + 16 * 76 then
    let x := tgetD a.sets ((o - 0x100) / 16) {}
    match (o - 0x100) % 16 with
    | 0 => x.untapped
    | 4 => x.overflow
    | 8 => x.hold
    | _ => x.pairsLast
  else if o = 0 then bit (a.sets.any (fun x => x.2.overflowLast)) + bit a.wrq <<< 31
  else 0

/-- The counts of the module account, in the order of Table Reg 7. -/
def Tally.account (y : Tally) : List Nat := [y.replayCost, y.preemptCost, y.reservedCf, y.pitCf, y.modEnergy]

/-- The Tally block: control, the module account, the partitions (Tables Reg 7 and 8). -/
def State.tallyReg (s : State) (o : Nat) : Nat :=
  let y := s.tally
  if 0x4000 ≤ o then (y.part ((o - 0x4000) / 0x3000)).word ((o - 0x4000) % 0x3000)
  else if 0x1000 ≤ o ∧ o < 0x1028 then half (y.account.getD ((o - 0x1000) / 8) 0) (o % 8 == 4)
  else match o with
  | 0x00 => bit y.wrq <<< 31
  | 0x04 => half y.closed false
  | 0x08 => half y.closed true
  | _ => 0

/-- The Tailings block: what was written reads back; 64 bytes for each record since the last enable (Table Reg 9). -/
def State.tailingsReg (s : State) (o : Nat) : Nat :=
  let t := s.tailings
  match o with
  | 0x00 => t.sizeNext + bit t.cfgNext.enable <<< 20 + bit t.cfgNext.wrap <<< 21 + bit t.wrq <<< 31
  | 0x04 => half t.cfgNext.tenants.toNat false
  | 0x08 => half t.cfgNext.tenants.toNat true
  | 0x0C => t.cfgNext.kinds.toNat
  | 0x10 => t.cfgNext.evgroups.toNat
  | 0x14 => half (64 * t.seq) false
  | 0x18 => half (64 * t.seq) true
  | 0x1C => t.wrapCnt
  | 0x20 => t.dropCnt
  | 0x24 => t.base
  | _ => 0

/-- The registers of the firmware flash block; those that are write-only read as zero, and the bank window is read by
`State.windowRead` (Table Unit 9). -/
def State.flashReg (s : State) (o : Nat) : Nat :=
  let f := s.flash
  if 0x100 ≤ o ∧ o < 0x200 then leAt f.buffer (o - 0x100) 4
  else match o with
  | 0x08 => f.addr
  | 0x0C => f.status
  | 0x10 => f.suspCnt
  | 0x14 => f.win
  | _ => 0

/-- The Almanac view (Table Start 4). -/
def State.almanacReg (s : State) (o : Nat) : Nat :=
  let a := s.almanac
  if !a.read then 0
  else if o < 0x1000 then dwordAt (a.shown (o / 64)) (o % 64 / 4)
  else if o < 0x1100 then a.status ((o - 0x1000) / 4)
  else if o = 0x1100 then
    a.staged.elim 0 (fun b => 1 + 2 * bit b.firmware + b.record <<< 8) + bit a.wrq <<< 31
  else 0

/-- The first 16 bytes of a record, as a last-gasp register holds them (Table Fault 8). -/
def GaspReg.word (g : GaspReg) (w : Nat) : Nat := g.record.elim 0 (fun r => dwordAt r.encode w)

/-- The events block (Table Fault 9). -/
def State.eventReg (s : State) (o : Nat) : Nat :=
  let l := s.log
  if 0x100 ≤ o ∧ o < 0x200 then (tgetD l.gasp ((o - 0x100) / 16) {}).word (o % 16 / 4)
  else match o with
  | 0x00 => l.stage + bit l.wrq <<< 31
  | 0x04 => l.lgWidx
  | 0x08 => l.lgLost
  | _ => 0

/-- The register at a BAR2 offset, as its block holds it now; zero where there is none (R16, R554, R561). Of a latching pair, either half. -/
def State.regValue (s : State) (off : Nat) : Nat :=
  if off < 0x1000 then s.globalReg off
  else if off < 0x10000 then 0
  else if off < 0x11000 then s.meridianReg (off - 0x10000)
  else if off < 0x20000 then 0
  else if off < 0x21000 then s.orreryReg (off - 0x20000)
  else if off < 0x30000 then 0
  else if off < 0x30900 then s.lodestarReg (off - 0x30000)
  else if off < 0x40000 then 0
  else if off < 0x41000 then s.powerReg (off - 0x40000)
  else if off < 0x50000 then 0
  else if off < 0x51770 then s.unitWord ((off - 0x50000) / 16) (off % 16)
  else if off < 0x100000 then 0
  else if off < 0x140000 then s.driftReg ((off - 0x100000) / 0x1000) (off % 0x1000)
  else if off < 0x180000 then 0
  else if off < 0x181000 then s.mediaReg (off - 0x180000)
  else if off < 0x200000 then 0
  else if off < 0x20C000 then s.clusterReg ((off - 0x200000) / 0x1000) (off % 0x1000)
  else if off < 0x300000 then 0
  else if off < 0x301000 then s.heccReg (off - 0x300000)
  else if off < 0x400000 then 0
  else if off < 0x401000 then s.cageReg (off - 0x400000)
  else if off < 0x500000 then 0
  else if off < 0x501000 then s.catalogueReg (off - 0x500000)
  else if off < 0x600000 then 0
  else if off < 0x601000 then s.pairReg (off - 0x600000)
  else if off < 0x700000 then 0
  else if off < 0x720000 then s.assayReg (off - 0x700000)
  else if off < 0x800000 then 0
  else if off < 0x8C4000 then s.tallyReg (off - 0x800000)
  else if off < 0x900000 then 0
  else if off < 0x901000 then s.tailingsReg (off - 0x900000)
  else if off < 0xA00000 then 0
  else if off < 0xA10000 then s.flashReg (off - 0xA00000)
  else if off < 0xB00000 then 0
  else if off < 0xB02000 then s.almanacReg (off - 0xB00000)
  else if off < 0xC00000 then 0
  else if off < 0xC01000 then s.eventReg (off - 0xC00000)
  else 0

/-! ### Values held for unpowered domains (R480) -/

/-- The registers of a domain's blocks that can change after the domain has gone off: the drift, cluster and port blocks, Tier H with the
Cage and the Stope, and of D4 the unit table, Lodestar's, the Orrery's and the pair's status. What else lies in D4 does not change while
it is off. -/
def heldOffsets (d : Nat) : List Nat :=
  let dwords := fun (base n : Nat) => (List.range n).map (fun i => base + 4 * i)
  match d with
  | 2 => (List.range 6).flatMap (fun p => dwords (0x600100 + 0x20 * p) 5)
  | 3 => (List.range 6).flatMap (fun p => dwords (0x600100 + 0x20 * (6 + p)) 5)
  | 4 => dwords 0x20000 1 ++ dwords 0x30000 13 ++ dwords 0x50000 (4 * unitCount) ++ dwords 0x600000 9
  | 5 => dwords 0x300000 4 ++ dwords 0x400000 6 ++ dwords 0x400100 128 ++ dwords 0x400300 3
  | 7 => (List.range 6).flatMap (fun k => dwords (0x200000 + 0x1000 * k) 5 ++ dwords (0x200100 + 0x1000 * k) 16)
  | 8 => (List.range 6).flatMap (fun k => dwords (0x206000 + 0x1000 * k) 5 ++ dwords (0x206100 + 0x1000 * k) 16)
  | 9 => (List.range 32).flatMap (fun n => dwords (0x100000 + 0x1000 * n) 14)
  | 10 => (List.range 32).flatMap (fun n => dwords (0x120000 + 0x1000 * n) 14)
  | _ => []

/-- A domain goes off: its registers keep the values they have (R480). -/
def State.holdRegs (s : State) (d : Nat) : State :=
  { s with power := { s.power with held := (heldOffsets d).foldl (fun m o => tset m o (s.regValue o)) s.power.held } }

/-- The value that an access finds at an offset: the block's own, or the one held since its domain went off (R480). -/
def State.regNow (s : State) (off : Nat) : Nat :=
  if s.blockPowered off then s.regValue off else (tget? s.power.held off).getD (s.regValue off)

/-! ### Latching pairs (R62, R556) -/

/-- The LO registers of the module's latching pairs, but for those of the partitions. -/
def loRegs : List Nat :=
  [0x10, 0x10004, 0x10010, 0x10024, 0x20004, 0x2000C, 0x30028, 0x60000C, 0x800004, 0x801000, 0x801008, 0x801010, 0x801018, 0x801020, 0x900014]

/-- The LO half of a 64-bit count of a partition (Table Reg 8). -/
def partLo (o : Nat) : Bool := (decide (o < 0x240) && decide (o % 0x40 < 0x30) && o % 8 == 0) || o == 0x340

/-- A LO register of BAR2 or, on a VF's path, of its tenant window (R556, R567, R569). -/
def isLo (path off : Nat) : Bool :=
  if path = 0 ∨ path = 64 then loRegs.contains off || (decide (0x804000 ≤ off ∧ off < 0x8C4000) && partLo ((off - 0x804000) % 0x3000))
  else off == 0x08 || off == 0x10 || (decide (0x1000 ≤ off ∧ off < 0x4000) && partLo (off - 0x1000))

/-! ### The tenant window (R569) -/

/-- A register of the window of VF `n` (Table Reg 10). -/
def State.windowReg (s : State) (n off : Nat) : Nat :=
  if off % 4 ≠ 0 then 0
  else if 0x1000 ≤ off ∧ off < 0x4000 then (s.tally.part n).word (off - 0x1000)
  else match off with
  | 0x00 => n
  | 0x04 => s.meridian.bootCount
  | 0x08 => s.regNow 0x10004
  | 0x0C => s.regNow 0x10008
  | 0x10 => s.regNow 0x30028
  | 0x14 => s.regNow 0x3002C
  | 0x18 => bit s.meridian.admitOpen + s.meridian.period <<< 4 + s.power.cur <<< 8 + bit (s.power.stepped != 0) <<< 11
  | 0x1C => sumNat ((List.range 8).map (fun c => bit (tget? s.orrery.classes (n * 16 + c)).isSome <<< c))
  | _ => 0

end Sys2Proof.Machine
end

