-- ==== Sys2Proof/Machine/Power.lean ====
section
/-!
DEFINITION. Power: sensors, clock steps, the critical state, domains that go off and come on, and the power management feature
(spec/17_power_and_the_lantern.md, R476 to R483, R492 to R499).
-/
namespace Sys2Proof.Machine

/-! ### States and domains (Table Power 2) -/

/-- The domains that an operational state keeps powered. -/
def stateDomains : Nat → BitVec 12
  | 0 => 0xFFF
  | 1 => 0xEFF
  | _ => 0xE7F

/-- Both the data path and its domains are up: the module is not in P3 or P4, nor entering or leaving them. -/
def State.awake (s : State) : Bool := s.power.lantern == .none || s.power.lantern == .pending

/-- Domains of a set, lowest first. -/
def domainList (d : BitVec 12) : List Nat := (List.range 12).filter (fun n => d.getLsbD n)

/-- A set of one domain. -/
def oneDomain (n : Nat) : BitVec 12 := BitVec.ofNat 12 (2 ^ n)

/-- A core of a domain holds a job. -/
def State.domainBusy (s : State) (d : Nat) : Bool := s.cores.any (fun x => unitDomain x.1 == d && x.2.packet.isSome)

/-- POWER_STATE, and the new state in PWR_STATE.CUR (R482, R483, R501, R593). -/
def State.newPowerState (s : State) (k : Nat) : State :=
  (({ s with power := { s.power with cur := k } } : State).platformEvent 15 k).raiseM 0x0804 [BitVec.ofNat 8 k]

/-- The change of operational state is complete: no domain is left to go off, and every core is ready. -/
def State.settlePower (s : State) : State :=
  let p := s.power
  if s.awake ∧ p.domains = stateDomains p.target ∧ p.leaving = 0 ∧ p.arriving = 0 ∧ p.cur ≠ p.target then s.newPowerState p.target else s

/-! ### Sensors (R476, R495, R497, R593) -/

/-- Composite Temperature in °C: the highest over the powered domains that have been sampled (R476, R611). -/
def State.composite (s : State) : Option Int :=
  ((s.power.sensors.filter (fun x => s.powered x.1 && x.2.sampled)).map (fun x => x.2.temp)).foldl
    (fun (m : Option Int) c => some (m.elim c (max c))) none

/-- Add the time since the latest sample to the Warning and Critical Temperature Times (Table Mgmt 9). -/
def State.accrueTemp (s : State) : State :=
  let m := s.manage
  let at_ := fun (limit : Int) (n : Nat) => if s.composite.any (fun c => decide (limit ≤ c)) then n + (s.now - m.tempAt) else n
  { s with manage := { m with warnTempNs := at_ s.power.stepC m.warnTempNs, critTempNs := at_ 110 m.critTempNs, tempAt := s.now } }

/-- A sensor's reading crosses a PLDM threshold, upward or downward. -/
def State.crossTemp (s : State) (d : Nat) (was now_ : Sensor) : State :=
  if was.warn = now_.warn ∧ was.crit = now_.crit then s else s.platformEvent d now_.temp

/-- TEMPERATURE_SAMPLE: the sensor of D1 to D11 reads `temp` °C. The tenth sample in a row at or above STEP_C confirms the thermal
cause of D7 to D10, at or above 110 °C the critical state; 125 °C cuts the input power (R476, R495, R497). -/
def execTemperatureSample (t d : Nat) (temp : Int) (s : State) : Result :=
  let s := s.at t
  if d = 0 ∨ 11 < d ∨ !s.powered d ∨ s.power.off then .next s
  else
    let s := s.accrueTemp
    let p := s.power
    let x := tgetD p.sensors d {}
    let y : Sensor :=
      { temp := temp, sampled := true, stepRun := if (p.stepC : Int) ≤ temp then x.stepRun + 1 else 0
        critRun := if 110 ≤ temp then x.critRun + 1 else 0
        coolSince := if temp < (p.stepC : Int) - p.hyst then some (x.coolSince.getD s.now) else none
        warn := decide ((p.stepC : Int) ≤ temp), crit := decide (110 ≤ temp) }
    let b : BitVec 4 := if 7 ≤ d ∧ d ≤ 10 then BitVec.ofNat 4 (2 ^ (d - 7)) else 0
    let hot := decide (10 ≤ y.stepRun) && (p.thermal &&& b) == 0
    let p := { p with sensors := tset p.sensors d y, thermalNew := if hot then p.thermalNew ||| b else p.thermalNew
                      criticalNew := if 10 ≤ y.critRun ∧ !p.critical ∧ p.criticalNew.isNone then some (d, temp) else p.criticalNew }
    let s := ({ s with power := p } : State).crossTemp d x y
    .next (if 125 ≤ temp then s.declareLoss else s)

/-- The 100 ms average exceeds 470 W. -/
def Power.overPower (p : Power) : Bool := let a := p.inputOver 10000; decide (4700 * a.2 < a.1)

/-- The 1 s average is below 420 W. -/
def Power.underPower (p : Power) : Bool := let a := p.inputOver 100000; decide (a.1 < 4200 * a.2)

/-- INPUT_POWER_SAMPLE: a sample in 0.1 W, every 10 µs from stage 1 on (R476, R495). -/
def execInputPowerSample (t w : Nat) (s : State) : Result :=
  let s := s.at t
  if s.power.off ∨ !s.done .d0 then .next s
  else
    let p := s.power
    let q := { p with inSamples := (w :: p.inSamples).take 100000 }
    let q := { q with powerNew := q.powerNew || (!q.power && q.overPower) }
    let s := { s with power := q }
    let was := decide (4700 ≤ p.inputAvg 100)
    let now_ := decide (4700 ≤ q.inputAvg 100)
    .next (if was = now_ then s else s.platformEvent 12 (q.inputAvg 100 / 10))

/-! ### Steps (R495 to R499) -/

/-- Domains whose thermal cause ends: their sensor has read below STEP_C − HYST for 1 s. -/
def State.cooled (s : State) : BitVec 4 :=
  (List.range 4).foldl (fun (m : BitVec 4) i =>
    let x := tgetD s.power.sensors (7 + i) {}
    if s.power.thermal.getLsbD i && x.coolSince.elim false (fun c => decide (c + 1000000000 ≤ s.now)) then m ||| BitVec.ofNat 4 (2 ^ i) else m) 0

/-- Every sampled sensor of a powered domain has read below STEP_C − HYST for 10 s (R497). -/
def State.allCool (s : State) : Bool :=
  s.power.sensors.all (fun x => !s.powered x.1 || !x.2.sampled || x.2.coolSince.elim false (fun c => decide (c + 10000000000 ≤ s.now)))

/-- At a tick, the causes that were confirmed come to hold and those that have ended cease; the clocks follow (R495, R497). -/
def State.clockChanges (s : State) : State :=
  let p := s.power
  let back := p.critical && p.criticalNew.isNone && s.allCool
  let thermal := (p.thermal &&& ~~~s.cooled) ||| p.thermalNew
  let power := (p.power && !p.underPower) || p.powerNew
  let critical := (p.critical && !back) || p.criticalNew.isSome
  let stepped : BitVec 4 := thermal ||| (if power then 0xF else 0) ||| (if critical then 0xC else 0)
  let s := if stepped = p.stepped then s else s.accrueBusy (fun _ => true)
  { s with power := { p with thermal := thermal, power := power, critical := critical, stepped := stepped, forced := critical
                             smartBit1 := critical, thermalNew := 0, powerNew := false, criticalNew := none
                             sayThermal := p.sayThermal ||| p.thermalNew, sayPower := p.sayPower || p.powerNew
                             sayCritical := p.criticalNew.orElse (fun _ => p.sayCritical)
                             sayRestore := p.sayRestore ||| (p.stepped &&& ~~~stepped), sayReturn := p.sayReturn || back } }

/-- A 4-bit set of D7 to D10 as a byte. -/
def stepByte (b : BitVec 4) : Byte := BitVec.ofNat 8 b.toNat

/-- THERMAL_STEP, once for each cause that came to hold: thermal, then power (R495). -/
def State.saySteps (s : State) : State :=
  let p := s.power
  let ev := fun (s : State) (m : BitVec 4) (cause : Nat) => s.raiseM 0x0805 ([stepByte m, BitVec.ofNat 8 cause] ++ le 4 s.aPrime)
  let s := { s with power := { p with sayThermal := 0, sayPower := false } }
  let s := if p.sayThermal = 0 then s else ev s p.sayThermal 0
  if p.sayPower then ev s 0xF 1 else s

/-- THERMAL_CRITICAL: D9 and D10 step, P2 is forced, and the events follow (R497). -/
def State.sayCriticals (s : State) : State :=
  match s.power.sayCritical with
  | none => s
  | some (d, c) =>
    let s := { s with power := { s.power with sayCritical := none } }
    (s.raiseM 0x0805 ([stepByte 0xC, 2] ++ le 4 s.aPrime)).raiseM 0x0807 [BitVec.ofNat 8 d, BitVec.ofNat 8 (unsigned 8 c)]

/-- THERMAL_RESTORE, naming the domains released at the tick (R495). -/
def State.sayRestores (s : State) : State :=
  let m := s.power.sayRestore
  if m = 0 then s else ({ s with power := { s.power with sayRestore := 0 } } : State).raiseM 0x0806 ([stepByte m] ++ le 4 s.aPrime)

/-- The module has returned from the critical state: its requested state is its target again (R497). -/
def State.sayReturns (s : State) : State :=
  { s with power := { s.power with sayReturn := false } }

/-! ### Domains going off (R482, and the edges of R506) -/

/-- The domains that are to go off: powered, and not kept by the state the module is to be in. -/
def Power.leavers (p : Power) : BitVec 12 := p.domains &&& ~~~stateDomains p.target

/-- From the tick of a request: no placement on the domains that are to go off, and best-effort jobs there are pre-empted; a domain
that the new state keeps takes work again at once (R482, R486 edges). -/
def State.trim (s : State) : State :=
  let p := s.power
  let l := p.leavers
  let fresh := l &&& ~~~p.leaving
  let s := { s with power := { p with leaving := l, leaveFrame := if fresh = 0 then p.leaveFrame else s.meridian.frame } }
  let on := (s.cores.filter (fun x => l.getLsbD (unitDomain x.1))).map (·.1)
  let s := (dedupNat (on.filterMap (fun n => (s.core n).packet))).foldl (fun s k =>
    if (s.packet? k).elim false Packet.bestEffort then s.preemptFor k else s) s
  s.settlePower

/-- A unit of a domain that goes off: OFF, unless it is out of service; its epoch rises, and a HOLD or OUT OF SERVICE that held or
was granted is kept (R504, and the edges of R506). -/
def State.unitOff (s : State) (u : Nat) : State :=
  let e := s.unit u
  if e.state = .outOfService ∨ e.state = .off then s
  else
    let s := s.abandonProbe u
    let asks := fun (o : UnitOp) => e.drain == some o || e.asked.any (fun a => a.1 == o)
    let keep := if asks .outOfService then some UnitOp.outOfService
      else if e.state = .held ∨ asks .hold then some .hold else e.kept
    let s := s.modUnit u (fun e => { e with epoch := (e.epoch + 1) % 2 ^ 48, kept := keep, drain := none, resetDone := none, probePassed := false
                                            asked := [] })
    let s := (s.completeUnit u [.probe]).setUnitState u .off
    if u < 348 then s.unitCleared u else s

/-- The units of a domain; the Cage and the Stope run while D5 or D6 is powered (Table Unit 3). -/
def State.domainUnits (s : State) (d : Nat) : List Nat :=
  (List.range unitCount).filter (fun u => if u = 356 ∨ u = 357 then (d == 5 && !s.powered 6) || (d == 6 && !s.powered 5) else unitDomain u == d)

/-- A domain loses its power: its bit, its clock, its clock step and its sensor's part in steps. -/
def State.cutDomain (s : State) (d : Nat) : State :=
  let us := s.domainUnits d
  let s := (s.accrueTemp).holdRegs d
  let p := s.power
  let b := oneDomain d
  let step : BitVec 4 := if 7 ≤ d ∧ d ≤ 10 then BitVec.ofNat 4 (2 ^ (d - 7)) else 0
  let s := { s with power := { p with domains := p.domains &&& ~~~b, leaving := p.leaving &&& ~~~b, arriving := p.arriving &&& ~~~b
                                      clkstop := p.clkstop &&& ~~~b, thermal := p.thermal &&& ~~~step, thermalNew := p.thermalNew &&& ~~~step
                                      sensors := tmod p.sensors d {} (fun x => { temp := x.temp }) } }
  us.foldl State.unitOff s

/-- Domains that go off at the latest tick: they have left since an earlier one, and no job holds a core of theirs. -/
def State.offDue (s : State) : List Nat :=
  if s.power.leaveFrame < s.meridian.frame then (domainList s.power.leaving).filter (fun d => !s.domainBusy d) else []

/-- They go off; POWER_STATE when the last has (R482). -/
def State.domainsOff (s : State) : State := (s.offDue.foldl State.cutDomain s).settlePower

/-! ### Domains coming on (R483) -/

/-- A domain gets its power back. Its cores are to fill their kernel stores. -/
def State.powerDomain (s : State) (d : Nat) : State :=
  let p := s.power
  let b := oneDomain d
  { s with power := { p with domains := p.domains ||| b, arriving := if 7 ≤ d ∧ d ≤ 10 then p.arriving ||| b else p.arriving
                             held := p.held.filter (fun x => !(blockDomains x.1).contains d)
                             sensors := tmod p.sensors d {} (fun _ => {}) } }

/-- Domains that come on at the latest tick. -/
def State.onDue (s : State) : List Nat := domainList (stateDomains s.power.target &&& ~~~s.power.domains)

/-- They come on; the Orrery reserves the streaming of their bound cores (R78, R483). -/
def State.domainsOn (s : State) : State :=
  let ds := s.onDue
  let s := ds.foldl State.powerDomain s
  let bound := s.cores.filter (fun x => x.2.bound != 0 && ds.contains (unitDomain x.1))
  if bound.isEmpty then s
  else { s with orrery := { s.orrery with reserved := s.orrery.reserved ++ [(s.meridian.frame, streamFrames s.period, 16 * bound.length)] } }

/-- A core of a unit has no reset or power-on left to finish. -/
def State.unitReady (s : State) (u : Nat) : Bool := 256 ≤ u || (s.core u).ready

/-- At a tick: units of a powered domain that are OFF and can serve again take the state that R506's edges give them. -/
def State.unitsReturn (s : State) : State :=
  (List.range unitCount).foldl (fun s u =>
    if (s.unit u).state ≠ .off ∨ !s.powered (unitDomain u) then s
    else
      let k := (s.unit u).kept
      let clear := fun (s : State) => s.modUnit u (fun e => { e with kept := none })
      match k with
      | some .hold => (((clear s).setUnitState u .held).completeUnit u [.hold]).completeUnit u [.reset]
      | some .outOfService => (clear s).leaveService u 0
      | _ => if s.unitReady u then ((clear s).setUnitState u .active).completeUnit u [.reset, .ret] else s) s

/-- The kernel store of a core is filled. -/
def State.coreRefill (s : State) (n : Nat) : State := s.setCore n (s.core n).refilled

/-- Every core of an arriving domain is ready, or out of service: the domain has arrived (R483). -/
def State.arrived (s : State) : State :=
  let still := fun d : Nat => (List.range 256).any (fun n => unitDomain n == d && !(s.core n).ready && (s.unit n).state != .outOfService &&
    (s.unit n).state != .held)
  let left := (domainList s.power.arriving).filter still
  ({ s with power := { s.power with arriving := left.foldl (fun (m : BitVec 12) d => m ||| oneDomain d) 0 } } : State).settlePower

/-- CORE_READY: the kernel store of a core of an arriving domain is filled; or its bound image has been streamed (R77, R483). -/
def execCoreReady (t n : Nat) (s : State) : Result :=
  let s := s.at t
  let c := s.core n
  if 255 < n ∨ !s.power.arriving.getLsbD (unitDomain n) ∨ c.ready then .next s
  else if !c.kernelStore then .next (s.coreRefill n).arrived
  else if c.image = c.bound ∧ c.streamingUntil ≤ s.now then .next (s.setCore n { c with ready := true }).arrived
  else .next s

/-! ### What is due at a tick -/

/-- A cause that was confirmed, or has ended, changes the clocks at the latest tick, or its event is still to come. -/
def State.clockDue (s : State) : Bool :=
  let p := s.power
  p.thermalNew != 0 || p.powerNew || p.criticalNew.isSome || s.cooled != 0 || (p.power && p.underPower) || (p.critical && s.allCool) ||
    p.sayThermal != 0 || p.sayPower || p.sayCritical.isSome || p.sayRestore != 0 || p.sayReturn

/-- Placement on a domain stops or resumes at the latest tick, or a domain goes off or comes on. -/
def State.trimDue (s : State) : Bool := s.awake && s.power.leaving != s.power.leavers

/-- See `trimDue`. -/
def State.domainDue (s : State) : Bool := s.awake && (s.trimDue || !s.offDue.isEmpty || !s.onDue.isEmpty)

/-- Every change of power that the latest tick brings, in order. -/
def State.powerTick (s : State) : State :=
  let s := s.clockChanges
  let s := if s.awake then (if s.trimDue then s.trim else s).domainsOff.domainsOn else s
  s.sayReturns.sayCriticals.sayRestores.saySteps

/-! ### Clocks and crossings (R492, R493) -/

/-- CLOCK_STOP: a powered domain has held no work, no queued request and no transfer for `idleNs` (R492). -/
def execClockStop (t d idleNs : Nat) (s : State) : Result :=
  let s := s.at t
  if d = 0 ∨ 11 ≤ d ∨ !s.powered d ∨ idleNs < 64000 ∨ s.domainBusy d then .next s
  else .next { s with power := { s.power with clkstop := s.power.clkstop ||| oneDomain d } }

/-- A domain's clock runs again. -/
def State.startClock (s : State) (d : Nat) : State := { s with power := { s.power with clkstop := s.power.clkstop &&& ~~~oneDomain d } }

/-- CLOCK_WAKE: a request, tick request or access starts a stopped clock (R30, R492). -/
def execClockWake (t d : Nat) (s : State) : Result := .next ((s.at t).startClock d)

/-- CROSSING_STALL: a unit has stalled for `cycles` at a crossing (R493): they count in PWR_XSTALL_CNT, and for a core, or another
unit of a drift or a cluster, in that block's counters, as busy time too where no job's cycles count there already. -/
def execCrossingStall (t u cycles : Nat) (s : State) : Result :=
  let s := s.at t
  let s := { s with power := { s.power with xstall := satAdd 32 s.power.xstall cycles } }
  if u < 256 then .next (s.addCycles u (if (s.core u).packet.isSome then 0 else cycles) cycles)
  else if u < 320 then .next (s.addCycles (u - 256) cycles cycles)
  else if u < 332 then .next (s.addCycles (64 + 16 * (u - 320)) cycles cycles)
  else .next s

/-! ### Set Features 02h (R481, R482 to R486) -/

/-- A member of a formed constellation, or a twin that mirrors, may not enter the Lantern (R484). -/
def State.lanternBarred (s : State) : Bool :=
  s.pair.state == .paired || s.pair.state == .resync || (s.const.formed && s.const.role != .none)

/-- SET_FEATURES_POWER_MANAGEMENT (R481 to R486). -/
def execSetFeaturesPowerManagement (q : Sqe) (s : State) : Result :=
  .next (s.command q true (fun s =>
    let ps := dwField q.d11 0 5
    if saveBit q then s.complete q .featureNotSaveable
    else if q.fn ≠ 0 then s.complete q .featureNotChangeable
    else if 4 < ps then s.complete q .invalidField
    else if 3 ≤ ps ∧ s.lanternBarred then s.complete q .commandSequence
    else
      let p := s.power
      let before := if p.req ≤ 2 then p.req else p.before
      let p := if ps ≤ 2 then { p with req := ps, lantern := if p.lantern = .pending then .none else p.lantern }
        else { p with req := ps, before := before, lantern := .pending, lanternFrame := s.meridian.frame, lanternStep := 0 }
      (({ s with power := p } : State)).complete q .success))

/-- GET_FEATURES_POWER_MANAGEMENT: the state most recently requested (R481). -/
def execGetFeaturesPowerManagement (q : Sqe) (s : State) : Result :=
  .next (s.command q true (fun s =>
    match selectField q with
    | 0 => s.complete q .success s.power.req
    | 1 => s.complete q .success 0
    | 2 => s.complete q .success 0
    | 3 => s.complete q .success (capabilities false (q.fn == 0))
    | _ => s.complete q .invalidField))

end Sys2Proof.Machine
end

