-- ==== Sys2Proof/Machine/Sanitize.lean ====
section
/-!
DEFINITION. Sanitize: what may start it, its steps and what it leaves (spec/22_management_and_security.md, R604 to R607).
-/
namespace Sys2Proof.Machine

/-- A whole checkpoint, after the one in progress (R382). -/
def State.wholeCheckpoint (s : State) : State :=
  (if s.media.ckptRunning.isSome then s.finishCheckpoint else s).beginCheckpoint.finishCheckpoint

/-- Tier H outside the firmware region is gone, and with it all residency and the trace: off in P4, or scrubbed by a sanitize (R477, R484,
R605). The lodes that have been retired stay so (R343). -/
def State.tierHOff (s : State) : State :=
  let c := s.coherence
  let g := s.cage
  let kept := firmwareLodes * lodeBytes
  { s with
    cage := { g with map := g.map.filter (fun x => x.2.state == .retired), heads := [], nexts := [], tcache := [], clocks := [], reserved := [], retained := [], wanted := []
                     annexLodes := 0 }
    coherence := { c with tierH := c.tierH.filter (fun x => decide (x.1 < kept)), hWritten := c.hWritten.filter (fun l => decide (64 * l < kept))
                          hPoison := c.hPoison.filter (fun l => decide (64 * l < kept)) }
    tailings := { s.tailings with ring := [] }
    media := { s.media with pinnedViews := [] } }

/-! ### Start (R604, R605) -/

/-- The pair state and the constellation permit a sanitize (R604). -/
def State.sanitizable (s : State) : Bool :=
  s.pair.state != .paired && s.pair.state != .resync && s.pair.state != .conflict && !(s.const.formed && s.const.role != .none)

/-- A Sanitize with CDW10 `cdw10`: what it answers, and the operation begun: SANACT 010b block erase, 100b crypto erase. Exit Failure Mode
(001b) finds no failure to leave (R604, R605; notes/assumptions/20.md). -/
def State.startSanitize (s : State) (cdw10 : Nat) : State × NvmeStatus :=
  let act := cdw10 % 8
  if s.manage.sanitize.running then (s, .sanitizeInProgress)
  else if act = 1 then (s, .success)
  else if act ≠ 2 ∧ act ≠ 4 then (s, .invalidField)
  else if !s.sanitizable then (s, .commandSequence)
  else
    let z := s.manage.sanitize
    let s := s.save (fun v => { v with sanitize := some (1, act) })
    let s := { s with manage := { s.manage with sanitize := { z with running := true, active := true, step := 1, action := act, began := s.now
                                                                     frame := s.meridian.frame, driftsReset := false, cdw10 := cdw10 } } }
    (s.raiseM 0x0B01 [BitVec.ofNat 8 act], .success)

/-! ### Steps (Table Mgmt 6) -/

/-- Step 1: what waits of NVM commands completes, every outstanding packet is answered ABORTED, and buffered writes are discarded. -/
def State.sanitizeStop (s : State) : State :=
  let s := if s.media.flushes.isEmpty then s else s.wholeCheckpoint
  let s := (s.packetsBy (fun p => p.phase != .answered)).foldl (fun s k => ((s.cancelScatter k).conclude k .aborted 0).deliver k) s
  let m := s.media
  { s with media := { m with buffer := [], deltaLog := [], flushes := [] }
           link := { s.link with namespaces := tmapv s.link.namespaces (fun _ n => { n with blocks := n.durable, volatile := [] }) } }

/-- A number of fresh keys from the DRBG, from the one after `k` on. -/
def freshKeys (k : Nat) : List Nat → Tbl Nat
  | [] => []
  | n :: ns => (n, k + 1) :: freshKeys (k + 1) ns

/-- Step 3: the key slots and the key store are erased; new keys are drawn for the module's structures and for the namespaces that
remain (notes/assumptions/20.md). -/
def State.sanitizeKeys (s : State) : State :=
  let m := s.manage
  let ids := s.link.namespaces.map (·.1)
  { s with manage := { m with objKeys := [], internalKey := m.nextKey + 1, nsKeys := freshKeys (m.nextKey + 1) ids
                              nextKey := m.nextKey + 1 + ids.length } }

/-- The units of the drifts: their cores and their channels. -/
def driftUnits : List Nat := List.range 64 ++ (List.range 64).map (256 + ·)

/-- Drift units that are out of service are reset once, as a return from service resets them; the step ends when every one serves again
(R605 edges). -/
def State.sanitizeDrifts (s : State) : State × Bool :=
  let out := driftUnits.filter (fun u => (s.unit u).state == .outOfService)
  let away := driftUnits.any (fun u => (s.unit u).state == .outOfService || (s.unit u).state == .resetting)
  if !away then (s, true)
  else if s.manage.sanitize.driftsReset then (s, false)
  else
    let s := out.foldl (fun s u =>
      let e := s.unit u
      (s.modUnit u (fun e => { e with epoch := (e.epoch + 1) % 2 ^ 48 })).beginReset u e.epoch 0) s
    ({ s with manage := { s.manage with sanitize := { s.manage.sanitize with driftsReset := true } } }, false)

/-- A table whose images are all deleted. -/
def OrreryTable.unbound (o : OrreryTable) : OrreryTable := { o with bindings := o.bindings.map (fun b => { b with image := 0 }) }

/-- A block erase of a drift: every quad but those withdrawn. -/
def Drift.erasedAll (d : Drift) (now : Nat) : Drift :=
  { d with
    allErases := d.allErases + 1, waiting := false
    quads := tmapv d.quads (fun _ q => if q.withdrawn then { q with valid := 0, skipped := q.skipped + 1 }
      else { erases := q.erases, skipped := q.skipped, writtenNs := now })
    dies := tmapv d.dies (fun _ x => { x with erased := 1360, openQuads := [], nextQuads := [] }) }

/-- Step 4: every map entry is zero; objects and shift records are deleted; bindings to the deleted images become IMAGE 0; a block erase
erases the quads. -/
def State.sanitizeMaps (s : State) (action : Nat) : State :=
  let ns := tmapv s.link.namespaces (fun _ n => { n with blocks := [], durable := [], volatile := [], cut := n.cut + 1 })
  let drift := fun (d : Drift) => if action = 2 then d.erasedAll s.now
    else { d with quads := tmapv d.quads (fun _ q => { q with valid := 0 }) }
  let o := s.orrery
  let s := s.save (fun v => { v with orrery := v.orrery.map OrreryTable.unbound })
  { s with
    link := { s.link with namespaces := ns, compute := [] }
    objects := { s.objects with live := [], writing := [] }
    packets := { s.packets with live := [], twin := [], aborts := [] }
    media := { s.media with drifts := (List.range 64).map (fun c => (c, drift (s.media.drift c))), pinnedViews := [] }
    orrery := { o with active := o.active.unbound, shadow := o.shadow.map OrreryTable.unbound }
    cores := tmapv s.cores (fun _ c => { c.idle with bound := 0, ready := c.ready || c.kernelStore }) }

/-- Step 5: Tier H outside the firmware region and Tier S hold nothing (notes/assumptions/20.md). -/
def State.sanitizeTiers (s : State) : State :=
  let s := s.tierHOff
  let c := s.coherence
  let kept := firmwareLodes * lodeBytes
  { s with coherence := { c with lines := c.lines.filter (fun l => decide (64 * l.1 < kept)) }
           cores := tmapv s.cores (fun _ c => { c.idle with image := 0, streamingUntil := 0 }) }

/-- Step 6: a clean checkpoint; log page 81h tells of the completion, SANITIZE_DONE of the action and the time it took. A module with a
pair identity drops its bitmaps and change lists, and rejoins at the next link-up (R605, R607). -/
def State.sanitizeEnd (s : State) : State :=
  let s := s.wholeCheckpoint.save (fun v => { v with sanitize := none })
  let z := s.manage.sanitize
  let p := s.pair
  let s := { s with manage := { s.manage with sanitize := { z with running := false, active := false, step := 0, completed := true } }
                    pair := if p.has then { p with dirty := [], changed := [], deleted := [], sanitized := true } else p }
  s.raiseM 0x0B02 ([BitVec.ofNat 8 z.action] ++ le 4 ((s.now - z.began) / 1000000))

/-- The step that a sanitize has reached is over, and the next one is saved (R606). -/
def State.nextSanitizeStep (s : State) : State :=
  let z := s.manage.sanitize
  let s := s.save (fun v => { v with sanitize := some (z.step + 1, z.action) })
  { s with manage := { s.manage with sanitize := { s.manage.sanitize with step := z.step + 1 } } }

/-- A tick runs the step that a sanitize has reached (R605; notes/assumptions/20.md). -/
def State.sanitizeTick (s : State) : State :=
  let z := s.manage.sanitize
  if !z.running ∨ !z.active ∨ s.meridian.frame ≤ z.frame ∨ s.power.lossDeclared.isSome then s
  else match z.step with
    | 1 => s.sanitizeStop.nextSanitizeStep
    | 2 => (s.save (fun v => { v with kekGen := v.kekGen + 1 })).nextSanitizeStep
    | 3 =>
      let s := if z.driftsReset then s else s.sanitizeKeys
      let (s, ended) := s.sanitizeDrifts
      if ended then s.nextSanitizeStep else s
    | 4 => (s.sanitizeMaps z.action).nextSanitizeStep
    | 5 => s.sanitizeTiers.nextSanitizeStep
    | _ => s.sanitizeEnd

end Sys2Proof.Machine
end

