-- ==== Sys2Proof/Machine/Tick.lean ====
section
/-!
DEFINITION. The Meridian tick: the tick request and its acknowledgements, and the work of the Admit and Place phases in the order
that the spec gives it (spec/02_meridian_frame.md, R25 to R31, R41 to R54; spec/04, R106; spec/11, R308 to R312; spec/15, R406;
spec/19, R539 to R541; spec/21, R570 to R573; spec/24, R642). Where a separate command does a step's work, the tick waits for it
(notes/assumptions/17.md).
-/
namespace Sys2Proof.Machine

/-! ### The tick request (R25 to R31) -/

/-- The domains that get a tick request: powered, D0 to D10 (R28, R31). -/
def State.ticked (s : State) : List Nat := (List.range 11).filter s.powered

/-- A domain applies the L-class fields of its units that were written in the ending frame (R28): the thermal thresholds in D0, the
Lodestar configuration, the placement defaults and the Tailings filters in D4. ENABLE comes back with the restart of R582. -/
def State.latchFields (s : State) (d : Nat) : State :=
  if d = 0 then { s with power := { s.power with stepC := s.power.stepCNext, hyst := s.power.hystNext } }
  else if d = 4 then
    let c := s.tailings.cfgNext
    { s with lodestar := { s.lodestar with cfg := s.lodestar.cfgAccepted }
             media := { s.media with patrolHours := s.media.patrolNext }
             cage := { s.cage with lpClass := s.cage.c2.map (fun p => (p.1, p.2.1)), qwarn := s.cage.c2.map (fun p => (p.1, p.2.2)) }
             tailings := { s.tailings with cfg := if s.tailings.restart.isSome then { c with enable := s.tailings.cfg.enable } else c } }
  else s

/-- A domain acknowledges the tick. -/
def State.ackDomain (s : State) (d : Nat) : State :=
  ({ s with meridian := { s.meridian with waiting := s.meridian.waiting.filter (· != d) } } : State).latchFields d

/-- A domain that has never acknowledged the tick before is lost with every unit in it (R29). -/
def State.loseDomain (s : State) (d : Nat) : State :=
  ((List.range unitCount).filter (fun u => unitDomain u == d)).foldl (fun s u => s.loseUnit u 2) s

/-- SYNC_OUT rises at each 4 ms mark, unless PIN is selected (R624). -/
def State.syncOut (s : State) : State :=
  if s.meridian.frame * s.period % 4000 = 0 ∧ s.lodestar.sel ≠ .pin then
    { s with power := { s.power with syncOut := s.power.syncOut + 1, syncOutFs := s.meridian.tickFs } }
  else s

/-- A tick marker on a port (R434). -/
def State.sendMarker (s : State) (p : Nat) : State :=
  s.sendControl p ([3, 0, 0, 0] ++ le 4 (s.meridian.tickFs / 1000000) ++ le 8 s.meridian.frame)

/-- The tick markers of a tick: the foreman's on its constellation ports, a twin's on both binary ports (R434). -/
def State.markers (s : State) : State :=
  let far := if s.const.role = .foreman then List.range 10 else []
  let near := if s.pair.auth then [10, 11] else []
  (far ++ near).foldl State.sendMarker s

/-- What each frame starts anew: the marks that events are raised once a frame, and the pair's count of frames without a link. -/
def State.freshFrame (s : State) : State :=
  let c := s.cage
  let both := s.binaryDown && s.pair.detectIn && s.pair.has
  { s with cage := { c with quotaHighFrame := [], poolWaitFrame := false }
           units := { s.units with table := tmapv s.units.table (fun _ e => { e with qRaised := false }) }
           pair := { s.pair with partitionFrames := if both then s.pair.partitionFrames + 1 else 0 }
           fabric := { s.fabric with mirrorPort := if (s.port 10).state = .up then 10 else s.fabric.mirrorPort }
           link := { s.link with scale := s.link.rateGt * s.link.width } }

/-- The tick itself: the frame number, its time, and the tick requests. `late` are the domains that have not acknowledged at once,
`pit` the sixteenths of the pit reserve that the ended frame used (R25, R26, R28, R70). -/
def State.beginTick (s : State) (t : Nat) (late : List Nat) (pit : Nat) : State :=
  let m := s.meridian
  let lost := m.waiting
  let s := lost.foldl State.loseDomain s
  if m.running ∧ !s.meridian.running then s
  else
    let fs := if m.running then m.tickFs + s.frameFs else t * 1000000
    let frame := if m.running then m.frame + 1 else 0
    let s := s.at (fs / 1000000)
    let s := if m.running then s else { s with startup := { s.startup with frame0Ns := s.now } }
    let ds := s.ticked
    let waiting := ds.filter late.contains
    let s := { s with meridian := { s.meridian with running := true, frame := frame, tickFs := fs, waiting := waiting, lateNow := []
                                                    lateClosed := m.lateNow.length }
                      power := { s.power with clkstop := ds.foldl (fun (c : BitVec 12) d => c &&& ~~~oneDomain d) s.power.clkstop } }
    let s := (ds.filter (fun d => !late.contains d)).foldl State.latchFields s
    let s := s.syncOut
    if !s.powered 4 ∨ s.global.mfault then { s with meridian := { s.meridian with waiting := [], step := 0 } }
    else
      let s := { s with tally := { s.tally with pitNow := min pit 205 }, meridian := { s.meridian with step := 1 } }
      s.freshFrame.owedTick.markers.accrueBusy (fun _ => true)

/-! ### Retiring and the Tally close (R406, R570 to R573, Table Tally 5) -/

/-- A record that retires at the latest tick: its CQE is posted. -/
def State.retires (s : State) (p : Packet) : Bool :=
  p.phase == .answered && !p.cqeHeld && decide (p.cqeNs * 1000000 < s.meridian.tickFs)

/-- Records retire, and what was kept for them goes (R406, R415). -/
def State.retire (s : State) : State :=
  let s := { s with packets := { s.packets with live := s.packets.live.filter (fun x => !s.retires x.2) } }
  let isLive := fun k : Nat => (s.packet? k).isSome
  let reads := fun k : Nat => isLive k || s.twinReads k
  let s := { s with cage := { s.cage with retained := (s.cage.retained.map (fun (r : Nat × List Nat) => (r.1, r.2.filter reads))).filter
                                            (fun (r : Nat × List Nat) => !r.2.isEmpty)
                                          reserved := s.cage.reserved.filter (fun (r : Nat × Nat) => isLive r.1) } }
  s.sweep.countAnnex

/-- QUOTA_OVERDRAFT, once for each tenant that took overdraft lodes in the ended frame (R327). -/
def State.overdrafts (s : State) : State :=
  let s' := s.cage.overdraftFrame.foldl (fun s (x : Nat × Nat) => if x.2 = 0 then s else s.raise 0x0403 x.1 (le 4 x.2)) s
  { s' with cage := { s'.cage with overdraftFrame := [] } }

/-- A FRAME record, at the time of the tick. -/
def State.traceFrame (s : State) : State :=
  let y := s.tally
  let t := s.now
  let s := ({ s with now := s.meridian.tickFs / 1000000 } : State).trace 6 0xFF 0 (le 4 y.cfContract ++ le 4 y.cfBest ++ le 4 y.pitNow ++
    le 2 y.admitted ++ le 2 y.demoted ++ le 2 y.refused ++ le 1 s.meridian.lateClosed)
  { s with now := t }

/-- Tally closes the ended frame: its counts enter the partitions and the module account (R570, R571). -/
def State.closeFrame (s : State) : State :=
  if s.meridian.frame = 0 then s
  else
    let s := s.overdrafts
    let y := s.tally
    let parts := y.now.foldl (fun (m : Tbl Partition) c => tmod m c.tenant {} (fun p => p.add c)) y.parts
    let parts := (List.range 64).foldl (fun (m : Tbl Partition) n => tmod m n {} (fun p =>
      { p with outstanding := s.outstanding n, used := s.charge n, quota := s.quota n })) parts
    let s := s.traceFrame
    { s with tally := { y with parts := parts, now := [], closed := s.meridian.frame - 1
                               replayCost := satAdd 64 y.replayCost y.replayNow, preemptCost := satAdd 64 y.preemptCost y.preemptNow
                               reservedCf := satAdd 64 y.reservedCf y.reservedNow, pitCf := satAdd 64 y.pitCf y.pitNow
                               modEnergy := satAdd 64 y.modEnergy y.energyNow, replayNow := 0, preemptNow := 0, reservedNow := 0
                               pitNow := 0, energyNow := 0, cfContract := 0, cfBest := 0, admitted := 0, demoted := 0, refused := 0 } }

/-! ### The Assay merge (R303, R308 to R312) -/

/-- The domain of an Assay set (R565, Table Power 1). -/
def setDomain (k : Nat) : Nat := unitDomain (if k < 64 then 256 + k else 320 + (k - 64))

/-- The statistics of one tap over the sets that hand them over. -/
def mergeStats (l : List TapStat) : TapStat :=
  l.foldl (fun (a : TapStat) b =>
    { a with maxabs := max a.maxabs b.maxabs, any := a.any || b.any, sat := a.sat + b.sat
             hist := b.hist.foldl (fun h (x : Nat × Nat) => tmod h x.1 0 (· + x.2)) a.hist }) { tenant := (l.head?.elim 0 (·.tenant)), tap := (l.head?.elim 0 (·.tap)) }

/-- FMAX of a target format (Table Narrow 4). -/
def fmaxOf : Nat → Nat
  | 0 => 448 | 1 => 57344 | 2 => 6 | _ => 127

/-- The smallest e with MAXABS × H ≤ FMAX × 2^e, exactly; none for +∞ (R310). -/
def scaleWanted (c : TapCfg) (maxabs : Nat) : Option Int :=
  match decodeF .fp32 maxabs with
  | .fin _ m e =>
    let a := m * (8 + c.head)
    let b := fmaxOf c.fmt * 8
    let k := ((List.range 64).map (fun (i : Nat) => (i : Int) - 24)).find? (fun k =>
      if 0 ≤ k then decide (a ≤ b * 2 ^ k.toNat) else decide (a * 2 ^ (-k).toNat ≤ b))
    some (e + k.getD 40)
  | _ => none

/-- A value held between two bounds. -/
def clampInt (lo hi x : Int) : Int := max lo (min hi x)

/-- A tracking decision: the new exponent, and whether the wanted one lies outside one step of the old (R310). -/
def trackStep (e : Int) (want : Option Int) : Int × Bool :=
  match want with
  | none => (clampInt (-32) 32 (e + 1), true)
  | some w => (clampInt (-32) 32 (clampInt (e - 1) (e + 1) w), decide (w < e - 1 ∨ e + 1 < w))

/-- A wanted exponent as an event reports it. -/
def wantByte (w : Option Int) : Nat := (w.elim 255 (fun w => (clampInt 0 255 (w + 128)).toNat))

/-- Close the frame of one tap: its record, the threshold of fixed mode, and the step of tracking mode (R306, R309, R310). -/
def State.closeTap (s : State) (st : TapStat) : State :=
  let key := st.tenant * 256 + st.tap
  let f := s.meridian.frame - 1
  let old := s.assay.tap st.tenant st.tap
  if old.cfg.mode = 2 then s
  else
    let tp := { old with sat := satAdd 64 old.sat st.sat
                         hist := st.hist.foldl (fun h (x : Nat × Nat) => tmod h x.1 0 (fun n => satAdd 32 n x.2)) old.hist
                         maxabs := if st.any then st.maxabs else old.maxabs, lastFrame := if st.any then f else old.lastFrame }
    let put := fun (s : State) (tp : Tap) => { s with assay := { s.assay with taps := tset s.assay.taps key tp } }
    if tp.cfg.mode = 0 then
      let s := put s tp
      if tp.cfg.thresh ≠ 0 ∧ tp.cfg.thresh < st.sat then
        s.raise 0x0A01 st.tenant ([BitVec.ofNat 8 st.tap] ++ le 8 f ++ le 8 st.sat)
      else s
    else if !st.any ∨ st.maxabs = 0 ∨ old.pendCfg.isSome then put s { tp with limitedRun := false }
    else
      let e : Int := (old.scale : Int) - 127
      let want := scaleWanted tp.cfg st.maxabs
      let (e', far) := trackStep e want
      let code := (e' + 127).toNat
      let s := put s { tp with scale := code, limitedRun := far }
      let s := if code = old.scale then s
        else s.trace 10 st.tenant st.tap ([BitVec.ofNat 8 old.scale, BitVec.ofNat 8 code, BitVec.ofNat 8 (wantByte want), 0] ++ le 4 st.maxabs ++ le 8 st.sat)
      if far ∧ !old.limitedRun then
        s.raise 0x0A02 st.tenant [BitVec.ofNat 8 st.tap, BitVec.ofNat 8 (wantByte want), BitVec.ofNat 8 (e' + 128).toNat]
      else s

/-- A tracking tap that recorded nothing in the frame ends its run of limited ticks (R310). -/
def Assay.endRuns (a : Assay) (seen : List Nat) : Assay :=
  { a with taps := tmapv a.taps (fun k tp => if seen.contains k then tp else { tp with limitedRun := false }) }

/-- Configurations that Set Features left for this tick: the scale is INIT_SCALE, and a tap that is declared or undeclared starts from
a cleared record (R303, R311 edges). -/
def Assay.latch (a : Assay) : Assay :=
  { a with taps := tmapv a.taps (fun _ tp => match tp.pendCfg with
      | none => tp
      | some c =>
        if c.mode = 2 then { cfg := c }
        else if tp.cfg.mode = 2 then { cfg := c, scale := c.initScale }
        else { tp with cfg := c, pendCfg := none, scale := c.initScale, limitedRun := false }) }

/-- The merge of the sets whose domains have acknowledged the tick; a late set's statistics wait for the next (R308, R312). -/
def State.assayMerge (s : State) : State :=
  let a := s.assay
  let ready := fun k : Nat => !s.meridian.lateNow.contains (setDomain k) && !s.meridian.waiting.contains (setDomain k)
  let sets := a.sets.filter (fun (x : Nat × AssaySet) => ready x.1)
  let stats := sets.flatMap (fun (x : Nat × AssaySet) => x.2.stats)
  let keys := sortBy (fun a b => decide (a < b)) (dedupNat (stats.map (fun st => st.tenant * 256 + st.tap)))
  let s := { s with assay := { a with sets := tmapv a.sets (fun k x => if ready k then { x with stats := [], overflowNow := 0, pairsLast := x.stats.length, overflowLast := x.overflowNow != 0 } else x) } }
  let s := keys.foldl (fun s k => s.closeTap (mergeStats (stats.filter (fun st => st.tenant * 256 + st.tap == k)))) s
  let s := { s with assay := (s.assay.endRuns keys).latch }
  sets.foldl (fun s (x : Nat × AssaySet) =>
    if x.2.overflowNow = 0 then s else s.raiseM 0x0A03 ([BitVec.ofNat 8 x.1] ++ le 2 x.2.overflowNow)) s

/-! ### Units and cores at a tick (R483, R504, R509 to R513) -/

/-- A unit's changes that a tick brings: the end of a passed reset, a RETURN, and the state after a passed probe. -/
def State.unitTick (s : State) (u : Nat) : State :=
  let e := s.unit u
  if e.state = .resetting ∧ e.resetDone = some true then s.endReset u
  else if e.probePassed then
    let s := s.modUnit u (fun e => { e with probePassed := false, mgmt := false })
    if e.state = .contested then s.setUnitState u e.before else s
  else if e.asked.any (fun a => a.1 == .ret && decide (a.2 < s.meridian.frame)) then
    let s := s.modUnit u (fun e => { e with asked := e.asked.filter (fun a => a.1 != .ret) })
    if e.state = .held then (s.setUnitState u .active).completeUnit u [.ret]
    else if e.state = .outOfService then
      let s := s.modUnit u (fun e => { e with epoch := (e.epoch + 1) % 2 ^ 48 })
      s.beginReset u e.epoch 0
    else s.completeUnit u [.ret]
  else s

/-- Cores and units as the new frame finds them: a core whose packet no longer runs is free, images that are in make their cores
ready, and a best-effort SIFT records how far each drift has come (R247, R483, R538). -/
def State.unitsTick (s : State) : State :=
  let runs := fun k : Nat => (s.packet? k).elim false (fun p => p.phase == .running)
  let s := { s with cores := tmapv s.cores (fun _ c => if c.packet.any (fun k => !runs k) then c.idle else c) }
  let s := { s with packets := { s.packets with live := tmapv s.packets.live (fun _ p =>
    if p.phase = .running ∧ p.hdr.opcode = 0x0301 ∧ p.preemptible then { p with progress := p.evaluated } else p) } }
  let s := ((List.range unitCount).filter (fun u => (tget? s.units.table u).isSome)).foldl State.unitTick s
  s.streamBound.unitsReturn.arrived

/-! ### The first frame after a wake (R489, R501) -/

/-- At the latest tick D4, D5 and D6 have acknowledged, and placement is open for every core whose domain the restored state powers:
none is still to be made ready. -/
def State.firstDue (s : State) : Bool :=
  let late := fun d : Nat => s.meridian.waiting.contains d || s.meridian.lateNow.contains d
  s.power.lantern == .waking && s.power.arriving == 0 && !late 4 && !late 5 && !late 6 && s.powered 4 &&
    (List.range 256).all (fun n => !s.powered (unitDomain n) || (s.unit n).state != .off)

/-- The first frame: CUR returns to the operational state, fetching goes on, and WAKE says what woke the module and how long it
took, in µs (R486, R489). -/
def State.firstFrame (s : State) : State :=
  if !s.firstDue then s
  else
    let p := s.power
    let us := min ((s.meridian.tickFs / 1000000 - p.wakeAt) / 1000) (2 ^ 32 - 1)
    let s := (({ s with power := { p with cur := p.before, lantern := .none, wakePin := false, wakeUs := us } } : State).platformEvent 15 p.before)
    s.raiseM 0x0808 ([BitVec.ofNat 8 p.wakeSrc] ++ le 4 us)

/-! ### Contracted admission opens (R539, R540) -/

/-- Every bound core in a powered domain holds its image (R490, R538). -/
def State.boundHold (s : State) : Bool := s.cores.all (fun x => x.2.bound == 0 || !s.powered (unitDomain x.1) || x.2.ready)

/-- The conditions of R539 that hold, by their numbers. -/
def State.openConds (s : State) : List Nat :=
  let e := s.ownSurvey
  let surveyed := s.const.role != .hewer || (e.valid && !e.stale) || decide (s.startup.readyNs + 120000000000 ≤ s.now)
  ([(1, s.done .ready), (2, s.done .residency && (!s.power.retained || s.boundHold)), (3, s.lodestar.firstCommit), (4, surveyed)].filter (fun (x : Nat × Bool) => x.2)).map
    (fun (x : Nat × Bool) => x.1)

/-- Note the condition that came to hold last. -/
def State.noteConds (s : State) : State :=
  let now_ := s.openConds
  let fresh := now_.filter (fun c => !s.startup.conds.contains c)
  { s with startup := { s.startup with conds := now_, lastCond := if fresh.isEmpty then s.startup.lastCond else maxNat fresh } }

/-- Contracted admission is to open at the latest tick. -/
def State.opens (s : State) : Bool := !s.meridian.admitOpen && s.awake && s.openConds.length == 4

/-- It opens (R539). -/
def State.openAdmission (s : State) : State :=
  ({ s with meridian := { s.meridian with admitOpen := true }, power := { s.power with retained := false } } : State).raiseM 0x0108 (le 8 s.meridian.frame ++ [BitVec.ofNat 8 s.startup.lastCond])

/-! ### The steps of a tick (R41, R642) -/

/-- The latest tick waits, in a step, for the command that does the step's work. -/
def State.tickWaits (s : State) : Nat → Bool
  | 1 => s.meridian.waiting.any (fun d => !s.meridian.lateNow.contains d)
  | 2 => s.lodestar.windowDue
  | 3 => s.packets.live.any (fun x => x.2.overdue s.meridian.frame)
  | 4 => s.clockDue || s.domainDue
  | 5 => s.periodDue || s.shadowDue || s.classDue
  | 6 => s.opens
  | _ => false

/-- The powered time of the latest tick, in ns. -/
def State.tickNs (s : State) : Nat := s.meridian.tickFs / 1000000

/-- TICK_ACK_LATE: a domain has not acknowledged 2 µs after the tick (R29). -/
def State.markLate (s : State) (d : Nat) : State :=
  let m := s.meridian
  if !m.waiting.contains d ∨ m.lateNow.contains d ∨ s.now < s.tickNs + 2000 then s
  else
    let s := { s with meridian := { m with lateNow := m.lateNow ++ [d], ackLate := m.ackLate ||| BitVec.ofNat 11 (2 ^ d), ackLateCnt := satAdd 16 m.ackLateCnt 1 } }
    s.raiseM 0x0104 ([BitVec.ofNat 8 d] ++ le 8 m.frame)

/-- The work of a step whose command never came before the next tick; a window stays due. A domain that
has not acknowledged by then was late (R29). -/
def State.tickForce (s : State) : Nat → State
  | 1 => s.meridian.waiting.foldl State.markLate (s.at (s.tickNs + 2000))
  | 3 => s.deadlines
  | 4 => s.powerTick
  | 5 => s.changePeriod.activateShadow.applyClasses
  | 6 => if s.opens then s.openAdmission else s
  | _ => s

/-- What follows a step: Lodestar; the close of the frame; the Assay merge and the units; then, after contracted admission,
decisions, aborts, admission and placement. -/
def State.tickWork (s : State) : Nat → State
  | 1 =>
    let s := s.lodestarFirst
    let due := decide (1000000 / s.period ≤ s.meridian.frame - s.lodestar.windowStart)
    { s with lodestar := { s.lodestar with windowDue := s.lodestar.windowDue || due } }
  | 2 => s.lodestarLast.constTick.retire.closeFrame
  | 3 => s.assayMerge.unitsTick.firstFrame
  | 5 => s.noteConds
  | 6 =>
    let s := match s.pair.takeoverBegun with
      | some n => ({ s with pair := { s.pair with takeoverBegun := none } } : State).raiseM 0x0604 (le 4 n)
      | none => s
    let s := s.sanitizeTick.decisions.abortJobs.openBudgets.admissions
    (s.recount ((s.cage.map.filter (fun x => decide (0 < x.2.jobs))).map (fun x => x.2.wlode))).placements
  | _ => s

/-- Go on with the latest tick as far as it can. -/
def State.goOn (force : Bool) : Nat → State → State
  | 0, s => s
  | fuel + 1, s =>
    let k := s.meridian.step
    if k = 0 ∨ (s.tickWaits k && !force) then s
    else
      let s := if force then s.tickForce k else s
      let s := { s with meridian := { s.meridian with step := if k = 6 then 0 else k + 1 } }
      (s.tickWork k).goOn force fuel

/-- Go on after a command has done a step's work. -/
def State.advance (s : State) : State := s.goOn false 6

/-- MERIDIAN_TICK: what the latest tick still waits for is done first; then the new frame begins. `t` is the time of the first tick;
each later one follows from the length of its frame (R25, R26, R28). -/
def execMeridianTick (t : Nat) (late : List Nat) (pit : Nat) (s : State) : Result :=
  if !s.done .count ∨ s.power.off then .next (s.at t)
  else .next ((s.goOn true 6).beginTick t late pit).advance

/-! ### The commands of a tick -/

/-- TICK_ACK_LATE (R29). -/
def execTickAckLate (t d : Nat) (s : State) : Result := .next ((s.at t).markLate d).advance

/-- TICK_ACKNOWLEDGE: a domain that had not acknowledged at once does; later than 2 µs it is late too (R28, R29). -/
def execTickAcknowledge (t d : Nat) (s : State) : Result :=
  let s := s.at t
  if s.meridian.waiting.contains d then .next ((s.markLate d).ackDomain d).advance else .next s

/-- WINDOW_END: the measured offsets of the window that the latest tick ends, in 0.001 ppm against the local oscillator (R96 to R99,
R106). -/
def execWindowEnd (t : Nat) (ptm pin fab twin : Int) (s : State) : Result :=
  let s := s.at t
  if !s.lodestar.windowDue ∨ s.meridian.step = 1 ∨ !s.powered 4 ∨ s.global.mfault then .next s
  else .next (s.windowEnd { ptm := ptm, pin := pin, fab := fab, twin := twin }).advance

/-- DEADLINE_TICK: the deadlines that the latest tick brought (R48 to R51). -/
def execDeadlineTick (t : Nat) (s : State) : Result :=
  let s := s.at t
  if s.global.mfault ∨ !s.powered 4 then .next s else .next s.deadlines.advance

/-- PERIOD_CHANGED (R58). -/
def execPeriodChanged (t : Nat) (s : State) : Result :=
  let s := s.at t
  if s.meridian.step = 5 ∧ s.periodDue then .next s.changePeriod.advance else .next s

/-- ORRERY_ACTIVATED (R75). -/
def execOrreryActivated (t : Nat) (s : State) : Result :=
  let s := s.at t
  if s.meridian.step = 5 ∧ s.shadowDue then .next s.activateShadow.advance else .next s

/-- CONTRACT_CHANGE_EFFECT (R65). -/
def execContractChangeEffect (t : Nat) (s : State) : Result :=
  let s := s.at t
  if s.meridian.step = 5 ∧ s.classDue then .next s.applyClasses.advance else .next s

/-- ADMISSION_OPEN (R539). -/
def execAdmissionOpen (t : Nat) (s : State) : Result :=
  let s := s.at t
  if s.meridian.step = 6 ∧ s.opens then .next s.openAdmission.advance else .next s

/-- An event of a step or a release carries A′ of the tick: it waits until the domains have changed (R495, R498). -/
def State.clockRow (s : State) (t : Nat) (k : State → State) : State :=
  let s := s.at t
  if s.meridian.step ≠ 4 then s
  else
    let s := s.clockChanges
    if s.domainDue then s else (k s).advance

/-- THERMAL_STEP (R495, R496). -/
def execThermalStep (t : Nat) (s : State) : Result := .next (s.clockRow t State.saySteps)

/-- THERMAL_RESTORE (R495). -/
def execThermalRestore (t : Nat) (s : State) : Result := .next (s.clockRow t State.sayRestores)

/-- THERMAL_CRITICAL (R497). -/
def execThermalCritical (t : Nat) (s : State) : Result := .next (s.clockRow t State.sayCriticals)

/-- THERMAL_CRITICAL_RETURN (R497). -/
def execThermalCriticalReturn (t : Nat) (s : State) : Result :=
  let s := s.at t
  if s.meridian.step = 4 then .next s.clockChanges.sayReturns.advance else .next s

/-- TRIM_TO_FEWER_DOMAINS (R482, and the edges of R486). -/
def execTrimToFewerDomains (t : Nat) (s : State) : Result :=
  let s := s.at t
  if s.meridian.step = 4 ∧ s.trimDue then .next s.trim.advance else .next s

/-- DOMAIN_POWER_OFF (R482). -/
def execDomainPowerOff (t : Nat) (s : State) : Result :=
  let s := s.at t
  if s.meridian.step = 4 ∧ s.awake then .next s.domainsOff.advance else .next s

/-- DOMAIN_POWER_ON (R483). -/
def execDomainPowerOn (t : Nat) (s : State) : Result :=
  let s := s.at t
  if s.meridian.step = 4 ∧ s.awake then .next s.domainsOn.advance else .next s

end Sys2Proof.Machine
end

