-- ==== Sys2Proof/Machine/Lantern.lean ====
section
/-!
DEFINITION. Entering the Lantern and waking from it (spec/17_power_and_the_lantern.md, R477 to R480, R484 to R491).
-/
namespace Sys2Proof.Machine

/-! ### Entry (R484, R485) -/

/-- No I/O or admin command is outstanding on any function, no packet is, and no shift record is held for a twin. An Asynchronous
Event Request does not count (notes/assumptions/18.md). -/
def State.quiet (s : State) : Bool :=
  s.link.controllers.all (fun c => c.2.sqs.all (fun q => q.2.visible.isEmpty) && c.2.cqs.all (fun q => q.2.held.isEmpty)) &&
    s.media.flushes.isEmpty && s.tally.reads.isEmpty && !s.activation.outstanding && s.packets.aborts.isEmpty &&
    s.packets.live.isEmpty && s.packets.twin.isEmpty && s.lodestar.surveys.all (fun j => j.own) &&
    s.units.table.all (fun x => x.2.waits.all (fun w => w.mgmt))

/-- The domains that P3 and P4 keep powered (Table Power 2). -/
def lanternDomains (k : Nat) : BitVec 12 := if k = 3 then 0x063 else 0x003

/-- Step 2: a checkpoint, and the log and Tally persisted (R479, R484). -/
def State.lanternSave (s : State) : State := s.wholeCheckpoint.persistLog.persistTally

/-- The stewards' lines and stores reach their tiers before their domain goes off; then the caches and Tier C are gone (R477). -/
def State.stewardsOff (s : State) : State :=
  let s := (s.coherence.stewards.map (·.1)).foldl State.stewardFlush s
  let s := (s.coherence.lines.filter (fun l => l.2.ahead)).foldl (fun s l => s.toTier l.1 l.2) s
  let c := s.coherence
  { s with coherence := { c with lines := [], ring := [], stewards := [], tierC := [], cPoison := [] } }

/-- The fabric ports while D2 and D3 are off: lane 0 of a port whose link was up runs in the lantern state, its credits frozen; the
others are down (R436, R487). -/
def lanternPorts (ps : Tbl Port) : Tbl Port :=
  tmapv ps (fun _ p => { p with state := if p.state = .up ∨ p.state = .lantern then .lantern else .down })

/-- Records that only a ring in Tier C held are lost with it: in stage 3 nothing is persisted (R424, R479). -/
def EventLog.tierCOff (l : EventLog) : EventLog :=
  if l.stage = 3 then { l with ring := [], persisted := 0, recordsLost := l.recordsLost || decide (l.persisted < l.ring.length) } else l

/-- Lodestar's comparison logic goes off: the tick generator runs on INT with the last correction (R107 edges, R478). -/
def Lodestar.off (l : Lodestar) : Lodestar :=
  { l with sel := .int, phase := .committed, target := none, trigger := none, manual := none, intByManual := false, windowDue := false }

/-- Steps 3 to 6, and the end of entry: every domain that the state does not keep loses power, the link narrows to x1, and POWER_STATE
goes to the D0 event queue (R484). -/
def State.lanternSleep (s : State) : State :=
  let k := s.power.req
  let s := s.stewardsOff
  let ports := lanternPorts s.fabric.ports
  let s := { s with fabric := { s.fabric with ports := tmapv s.fabric.ports (fun _ p => { p with state := .down }) } }
  let s := (domainList (s.power.domains &&& ~~~lanternDomains k)).foldl State.cutDomain s
  let s := if k = 4 then s.tierHOff else s
  let s := { s with
    fabric := { s.fabric with ports := ports }, log := s.log.tierCOff, lodestar := s.lodestar.off
    link := { s.link with width := 1 }, meridian := { s.meridian with admitOpen := false }
    startup := { s.startup with conds := s.startup.conds.filter (· != 2)
                                ended := if k = 4 then s.startup.ended.filter (· != Stage.residency) else s.startup.ended }
    power := { s.power with lantern := .asleep, lanternStep := 0, leaving := 0, arriving := 0 } }
  s.newPowerState k

/-- LANTERN_ENTRY: the next step of an entry to P3 or P4. It begins at the first tick at which nothing is outstanding; then come the
stop of fetching, the checkpoint with the log and Tally, the image of the firmware region (P4) or self-refresh (P3), and the removal of
power (R484). A command that arrives between two steps abandons it (R485). -/
def execLanternEntry (t : Nat) (s : State) : Result :=
  let s := s.at t
  let p := s.power
  let put := fun (s : State) (x : LanternPhase) (k : Nat) => { s with power := { s.power with lantern := x, lanternStep := k } }
  if s.meridian.step ≠ 0 ∨ s.global.mfault ∨ p.off then .next s
  else if p.lantern = .pending then
    if p.lanternFrame < s.meridian.frame ∧ s.quiet then .next (put s .entering 1) else .next s
  else if p.lantern = .entering then
    match p.lanternStep with
    | 1 => .next (put s.lanternSave .entering 2)
    | 2 => .next (put s .entering 3)
    | _ => .next s.lanternSleep
  else .next s

/-! ### Wake (R488 to R491) -/

/-- The events of the D0 event queue enter the log in their order, with the times they were raised at (R479). -/
def State.drainD0 (s : State) : State :=
  let q := s.log.d0Queue
  q.foldl (fun s r =>
    let s := s.enter r.code r.tenant r.timeNs r.data
    s.trace 5 r.tenant 0 (le 2 r.code ++ padTo 22 r.data) (r.code / 256)) { s with log := { s.log with d0Queue := [] } }

/-- Every external reference starts again in QUALIFYING, with a new window (R491). -/
def Lodestar.rewake (l : Lodestar) (frame : Nat) : Lodestar :=
  let again := fun (i : RefInfo) => ({ state := .qualifying, signal := i.signal, barred := i.barred } : RefInfo)
  { l with ptm := again l.ptm, pin := again l.pin, fab := again l.fab, twin := again l.twin, windowStart := frame }

/-- The objects that P4 has lost from Tier H are paged in again (R320, R490). -/
def State.repage (s : State) : State :=
  (s.objects.live.map (·.2)).foldl (fun s o => if o.uncharged then s else s.wantPinned o) s

/-- A wake source acts: the domains of the state in force before entry are powered, the stewards start, the log is restored and takes
the D0 events, and the link asks for x16 (R479, R486 to R491). -/
def State.wake (s : State) (src : Nat) : State :=
  let bare := s.power.cur == 4
  let s := { s with power := { s.power with lantern := .waking, wakeAt := s.now, wakeSrc := src, wakePin := src == 3 || src == 4, retained := !bare } }
  let s := s.domainsOn
  let s := { s with
    link := { s.link with width := 16 }, lodestar := s.lodestar.rewake s.meridian.frame
    coherence := { s.coherence with stewards := (List.range 16).map (fun n => (n, { started := true })) } }
  let s := if bare then s.repage else s
  s.drainD0

/-- WAKE, by a doorbell (1), an admin command (2), a management request that needs a domain that is off (3), or a fabric partner that
retrains a lantern port (4): the module comes to its first frame, at whose tick WAKE is raised (R488, R489; `State.firstFrame`). The
access itself is held until then. -/
def execWake (t src : Nat) (s : State) : Result :=
  let s := s.at t
  if s.power.lantern ≠ .asleep ∨ s.power.off ∨ src = 0 ∨ 4 < src then .next s
  else if src = 4 ∧ !s.fabric.ports.any (fun x => x.2.state == .lantern) then .next s
  else .next (s.wake src)

end Sys2Proof.Machine
end

