-- ==== Sys2Proof/Machine/Controllers.lean ====
section
/-!
DEFINITION. Controllers: enable, resets, shutdowns and the loss of the link; SR-IOV; link IDE; and the cold module resets that a host
or management software asks for (spec/05_host_link.md, R117, R139 to R141; spec/18, R517, R518, R532; spec/19, R534, R550; spec/20,
R569; spec/22, R599).
-/
namespace Sys2Proof.Machine

/-! ### Packets that a reset ends (R139, R140, R406) -/

/-- A packet ends with ABORTED_RESET: its record where `write` says that host memory may be written and it has none yet, no CQE, and
its shift record retired at once (R139, R140, R406, R572, the edges of R174). Its cores return to placement at the next tick. -/
def State.endPacket (write : Bool) (s : State) (key : Nat) : State :=
  match s.packet? key with
  | none => s
  | some p =>
    let q := { p.clearRun with phase := .answered, status := .abortedReset, cqeHeld := false, fault := none }
    let s := if write ∧ !p.cqeHeld then s.writeAnswer q else s
    let s := s.freeJobLodes p.jobLodes
    let s := { s with cage := { s.cage with reserved := terase s.cage.reserved key } }
    let s := ((s.updateRecord key (fun _ => q)).count p.tenant 8 .status 0x31).releaseClaims key
    { s with packets := { s.packets with live := terase s.packets.live key, aborts := s.packets.aborts.filter (fun a => a.packet != key) } }

/-- Everything a function has outstanding ends: its packets with a receipt point, the SQEs not taken, and what waits on its behalf. -/
def State.endFunction (s : State) (fn : Nat) (write : Bool) : State :=
  let s := s.deadlines
  let keys := (s.packetsBy (fun p => p.fn == fn && !p.takenOver && !p.sub && p.open_))
  let s := keys.foldl (State.endPacket write) s
  let c := s.ctrl fn
  let s := if (tget? s.link.controllers fn).isNone then s
    else s.setCtrl fn { c with sqs := tmapv c.sqs (fun _ q => { q with visible := [] }), aers := []
                               busyAt := if keys.isEmpty ∧ c.sqs.all (fun q => q.2.visible.isEmpty) then c.busyAt else some s.now }
  let s := ({ s with
    startup := { s.startup with shutdowns := s.startup.shutdowns.filter (· != fn) }
    packets := { s.packets with aborts := s.packets.aborts.filter (fun a => a.fn != fn) }
    media := { s.media with flushes := s.media.flushes.filter (fun f => f.fn != fn) }
    objects := { s.objects with writing := s.objects.writing.filter (fun n => (tget? s.objects.live n).elim false (fun o => handleTenant o.handle != fn)) }
    tally := { s.tally with reads := s.tally.reads.filter (fun r => r.fn != fn) }
    lodestar := { s.lodestar with surveys := s.lodestar.surveys.map (fun (j : SurveyJob) => if j.fn = fn then { j with own := true } else j) }
    units := { s.units with table := tmapv s.units.table (fun _ e => { e with waits := e.waits.filter (fun w => w.mgmt || w.fn != fn) }) } } : State)
  s.busyEnd fn

/-- A reset of the PF takes the firmware flash back from the host (R532). -/
def State.flashBack (s : State) (fn : Nat) : State :=
  if fn = 0 ∧ s.flash.hostOwns then { s with flash := { s.flash with resetAsked := true } } else s

/-- The controller of a function as a reset leaves it; after a module fault CSTS.CFS stays (R423). -/
def State.freshCtrl (s : State) (fn : Nat) : State :=
  if (tget? s.link.controllers fn).isNone then s else s.setCtrl fn { cfs := s.global.mfault, busyAt := (s.ctrl fn).busyAt }

/-- The functions there are: the PF and the enabled VFs. -/
def State.functions (s : State) : List Nat := 0 :: s.link.vfEnabled

/-! ### Enable and reset -/

/-- CONTROLLER_ENABLE: CC.EN is set, with the page size of CC.MPS; then the host creates its I/O queues: SQ and the CQ it is paired
with, and the depth of each CQ. CSTS.RDY follows at stage 7, or at once after it (R119, R534); never after a module fault (R423). -/
def execControllerEnable (t fn mps : Nat) (queues depths : List (Nat × Nat)) (s : State) : Result :=
  let s := s.at t
  if s.power.off ∨ s.power.lossDeclared.isSome ∨ !s.link.up ∨ !s.functions.contains fn ∨ (s.ctrl fn).enabled ∨ 4 < mps then .next s
  else
    let c : Controller :=
      { enabled := true, ready := s.done .ready && !s.global.mfault, cfs := s.startup.noSlot || s.global.mfault, pageBits := 12 + mps
        sqs := queues.foldl (fun m q => tset m q.1 { cqid := q.2 }) [(0, {})]
        cqs := depths.foldl (fun m q => tset m q.1 { depth := q.2 }) [(0, {})] }
    .next (({ s with startup := { s.startup with shutdownDone := false } } : State).setCtrl fn c).countBacklog

/-- CONTROLLER_LEVEL_RESET: CC.EN is cleared; records are written and no CQE (R139, R423, R532). -/
def execControllerLevelReset (t fn : Nat) (s : State) : Result :=
  let s := s.at t
  if !(s.ctrl fn).enabled then .next s
  else .next (((s.endFunction fn true).flashBack fn).freshCtrl fn).countBacklog

/-- FUNCTION_LEVEL_RESET: nothing is written; one of the PF resets every VF, and ends the SPDM sessions on its DOE mailbox (R140, R141
edges, R532, R599 edges). -/
def execFunctionLevelReset (t fn : Nat) (s : State) : Result :=
  let s := s.at t
  if s.power.off ∨ !s.functions.contains fn then .next s
  else
    let all := if fn = 0 then s.functions else [fn]
    let s := all.foldl (fun s n => (s.endFunction n false).freshCtrl n) (s.flashBack fn)
    let s := if fn = 0 then
        { s with link := { s.link with vfEnabled := [] }, manage := { s.manage with sessions := terase s.manage.sessions 0 } }
      else s
    .next s.countBacklog

/-- SURPRISE_LINK_DOWN: as a function level reset of every function, which ends the SPDM sessions on DOE; PTM loses its signal at once
(R117 edges, R140, R599 edges). -/
def execSurpriseLinkDown (t : Nat) (s : State) : Result :=
  let s := s.at t
  if !s.link.up then .next s
  else
    let s := s.functions.foldl (fun s n => (s.endFunction n false).freshCtrl n) s
    let s := { s with link := { s.link with up := false, training := true, vfEnabled := [], ideSecure := false, ideKeys := [] }
                      manage := { s.manage with sessions := terase s.manage.sessions 0 } }
    .next (if s.powered 4 ∧ s.lodestar.ptm.signal then s.loseSignal .ptm false else s).countBacklog

/-- VF_ENABLE: SR-IOV makes VFs 1 to `n` reachable, and those beyond unreachable: their packets end as at a function level reset, their
namespaces stay attached (R122 edges, R569). -/
def execVfEnable (t n : Nat) (s : State) : Result :=
  let s := s.at t
  if 63 < n ∨ s.power.off ∨ !s.link.up then .next s
  else
    let gone := s.link.vfEnabled.filter (fun v => decide (n < v))
    let s := gone.foldl (fun s v => s.endFunction v false) s
    .next ({ s with link := { s.link with vfEnabled := (List.range n).map (· + 1)
                                          controllers := s.link.controllers.filter (fun c => !gone.contains c.1) } } : State).countBacklog

/-! ### Shutdowns (R141, R550) -/

/-- The functions that a shutdown of a function reaches: the PF's, the whole module. -/
def State.shutFns (s : State) (fn : Nat) : List Nat := if fn = 0 then s.functions else [fn]

/-- CSTS.SHST of the enabled controllers of a list. -/
def State.setShst (s : State) (fns : List Nat) (v : Nat) : State :=
  { s with link := { s.link with controllers := tmapv s.link.controllers (fun n c =>
      if fns.contains n ∧ c.enabled then { c with shst := v, stopped := true } else c) } }

/-- A normal shutdown still waits for a packet: of its function, or of the module (R141, R550). -/
def State.shutWaits (s : State) (fn : Nat) : Bool :=
  s.packets.live.any (fun x => x.2.open_ && (fn == 0 || (x.2.fn == fn && !x.2.takenOver && !x.2.sub)))

/-- NORMAL_SHUTDOWN: CC.SHN = 01b. Fetching stops; once every packet is answered, class J data is flushed by a checkpoint, for the PF a
clean one with the log and Tally persisted; then SHST reads 10b (R141, R550). -/
def execNormalShutdown (t fn : Nat) (s : State) : Result :=
  let s := s.at t
  if !(s.ctrl fn).enabled ∨ (s.ctrl fn).shst = 2 ∨ s.global.mfault ∨ s.power.off then .next s
  else
    let fns := s.shutFns fn
    let s := if s.startup.shutdowns.contains fn then s
      else ({ s with startup := { s.startup with shutdowns := s.startup.shutdowns ++ [fn] } } : State).setShst fns 1
    if s.shutWaits fn then .next s
    else
      let s := if fn = 0 then s.orderly else s.wholeCheckpoint
      let s := { s with startup := { s.startup with shutdowns := if fn = 0 then [] else s.startup.shutdowns.filter (· != fn)
                                                    shutdownDone := s.startup.shutdownDone || fn == 0 } }
      .next (s.setShst fns 2)

/-- ABRUPT_SHUTDOWN: CC.SHN = 10b. As a controller level reset, then the flush of class J data (R141). -/
def execAbruptShutdown (t fn : Nat) (s : State) : Result :=
  let s := s.at t
  if !(s.ctrl fn).enabled ∨ s.global.mfault ∨ s.power.off then .next s
  else .next (((s.endFunction fn true).wholeCheckpoint.setShst [fn] 2).countBacklog)

/-! ### Cold module resets (R517, R518) -/

/-- COLD_RESET: UNIT CONTROL 0x08, with 0x5A5A_0C9D in place of a unit number; it never completes (R510, R518). -/
def execColdReset (q : Sqe) (s : State) : Result :=
  .next (s.pfCommand q (fun s => if q.d11.toNat = 0x5A5A0C9D then s.orderlyReset else s.complete q .invalidField))

/-- NVM_SUBSYSTEM_RESET: a checkpoint, the log and Tally, then the reset; after a module fault a power loss, whose flush ends as `f` says.
In P3 and P4 it waits for a wake (R518, R588, R589). -/
def execNvmSubsystemReset (t : Nat) (f : FlushEnd) (s : State) : Result :=
  let s := s.at t
  if s.power.off ∨ s.power.lossDeclared.isSome ∨ !s.done .d0 ∨ s.power.lantern = .asleep ∨ s.power.lantern = .waking then .next s
  else .next (s.askedReset f)

/-! ### TLPs and link IDE (R117, R599) -/

/-- POISONED_TLP_RECEIVED: the data of a command came in a TLP with EP set; it is discarded (R117). -/
def execPoisonedTlpReceived (q : Sqe) (s : State) : Result := .next (s.command q true (fun s => s.complete q .dataTransfer))

/-- IDE_FAILURE: an integrity check failed; the stream is Insecure, and the packets whose TLPs are dropped end as a surprise link down
would end them (R599). -/
def execIdeFailure (t : Nat) (dropped : List Nat) (s : State) : Result :=
  let s := s.at t
  if !s.link.ideSecure then .next s
  else
    let s := ({ s with link := { s.link with ideSecure := false, ideKeys := [] } } : State).raiseM 0x0B05 []
    let s := s.deadlines
    .next ((dropped.filter (fun k => (s.packet? k).elim false (fun p => p.open_ && !p.takenOver && !p.sub))).foldl (State.endPacket false) s)

/-- The messages of IDE_KM that act on keys (PCIe Base 6.0). -/
def ideSlots (set : Nat) : List Nat := (List.range 6).map (6 * set + ·)

/-- IDE_KM in a secured SPDM session on the DOE mailbox: KEY_PROG (2) programs a key slot; K_SET_GO (4) starts the stream on a key set all
of whose slots are programmed; K_SET_STOP (5) ends it and forgets the set (R599). -/
def execIdeKm (t msg arg : Nat) (s : State) : Result :=
  let s := s.at t
  let l := s.link
  if s.power.off ∨ !s.link.up ∨ tgetD s.manage.sessions 0 0 = 0 then .next s
  else if msg = 2 ∧ arg < 12 then .next { s with link := { l with ideKeys := l.ideKeys.filter (· != arg) ++ [arg] } }
  else if msg = 4 ∧ arg < 2 ∧ (ideSlots arg).all l.ideKeys.contains then .next { s with link := { l with ideSecure := true } }
  else if msg = 5 ∧ arg < 2 then
    .next { s with link := { l with ideSecure := false, ideKeys := l.ideKeys.filter (fun k => !(ideSlots arg).contains k) } }
  else .next s

end Sys2Proof.Machine
end

