-- ==== Sys2Proof/Machine/Attach.lean ====
section
/-!
DEFINITION. Namespace Management and Attachment, and the features of a function: volatile write cache, placement defaults and Assay
mode (spec/05_host_link.md, R120 to R122, R128; spec/11_narrow_numbers.md, R302, R303; spec/12, R319; spec/22, R600).
-/
namespace Sys2Proof.Machine

/-! ### Namespace Management (R120 to R122, R600) -/

/-- Lodes of user capacity that neither a namespace nor an object takes. -/
def State.capacityLeft (s : State) : Nat :=
  s.media.userBytes - 65536 * sumNat (s.allObjects.map (·.lodes)) - sumNat ((s.link.namespaces.map (·.2)).map (fun n => n.size * n.lbaBytes))

/-- A format of Table Host 4 with a protection information type: Type 1 or 3, and only where there is metadata (R122). -/
def formatOk (lbaf pi : Nat) : Bool := decide (lbaf ≤ 3) && (pi == 0 || ((pi == 1 || pi == 3) && (lbaf == 1 || lbaf == 3)))

/-- An NSID that no namespace has: `pick` where it is one, else the lowest. -/
def State.freeNsid (s : State) (pick : Nat) : Nat :=
  let used := fun n : Nat => (tget? s.link.namespaces n).isSome
  if 0 < pick ∧ pick < 0xFFFFFFFE ∧ !used pick then pick
  else ((List.range (s.link.namespaces.length + 1)).map (· + 1)).find? (fun n => !used n) |>.getD 0

/-- NAMESPACE_MANAGEMENT_CREATE: the data structure gives size, format and protection, and in bytes 3072 and 3073 HOLDUP and PAIR;
`pick` is the NSID that the module gives (R121, R122 and its edges, R600). -/
def execNamespaceManagementCreate (q : Sqe) (pick : Nat) (s : State) : Result :=
  .next (s.pfCommand q (fun s =>
    let d := q.data
    let size := leAt d 0 8
    let lbaf := leAt d 26 1 % 16
    let pi := leAt d 29 1 % 8
    let holdup := leAt d 3072 1
    let pair := leAt d 3073 1
    if 1 < holdup ∨ 1 < pair ∨ (pair = 1 ∧ !s.pair.has) ∨ size = 0 then s.complete q .invalidField
    else if !formatOk lbaf pi then s.complete q .invalidFormat
    else if 1024 ≤ s.link.namespaces.length then s.complete q .nsIdUnavailable
    else
      let id := s.freeNsid pick
      let n : Namespace := { nsid := id, size := size, lbaf := lbaf, pi := pi, classJ := holdup == 1, pair := pair == 1 }
      if s.capacityLeft < n.size * n.lbaBytes then s.complete q .nsInsufficientCapacity
      else
        let m := s.manage
        let s := { s with link := { s.link with namespaces := tset s.link.namespaces id n }
                          manage := { m with nsKeys := tset m.nsKeys id (m.nextKey + 1), nextKey := m.nextKey + 1 } }
        s.complete q .success id))

/-- A namespace attribute notice (Table Host 3). -/
def State.nsNotice (s : State) (fn : Option Nat) : State := fn.elim s (fun n => s.notice n 0x00040002)

/-- A namespace goes, with its key, its map, its buffered data and its marks (R600 and its edges). -/
def State.deleteSpace (s : State) (id : Nat) : State :=
  let fn := (tget? s.link.namespaces id).bind (·.fn)
  let m := s.media
  let mine := fun k : Nat => k / 2 ^ 32 == id
  let s := { s with
    link := { s.link with namespaces := terase s.link.namespaces id }
    manage := { s.manage with nsKeys := terase s.manage.nsKeys id }
    media := { m with buffer := m.buffer.filter (fun e => e.nsid != id), deltaLog := m.deltaLog.filter (fun e => e.1 != id) }
    pair := { s.pair with dirty := s.pair.dirty.filter (fun k => !mine k), twinDirty := s.pair.twinDirty.filter (fun k => !mine k)
                          resyncLeft := s.pair.resyncLeft.filter (fun k => !mine k)
                          applied := s.pair.applied.filter (fun x => x.1 / 2 ^ 48 != id) } }
  s.nsNotice fn

/-- NAMESPACE_MANAGEMENT_DELETE of one namespace, or of every one under NSID 0xFFFF_FFFF (R121, R600 edges). -/
def execNamespaceManagementDelete (q : Sqe) (s : State) : Result :=
  .next (s.pfCommand q (fun s =>
    if q.nsid = 0xFFFFFFFF then (((s.link.namespaces.map (·.1)).foldl State.deleteSpace s)).complete q .success
    else if (tget? s.link.namespaces q.nsid).isNone then s.complete q .invalidNamespace
    else (s.deleteSpace q.nsid).complete q .success))

/-- Namespaces that may be attached to a function (Table Host 3). -/
def attachLimit (fn : Nat) : Nat := if fn = 0 then 256 else 64

/-- NAMESPACE_ATTACHMENT: CDW10 SEL 0 attaches, 1 detaches; the data holds the controller list: how many, then the identifier of each,
the number of its function (R120, R122 edges). -/
def execNamespaceAttachment (q : Sqe) (s : State) : Result :=
  .next (s.pfCommand q (fun s =>
    let count := leAt q.data 0 2
    let fn := leAt q.data 2 2
    let sel := dwField q.d10 0 4
    match tget? s.link.namespaces q.nsid with
    | none => s.complete q .invalidNamespace
    | some n =>
      let put := fun (x : Option Nat) => { s with link := { s.link with namespaces := tset s.link.namespaces q.nsid { n with fn := x } } }
      if 1 < sel then s.complete q .invalidField
      else if count = 0 ∨ 63 < fn then s.complete q .controllerListInvalid
      else if sel = 0 then
        if 1 < count ∨ n.fn.isSome then s.complete q .alreadyAttached
        else if attachLimit fn ≤ (s.link.namespaces.filter (fun x => x.2.fn == some fn)).length then s.complete q .attachmentLimit
        else ((put (some fn)).nsNotice (some fn)).complete q .success
      else if 1 < count ∨ n.fn ≠ some fn then s.complete q .nsNotAttached
      else ((put none).nsNotice (some fn)).complete q .success))

/-! ### Features -/

/-- SET_FEATURES_VOLATILE_WRITE_CACHE: WCE of the function (R128). -/
def execSetFeaturesVolatileWriteCache (q : Sqe) (s : State) : Result :=
  .next (s.command q true (fun s =>
    if saveBit q then s.complete q .featureNotSaveable
    else (s.setCtrl q.fn { s.ctrl q.fn with wce := bitAt q.d11.toNat 0 }).complete q .success))

/-- The fields of feature C2h in a dword (Table Tiers 3): LP_CLASS, QWARN. -/
def c2Word (v : Nat × Nat) : Nat := v.1 + 256 * v.2

/-- SET_FEATURES_PLACEMENT_DEFAULTS of the function's tenant, in force from the next tick (R319). -/
def execSetFeaturesPlacementDefaults (q : Sqe) (s : State) : Result :=
  .next (s.command q true (fun s =>
    let v := (dwField q.d11 0 2, dwField q.d11 8 7)
    if 100 < v.2 then s.complete q .invalidField
    else
      let s := { s with cage := { s.cage with c2 := tset s.cage.c2 q.fn v } }
      (if saveBit q then s.save (fun b => { b with c2 := tset b.c2 q.fn v }) else s).complete q .success))

/-- GET_FEATURES_PLACEMENT_DEFAULTS (R319). -/
def execGetFeaturesPlacementDefaults (q : Sqe) (s : State) : Result :=
  .next (s.command q true (fun s =>
    match selectField q with
    | 0 => s.complete q .success (c2Word (tgetD s.cage.c2 q.fn (2, 90)))
    | 1 => s.complete q .success (c2Word (2, 90))
    | 2 => s.complete q .success (c2Word (tgetD s.saved.c2 q.fn (2, 90)))
    | 3 => s.complete q .success (capabilities true true)
    | _ => s.complete q .invalidField))

/-- The configuration that CDW11 and CDW12 of a C3h Set give (Table Narrow 4). -/
def tapCfgOf (q : Sqe) : TapCfg :=
  { mode := dwField q.d11 8 2, fmt := dwField q.d11 10 2, head := dwField q.d11 12 4, thresh := dwField q.d11 16 16
    initScale := dwField q.d12 0 8 }

/-- SET_FEATURES_ASSAY_MODE: a tap of the function's tenant, from the next tick (R302, R303). -/
def execSetFeaturesAssayMode (q : Sqe) (s : State) : Result :=
  .next (s.command q true (fun s =>
    let c := tapCfgOf q
    if saveBit q then s.complete q .featureNotSaveable
    else if c.mode = 3 ∨ 8 < c.head ∨ (c.mode ≤ 1 ∧ (c.initScale < 0x5F ∨ 0x9F < c.initScale)) then s.complete q .invalidField
    else
      let k := q.fn * 256 + dwField q.d11 0 8
      (({ s with assay := { s.assay with taps := tmod s.assay.taps k {} (fun tp => { tp with pendCfg := some c }) } } : State)).complete q .success))

/-- The fields of a tap in a dword (Table Narrow 4). -/
def tapWord (tap : Nat) (c : TapCfg) : Nat := tap + 256 * c.mode + 1024 * c.fmt + 4096 * c.head + 65536 * c.thresh

/-- GET_FEATURES_ASSAY_MODE of the tap that CDW11 names: the fields last accepted (R302). -/
def execGetFeaturesAssayMode (q : Sqe) (s : State) : Result :=
  .next (s.command q true (fun s =>
    let n := dwField q.d11 0 8
    let tp := s.assay.tap q.fn n
    match selectField q with
    | 0 => s.complete q .success (tapWord n (tp.pendCfg.getD tp.cfg))
    | 1 => s.complete q .success (tapWord n {})
    | 2 => s.complete q .success (tapWord n {})
    | 3 => s.complete q .success (capabilities false true)
    | _ => s.complete q .invalidField))

end Sys2Proof.Machine
end

