-- ==== Sys2Proof/Machine/Compute.lean ====
section
/-!
DEFINITION. The compute and memory namespaces: programs, memory range sets, Memory Read and Memory Write (spec/05_host_link.md, R134 to
R137; spec/10, R286, R288; spec/13, R361 to R363; spec/21, R584).
-/
namespace Sys2Proof.Machine

/-- A byte of the offset space of an index or a KV object, and what such an object becomes when bytes of it are written: the spec gives
these objects' contents, not where each of them lies in the offset space (notes/assumptions/19.md). -/
opaque Config.structByte : ObjBody → Nat → Byte

/-- See `Config.structByte`: an index. -/
opaque Config.rewriteIndex : IndexBody → Nat → List Byte → Option IndexBody

/-- See `Config.structByte`: a KV object. -/
opaque Config.rewriteKv : KvBody → Nat → List Byte → Option KvBody

/-! ### Memory range sets (R134, R584) -/

/-- A function's compute namespace. -/
def State.computeOf (s : State) (fn : Nat) : ComputeNs := tgetD s.link.compute fn {}

/-- Change a function's compute namespace. -/
def State.setCompute (s : State) (fn : Nat) (c : ComputeNs) : State :=
  { s with link := { s.link with compute := tset s.link.compute fn c } }

/-- The reserved handle of the Tailings ring (R584). -/
def ringHandle : Nat := 0x0000FFFFFFFFFFFF

/-- A range that a set of a function may hold: of an object of its tenant, or on the PF the Tailings ring (R134, R584). -/
def State.rangeOk (s : State) (fn : Nat) (r : MemRange) : Bool :=
  if r.handle = ringHandle then fn == 0 && r.offset == 0 && decide (r.length ≤ s.tailings.size * 65536)
  else handleTenant r.handle == fn && (s.objects.named r.handle).isSome

/-- The lowest unused set identifier from 1. -/
def ComputeNs.freeSet (c : ComputeNs) : Nat :=
  ((List.range 17).map (· + 1)).find? (fun i => (tget? c.rangeSets i).isNone) |>.getD 17

/-- MEMORY_RANGE_SET_MANAGEMENT: create a set (op 0), change set `id` (1), or delete it (2); DW0 of a create is its identifier (R134). -/
def execMemoryRangeSetManagement (q : Sqe) (op id : Nat) (ranges : List MemRange) (s : State) : Result :=
  .next (s.command q false (fun s =>
    let c := s.computeOf q.fn
    let bad := decide (32 < ranges.length) || ranges.any (fun r => !s.rangeOk q.fn r)
    let put := fun (k : Nat) => s.setCompute q.fn { c with rangeSets := tset c.rangeSets k ranges }
    if op = 0 then
      if bad ∨ 16 ≤ c.rangeSets.length then s.complete q .invalidField
      else (put c.freeSet).complete q .success c.freeSet
    else if (tget? c.rangeSets id).isNone then s.complete q .invalidField
    else if op = 1 then (if bad then s.complete q .invalidField else (put id).complete q .success)
    else if op = 2 then (s.setCompute q.fn { c with rangeSets := terase c.rangeSets id }).complete q .success
    else s.complete q .invalidField))

/-- A place lies in one range of a set. -/
def inSet (rs : List MemRange) (r : MemRange) : Bool :=
  rs.any (fun x => x.handle == r.handle && decide (x.offset ≤ r.offset ∧ r.offset + r.length ≤ x.offset + x.length))

/-- The place that a memory command names through a set of its function: whole units, at most MDTS, within a range of the set and the
object's size (R134, R137 edges). -/
def State.placeOk (s : State) (fn set : Nat) (r : MemRange) : Bool :=
  let size := if r.handle = ringHandle then s.tailings.size * 65536 else (s.objects.named r.handle).elim 0 (·.size)
  match tget? (s.computeOf fn).rangeSets set with
  | none => false
  | some rs => r.offset % 64 == 0 && r.length % 64 == 0 && decide (r.length ≤ mdtsBytes) && inSet rs r && decide (r.offset + r.length ≤ size)

/-! ### Memory Read (R136, R137, R361) -/

/-- A trace record as 64 bytes (Table Tally 4). -/
def TraceRec.encode (r : TraceRec) : List Byte :=
  le 1 r.kind ++ le 1 r.tenant ++ le 1 (bit r.stale + 2 * bit r.unsurveyed) ++ le 1 0 ++ le 4 r.boot ++ le 8 r.pt ++ le 8 r.frame ++
    le 8 r.seq ++ le 8 r.ref ++ padTo 24 r.data

/-- Bytes of the Tailings ring: a unit that has not been written since start-up is zero (R581, R584). -/
def State.ringBytes (s : State) (off n : Nat) : List Byte :=
  (List.range (n / 64)).flatMap (fun i => match tget? s.tailings.ring (off / 64 + i) with
    | some r => r.encode
    | none => List.replicate 64 0)

/-- The units of an object in a range that read as uncorrectable: never written, marked in Tier H, or with an unreadable sector of
Tier F (R136, R137, R338, R361 edges). -/
def State.badUnits (s : State) (o : Object) (off n : Nat) : List Nat :=
  let marks := s.marksOf o
  let raw := match o.body with
    | .index _ => false
    | .kv _ => false
    | _ => !o.zeroed
  ((List.range (n / 64)).map (off / 64 + ·)).filter (fun u => marks.any (fun m => m.1 == u) || (raw && !o.units.contains u) ||
    s.coherence.hPoison.contains (unitAddress s.cage o u / 64))

/-- Bytes of an object as they travel: a unit that nothing has written as zeros (R137). -/
def Object.travel (o : Object) (c : Cage) (off n : Nat) : List Byte :=
  match o.body with
  | .index _ => (List.range n).map (fun i => Config.structByte o.body (off + i))
  | .kv _ => (List.range n).map (fun i => Config.structByte o.body (off + i))
  | _ => (List.range n).map (fun i => if o.zeroed || o.units.contains ((off + i) / 64) then heldByte c o (off + i) else 0)

/-- The host address of a byte of a data pointer. -/
def runAddress (rs : List (Nat × Nat)) (o : Nat) : Nat := (dropRuns rs o).head?.elim 0 (·.1)

/-- Ask the Cage for every lode of a range (R333, R334). -/
def State.wantLodes (s : State) (o : Object) (off n : Nat) : State :=
  { s with cage := (o.wlodes off n).foldl Cage.want s.cage }

/-- MEMORY_READ of `len` bytes of an object at `off`, through set `set`: it waits for lodes in Tier F; every byte is sent, the bad units
with EP set, and then it ends with Unrecovered Read Error (R134, R136, R137, R361, R584). -/
def execMemoryRead (q : Sqe) (set handle off len : Nat) (s : State) : Result :=
  .next (s.command q false (fun s =>
    let r : MemRange := { handle := handle, offset := off, length := len }
    if !s.placeOk q.fn set r then s.complete q .invalidField
    else if handle = ringHandle then (s.toHost q (s.ringBytes off len)).complete q .success
    else match s.objects.named handle with
      | none => s.complete q .invalidField
      | some o =>
        if !s.cage.allResident (o.wlodes off len) then s.wantLodes o off len
        else
          let s := (s.wantLodes o off len).snoopObject o off len
          let bad := s.badUnits o off len
          let s := s.toHost q (o.travel s.cage off len)
          if bad.isEmpty then s.complete q .success
          else
            let s := { s with link := { s.link with poisonedSent := s.link.poisonedSent ++ bad.map (fun u => runAddress q.buf (64 * u - off)) } }
            (s.smart q.fn (fun c => { c with mediaErrors := c.mediaErrors + 1 })).complete q .unrecoveredRead))

/-! ### Memory Write (R137, R339, R361 to R363) -/

/-- Objects whose Memory Write is in flight. -/
def State.setWriting (s : State) (num : Nat) (on : Bool) : State :=
  let l := s.objects.writing.filter (· != num)
  { s with objects := { s.objects with writing := if on then l ++ [num] else l } }

/-- An object with whole units written from `off` (R137, R339). -/
def Object.written (o : Object) (off : Nat) (d : List Byte) : Object :=
  let us := (List.range (d.length / 64)).map (off / 64 + ·)
  { o with
    bytes := csetBytes o.bytes off d, units := o.units.filter (fun u => !us.contains u) ++ us
    badUnits := o.badUnits.filter (fun b => !us.contains b.1)
    body := match o.body with
      | .index b => .index ((Config.rewriteIndex b off d).getD b)
      | .kv b => .kv ((Config.rewriteKv b off d).getD b)
      | b => b }

/-- What the resident lodes of a range hold beside the object's own bytes, by window lode: the marks, and the bytes that stewards stored, of
the units that the write does not cover stay (R335, R350). -/
def State.keptOver (s : State) (o : Object) (off n : Nat) : Tbl (Tbl Nat × Tbl Byte) :=
  (o.wlodes off n).map (fun w => (w, match s.cage.find w with
    | some h =>
      let apart := fun (u : Nat) => decide (u < off / 64 ∨ (off + n) / 64 ≤ u)
      let e := s.cage.entry h
      (e.poison.filter (fun m => apart ((w - o.base) * 1024 + m.1)), e.stored.filter (fun m => apart ((w - o.base) * 1024 + m.1 / 64)))
    | none => ([], [])))

/-- Put them back on the lodes that hold the range. -/
def State.setOver (s : State) (ms : Tbl (Tbl Nat × Tbl Byte)) : State :=
  ms.foldl (fun s (x : Nat × Tbl Nat × Tbl Byte) => match s.cage.find x.1 with
    | some h => { s with cage := { s.cage with map := tupd s.cage.map h (fun e => { e with poison := x.2.1, stored := x.2.2 }) } }
    | none => s) s

/-- The write of a range of an object removes every steward's copy of it (R349). -/
def State.invalidateObject (s : State) (o : Object) (off n : Nat) : State :=
  (o.wlodes off n).foldl (fun s w =>
    match s.cage.find w with
    | some h =>
      let lo := max off ((w - o.base) * lodeBytes)
      let hi := min (off + n) ((w - o.base + 1) * lodeBytes)
      s.invalidateHeld (h * lodeBytes + lo % lodeBytes) (hi - lo)
    | none => s) s

/-- The lodes that firmware hands out for the swaps of a write: (window lode, Tier H lode), each used once (R324, R335). -/
def State.swapsOf (s : State) (o : Object) (off n : Nat) (swaps : List (Nat × Nat)) : List (Nat × Nat) :=
  let free := s.handOut (swaps.map (·.2))
  swaps.foldl (fun a x => if free.contains x.2 && (o.wlodes off n).contains x.1 && !a.any (fun y => y.1 == x.1 || y.2 == x.2) then a ++ [x] else a) []

/-- MEMORY_WRITE of whole units of an object at `off`, through set `set`: one commit, by the lode swaps of R335, before the CQE. `ack` says
that the twin has made the change of a mirrored object (R134, R288, R339, R361 to R363, R394, R445, R584). -/
def execMemoryWrite (q : Sqe) (set handle off : Nat) (swaps : List (Nat × Nat)) (placed : List (Nat × Nat × Nat)) (ack : Bool) (s : State) :
    Result :=
  .next (s.command q false (fun s =>
    let n := q.data.length
    let num := objNumber handle
    match s.objects.named handle with
    | none => s.complete q .invalidField
    | some o =>
      if handle = ringHandle ∨ !s.placeOk q.fn set { handle := handle, offset := off, length := n } ∨ o.frozen then s.complete q .invalidField
      else if o.changingBy.isSome ∨ o.deletingBy.isSome then s.complete q .commandSequence
      else if s.media.wp then (s.setWriting num false).complete q .writeProtected
      else if !s.cage.allResident (o.wlodes off n) ∨ !s.mirrorReady handle ack then (s.wantLodes o off n).setWriting num true
      else
        let s := s.snoopObject o off n
        let over_ := s.keptOver o off n
        let s := s.commitObject s.packets.nextKey (o.written off q.data) (s.swapsOf o off n swaps) placed
        let bad := (o.written off q.data).badUnits
        let s := { s with objects := { s.objects with live := tupd s.objects.live num (fun x => { x with badUnits := x.badUnits.filter (fun b => bad.contains b) }) } }
        (((s.setOver over_).invalidateObject o off n).setWriting num false).complete q .success))

/-! ### Programs (R134, R135, R286, R288) -/

/-- Runs of a slot's program that EXECUTE PROGRAM began on a function and that are not answered. -/
def State.programRuns (s : State) (fn handle : Nat) : Bool :=
  s.packets.live.any (fun x => x.2.viaExecute && x.2.fn == fn && x.2.hdr.primary == handle && x.2.open_)

/-- The object that a program loaded on a function becomes: none where a limit or the reservations refuse it (R134, R159, R163, R314, R315,
R319). -/
def State.programObject (s : State) (fn : Nat) (d : List Byte) : Option Object :=
  let cls := placeClass (tgetD s.cage.lpClass fn 2)
  let lodes := ceilDiv d.length 65536
  let keeps := cls == .pinnedH || cls == .hot
  if 65536 ≤ (s.objectsOf fn).length ∨ 1048576 ≤ s.allObjects.length ∨ s.tierFFree < lodes ∨ (keeps ∧ !s.canCharge fn lodes) then none
  else (s.newObject fn .program cls d.length lodes 0 false).map (fun o =>
    { o with bytes := csetBytes [] 0 d, units := List.range (ceilDiv d.length 64) })

/-- LOAD_PROGRAM: the data is a whole program object for a slot, or `unload` empties the slot; it waits for the slot's running program.
`vendor` says that the program type is the Ruhaic one (R134, R137 edges, R286, R288). -/
def execLoadProgram (q : Sqe) (slot : Nat) (vendor unload : Bool) (swaps : List (Nat × Nat)) (placed : List (Nat × Nat × Nat)) (ack : Bool)
    (s : State) : Result :=
  .next (s.command q false (fun s =>
    let c := s.computeOf q.fn
    let old := tget? c.slots slot
    let runs := old.elim false (fun x => s.programRuns q.fn x.handle)
    if 63 < slot ∨ (unload ∧ old.isNone) then s.complete q .invalidField
    else if unload then
      if runs then s else (s.setCompute q.fn { c with slots := terase c.slots slot }).complete q .success
    else if !vendor ∨ 1572864 < q.data.length ∨ !programOk q.data q.data.length then s.complete q .invalidField
    else if runs then s
    else if old.elim false (fun x => (s.objects.named x.handle).elim false (·.frozen)) then s.complete q .invalidField
    else match s.programObject q.fn q.data with
      | none => s.complete q .invalidField
      | some o =>
        let sw := s.swapsOf o 0 (o.lodes * lodeBytes) swaps
        if !s.mirrorReady o.handle ack ∨ (o.cls = .pinnedH ∧ sw.length < o.lodes) then s
        else
          let s := if o.cls = .pinnedH ∨ o.cls = .hot then s.makeRoom q.fn o.lodes else s
          let s := { s with objects := { s.objects with nextNumber := s.objects.nextNumber + 1 } }
          let s := s.commitObject s.packets.nextKey o sw placed
          (s.setCompute q.fn { c with slots := tset c.slots slot { handle := o.handle } }).complete q .success))

/-- PROGRAM_ACTIVATION_MANAGEMENT: a slot's program becomes executable, or, once no run of it is left, no longer (R134, R137 edges). -/
def execProgramActivationManagement (q : Sqe) (slot : Nat) (active : Bool) (s : State) : Result :=
  .next (s.command q false (fun s =>
    let c := s.computeOf q.fn
    match tget? c.slots slot with
    | none => s.complete q .invalidField
    | some x =>
      if !active ∧ s.programRuns q.fn x.handle then s
      else (s.setCompute q.fn { c with slots := tset c.slots slot { x with active := active } }).complete q .success))

/-- A packet ID that no outstanding packet of a tenant has. -/
def State.spareId (s : State) (n : Nat) : Nat :=
  let used := (s.counted.filter (fun p => p.tenant == n)).map (·.hdr.packetId)
  ((List.range (used.length + 1)).map (2 ^ 64 - 1 - ·)).find? (fun i => !used.contains i) |>.getD 0

/-- EXECUTE_PROGRAM: the program of an active slot runs as a best-effort RUN PROGRAM, from entry `entry` on `cores` cores, with the command's
data as its parameters. `input` and `output` are its data buffers, in one memory range set (R134, R135). -/
def execExecuteProgram (q : Sqe) (slot set entry cores : Nat) (input output : Option MemRange) (s : State) : Result :=
  .next (s.command q false (fun s =>
    let c := s.computeOf q.fn
    let place := fun (r : Option MemRange) => r.elim true (s.placeOk q.fn set)
    match tget? c.slots slot with
    | none => s.complete q .invalidField
    | some x =>
      let outObj := output.bind (fun r => s.objects.named r.handle)
      let ringUsed := (input.toList ++ output.toList).any (fun r => r.handle == ringHandle)
      let busy := outObj.elim false (fun o => o.frozen || o.changingBy.isSome || o.deletingBy.isSome)
      if !x.active ∨ 192 < q.data.length ∨ !place input ∨ !place output ∨ ringUsed ∨ busy then s.complete q .invalidField
      else
        let block := le 2 entry ++ le 2 cores ++ le 4 q.data.length ++ le 8 (input.elim 0 (·.offset)) ++ le 8 (input.elim 0 (·.length)) ++ le 8 0 ++ q.data
        let h : Header :=
          { opcode := 0x0601, version := 1, packetId := s.spareId q.fn, paramAddr := 4096, paramLen := block.length
            answerLen := output.elim 0 (·.length), primary := x.handle, secondary := input.elim 0 (·.handle) }
        match s.validate q.fn h [] (some block) 4096 with
        | .error r => s.complete q .invalidField r.status.code
        | .ok d =>
          let key := s.packets.nextKey
          let s := s.receive q { arrival := 0, packet := true, backlog := 0, doorbellNs := s.now } h d []
          let s := s.modPacket key (fun p => { p with viaExecute := true, out := output.map (fun r => (r.handle, r.offset)) })
          match output with
          | some r => { s with objects := { s.objects with live := tupd s.objects.live (objNumber r.handle) (fun o => { o with changingBy := some key }) } }
          | none => s))

end Sys2Proof.Machine
end

