-- ==== Sys2Proof/Machine/Registers.lean ====
section
/-!
DEFINITION. Accesses to BAR2 and to the tenant windows: reads with their latches and clears, writes field by field by class, requests of
other shapes, and the background scrub of Tier S (spec/20_register_map.md, R555 to R560, R564, R569; spec/00_scope.md, R12, R15 to R17;
spec/17, R480; spec/12, R322).
-/
namespace Sys2Proof.Machine

/-! ### Reads -/

/-- BAR2 can be reached over the host link: D1 is powered, no loss of power is declared, and the link is up (R533, R554). -/
def State.reachable (s : State) : Bool := !s.power.off && s.power.lossDeclared.isNone && s.link.up && s.done .d0 && !s.power.perst

/-- An RC field's read clears it (Table Scope 3): what the block keeps after it. PEAK restarts at BACKLOG (Table Frame 3). -/
def State.clearRc (s : State) (off : Nat) : State :=
  let drift := fun (f : DriftRegs → DriftRegs) => { s with blocks := { s.blocks with drifts := tmod s.blocks.drifts ((off - 0x100000) / 0x1000) {} f } }
  let flash := fun (f : Drift → Drift) => s.modDrift ((off - 0x100000) / 0x1000) f
  let cluster := fun (f : ClusterRegs → ClusterRegs) =>
    { s with blocks := { s.blocks with clusters := tmod s.blocks.clusters ((off - 0x200000) / 0x1000) {} f } }
  let set := fun (f : AssaySet → AssaySet) => { s with assay := { s.assay with sets := tupd s.assay.sets ((off - 0x700100) / 16) f } }
  if 0x50000 ≤ off ∧ off < 0x51770 then
    (if off % 16 = 8 ∧ (s.unit ((off - 0x50000) / 16)).faults ≠ 0 then s.modUnit ((off - 0x50000) / 16) (fun e => { e with faults := 0 }) else s)
  else if 0x100000 ≤ off ∧ off < 0x140000 then
    match off % 0x1000 with
    | 0x00 => flash (fun d => { d with suspCnt := 0 })
    | 0x04 => flash (fun d => { d with limitCnt := 0 })
    | 0x08 => flash (fun d => { d with retryCnt := 0 })
    | 0x0C => flash (fun d => { d with ueCnt := 0 })
    | 0x28 => drift (fun d => { d with busy := 0 })
    | 0x2C => drift (fun d => { d with xstall := 0 })
    | 0x30 => drift (fun d => { d with seCe := 0, seUe := 0 })
    | 0x34 => drift (fun d => { d with lodes := 0 })
    | _ => s
  else if 0x200000 ≤ off ∧ off < 0x20C000 then
    let o := off % 0x1000
    if 0x100 ≤ o ∧ o < 0x140 then cluster (fun c => { c with faults := terase c.faults ((o - 0x100) / 4) })
    else match o with
    | 0x08 => cluster (fun c => { c with busy := 0 })
    | 0x0C => cluster (fun c => { c with xstall := 0 })
    | 0x10 => cluster (fun c => { c with seCe := 0, seUe := 0 })
    | _ => s
  else if 0x600100 ≤ off ∧ off < 0x600280 then
    let p := (off - 0x600100) / 0x20
    match (off - 0x600100) % 0x20 with
    | 0x04 => s.modPort p (fun x => { x with fecCorr := 0 })
    | 0x08 => s.modPort p (fun x => { x with crcErr := 0 })
    | 0x0C => s.modPort p (fun x => { x with retry := 0 })
    | 0x10 => s.modPort p (fun x => { x with downCnt := 0 })
    | _ => s
  else if 0x700100 ≤ off ∧ off < 0x700100 + 16 * 76 then
    match off % 16 with
    | 0 => set (fun x => { x with untapped := 0 })
    | 4 => set (fun x => { x with overflow := 0 })
    | 8 => set (fun x => { x with hold := 0 })
    | _ => s
  else match off with
  | 0x28 => { s with global := { s.global with wrqCnt := 0 } }
  | 0x1001C => { s with meridian := { s.meridian with ackLateCnt := 0 } }
  | 0x10020 => { s with meridian := { s.meridian with peak := s.meridian.backlog } }
  | 0x20014 => { s with orrery := { s.orrery with demotedCnt := 0 } }
  | 0x20018 => { s with orrery := { s.orrery with refusedCnt := 0 } }
  | 0x30030 => { s with lodestar := { s.lodestar with switchCnt := 0 } }
  | 0x4001C => { s with power := { s.power with xstall := 0 } }
  | 0x40028 => { s with power := { s.power with evqLost := 0 } }
  | 0x300004 => { s with cage := { s.cage with ceCnt := 0 } }
  | 0x300008 => { s with cage := { s.cage with ueCnt := 0 } }
  | 0x400300 => { s with cage := { s.cage with missCnt := 0 } }
  | 0x400304 => { s with cage := { s.cage with unplannedCnt := 0 } }
  | 0x400308 => { s with cage := { s.cage with overdraftCnt := 0 } }
  | 0x500004 => { s with coherence := { s.coherence with snoopHit := 0 } }
  | 0x500008 => { s with coherence := { s.coherence with writeback := 0 } }
  | 0x50000C => { s with coherence := { s.coherence with ringSnoop := 0 } }
  | 0x500010 => { s with coherence := { s.coherence with poisonWb := 0 } }
  | 0x90001C => { s with tailings := { s.tailings with wrapCnt := 0 } }
  | 0x900020 => { s with tailings := { s.tailings with dropCnt := 0 } }
  | _ => s

/-- A dword of the bank window: zero while firmware owns the flash, FWF_STATUS while the bank is busy, else the bytes of the sector that
FWF_WIN selects (R524, R527, R530). -/
def State.windowRead (s : State) (o : Nat) : Nat × State :=
  let f := s.flash
  if !f.hostOwns then (0, s)
  else if f.busy.any (fun b => b.bank == f.staging) then (f.status, s)
  else
    let base := flashSectorBytes * f.win + o
    let step := fun (acc : List Byte × State) (i : Nat) => let (b, s) := acc.2.flashByte f.staging (base + i); (acc.1 ++ [b], s)
    let (bs, s) := (List.range 4).foldl step ([], s)
    (fromLe bs, s)

/-- The value an access path finds at an offset: the PF's BAR2 and the management path (64) see BAR2, VF `n` its tenant window. -/
def State.pathValue (s : State) (path off : Nat) : Nat × State :=
  if path ≠ 0 ∧ path ≠ 64 then (s.windowReg path off, s)
  else if 0xA10000 ≤ off ∧ off < 0xA20000 then s.windowRead (off - 0xA10000)
  else (s.regNow off, s)

/-- A path's latch of a LO register (R556). -/
def latchKey (path off : Nat) : Nat := path * 2 ^ 26 + off

/-- One dword read on a path: a LO register latches its high half, a HI register returns the latch, and an RC field of a powered block is
cleared where `clears` says so (R62, R480, R556, R591). -/
def State.readDword (s : State) (path off : Nat) (clears : Bool) : Nat × State :=
  if 4 ≤ off ∧ isLo path (off - 4) then (tgetD s.global.latches (latchKey path (off - 4)) 0, s)
  else
    let (v, s) := s.pathValue path off
    let s := if isLo path off then
        let hi := (s.pathValue path (off + 4)).1
        { s with global := { s.global with latches := tset s.global.latches (latchKey path off) hi } }
      else s
    (v, if clears ∧ path = 0 ∧ s.blockPowered off then s.clearRc off else s)

/-- Consecutive dwords read on a path, the lowest first (R555). -/
def State.readDwords (s : State) (path off : Nat) (clears : Bool) : Nat → List Nat × State
  | 0 => ([], s)
  | n + 1 =>
    let (v, s) := s.readDword path off clears
    let (vs, s) := s.readDwords path (off + 4) clears n
    (v :: vs, s)

/-- A request of `n` bytes at an offset, all its byte enables set, that the window accepts: one aligned dword, or two that do not cross a
4 KiB boundary (R555). -/
def shapeOk (off n : Nat) : Bool := off % 4 == 0 && (n == 4 || (n == 8 && decide (off % 4096 ≤ 4088)))

/-- A request of another shape to the PF's window: a read returns zeros, a write does nothing, and BADACC tells of it (R555). -/
def State.badAccess (s : State) (off n : Nat) (write : Bool) : State :=
  let s := { s with global := { s.global with badacc := true, badaccAddr := off % 2 ^ 26 } }
  if write then s else { s with link := { s.link with readData := List.replicate (ceilDiv n 4) 0 } }

/-- A host read of one or two dwords on the path of a function (R555, R556). -/
def State.hostRead (s : State) (path off : Nat) (two : Bool) : State :=
  let n := if two then 2 else 1
  if !s.reachable ∨ 63 < path ∨ (path ≠ 0 ∧ !s.link.vfEnabled.contains path) then s
  else if !shapeOk off (4 * n) then (if path = 0 then s.badAccess off (4 * n) false else { s with link := { s.link with readData := List.replicate n 0 } })
  else
    let s := s.accrueBusy (fun _ => true)
    let (vs, s) := s.readDwords path off true n
    { s with link := { s.link with readData := vs } }

/-- LATCHING_PAIR_READ: a read of a LO register, alone or with its HI (R62, R555, R556). -/
def execLatchingPairRead (t path off : Nat) (two : Bool) (s : State) : Result := .next ((s.at t).hostRead path off two)

/-- RC_FIELD_READ: a read of an RC field on the PF (R12, R555). -/
def execRcFieldRead (t off : Nat) (two : Bool) (s : State) : Result := .next ((s.at t).hostRead 0 off two)

/-- BAD_ACCESS: a request of `n` bytes, whose byte enables are all set or not (R555). -/
def execBadAccess (t off n : Nat) (enables write : Bool) (s : State) : Result :=
  let s := s.at t
  if !s.reachable ∨ (enables ∧ shapeOk off n) then .next s else .next (s.badAccess off n write)

/-! ### Writes -/

/-- The unit is quiesced: HELD, or RESETTING, which begins when its drain has ended (R503). -/
def UnitEntry.quiesced (e : UnitEntry) : Bool := e.state == .held || e.state == .resetting

/-- A Q-class write that finds its unit not quiesced is ignored, and says so (R559). -/
def State.qIgnored (s : State) (u off v : Nat) : State :=
  let e := s.unit u
  let b := s.blocks
  let g := s.global
  let blocks := if u < 320 then { b with drifts := tmod b.drifts (u - 256) {} (fun d => { d with wrq := true }) }
    else { b with clusters := tmod b.clusters (u - 320) {} (fun c => { c with wrq := true }) }
  let s := { s with global := { g with wrq := true, wrqAddr := off, wrqCnt := satAdd 16 g.wrqCnt 1 }, blocks := blocks }
  let s := s.modUnit u (fun e => { e with wrq := true, qRaised := true })
  if e.qRaised then s
  else s.raiseM 0x0903 (le 2 u ++ le 6 e.epoch ++ [BitVec.ofNat 8 e.state.code] ++ le 4 off ++ le 4 v)

/-- DRIFT_CFG as a write leaves it, field by field; an unlisted encoding keeps the field (Table Reg 4, R17). -/
def DriftRegs.writeCfg (d : DriftRegs) (v : Nat) : DriftRegs :=
  let r := signed 8 v
  { d with readRef := if -32 ≤ r ∧ r ≤ 31 then field v 0 8 else d.readRef
           drive := if field v 8 2 = 3 then d.drive else field v 8 2
           odt := if field v 12 2 = 3 then d.odt else field v 12 2 }

/-- A write to DRIFT_CFG or CL_CFG (R559). -/
def State.qWrite (s : State) (off v : Nat) : State :=
  let b := s.blocks
  if off < 0x200000 then
    let n := (off - 0x100000) / 0x1000
    if (s.unit (256 + n)).quiesced then { s with blocks := { b with drifts := tmod b.drifts n {} (fun d => d.writeCfg v) } }
    else s.qIgnored (256 + n) off v
  else
    let k := (off - 0x200000) / 0x1000
    if (s.unit (320 + k)).quiesced then { s with blocks := { b with clusters := tmod b.clusters k {} (fun c => { c with scrub := field v 0 8 }) } }
    else s.qIgnored (320 + k) off v

/-- TRC_CFG: SIZE is saved for the next cold module reset; ENABLE and WRAP govern from the next tick, and ENABLE set after it was clear
restarts the ring (R557, R558, R582). -/
def State.writeTraceCfg (s : State) (v : Nat) : State :=
  let n := field v 0 17
  let s := if 1024 ≤ n ∧ n ≤ 65536 then
      ({ s with tailings := { s.tailings with sizeNext := n } } : State).save (fun b => { b with trcSize := n })
    else s
  let t := s.tailings
  let on := bitAt v 20
  let restart := if !on then none else if t.cfgNext.enable then t.restart else some s.meridian.frame
  { s with tailings := { t with cfgNext := { t.cfgNext with enable := on, wrap := bitAt v 21 }, restart := restart, wrq := t.wrq && !bitAt v 31 } }

/-- A write to the firmware flash block or the bank window by the host (R524 to R528). -/
def State.writeFlash (s : State) (o v : Nat) : State :=
  let f := s.flash
  let host := fun (k : Flash → Flash) => { s with flash := f.access true k }
  if 0x10000 ≤ o then host (fun f => f.cycle true (o - 0x10000) v)
  else if 0x100 ≤ o ∧ o < 0x200 then host (fun f => { f.disarm with buf := csetBytes f.buf (o - 0x100) ((le 4 v).map (fun b => ~~~b)) })
  else match o with
  | 0x00 => host (fun f => f.key (field v 0 16))
  | 0x04 => host (fun f => f.cmd true (field v 0 8))
  | 0x08 => host (fun f => { f.disarm with addr := field v 0 25 })
  | 0x0C =>
    let f := f.disarm
    { s with flash := { f with errKey := f.errKey && !bitAt v 4, errOwn := f.errOwn && !bitAt v 5, errSeq := f.errSeq && !bitAt v 6
                               wrq := f.wrq && !bitAt v 31 } }
  | 0x10 => { s with flash := f.disarm }
  | 0x14 => host (fun f => { f.disarm with win := field v 0 9 })
  | _ => s

/-- A write to a register of the Tier H, Cage and Stope blocks (Table Tiers 9). -/
def State.writeCage (s : State) (off v : Nat) : State :=
  let c := s.cage
  if off = 0x300000 then
    ({ s with cage := { c with h2Next := bitAt v 0 } } : State).save (fun b => { b with heccLevel := bitAt v 0 })
  else if off = 0x400000 then { s with cage := { c with qrej := c.qrej && !bitAt v 0, wrq := c.wrq && !bitAt v 31 } }
  else if off = 0x400010 then
    let n := field v 0 23
    if 0x10000 ≤ n ∧ n ≤ 0x80000 then
      ({ s with cage := { c with poolNext := n } } : State).save (fun b => { b with poolSize := n })
    else s
  else if 0x400100 ≤ off ∧ off < 0x400200 then s.writeQuota ((off - 0x400100) / 4) (field v 0 23)
  else s

/-- A write of one dword to a powered block of BAR2, field by field: RW fields by their class, W1C bits, WO fields; fields that software
cannot write, and offsets that hold no register, are unchanged (R16, R17, R557 to R559, Table Scope 3). -/
def State.writeReg (s : State) (off v : Nat) : State :=
  let wrq := !bitAt v 31
  if 0x50000 ≤ off ∧ off < 0x51770 then
    (if off % 16 = 0 ∧ bitAt v 4 then s.modUnit ((off - 0x50000) / 16) (fun e => { e with wrq := false }) else s)
  else if 0x100000 ≤ off ∧ off < 0x140000 then
    (if off % 0x1000 = 0x20 then s.qWrite off v
     else if off % 0x1000 = 0x24 then
       { s with blocks := { s.blocks with drifts := tmod s.blocks.drifts ((off - 0x100000) / 0x1000) {} (fun d => { d with wrq := d.wrq && wrq }) } }
     else s)
  else if 0x200000 ≤ off ∧ off < 0x20C000 then
    (if off % 0x1000 = 0 then s.qWrite off v
     else if off % 0x1000 = 4 then
       { s with blocks := { s.blocks with clusters := tmod s.blocks.clusters ((off - 0x200000) / 0x1000) {} (fun c => { c with wrq := c.wrq && wrq }) } }
     else s)
  else if 0x300000 ≤ off ∧ off < 0x401000 then s.writeCage off v
  else if 0xA00000 ≤ off ∧ off < 0xA20000 then s.writeFlash (off - 0xA00000) v
  else match off with
  | 0x20 => { s with global := { s.global with badacc := s.global.badacc && !bitAt v 29, wrq := s.global.wrq && wrq } }
  | 0x2C => { s with global := { s.global with scratch := v } }
  | 0x10018 => { s with meridian := { s.meridian with ackLate := s.meridian.ackLate &&& ~~~(BitVec.ofNat 11 v)
                                                      wrq := s.meridian.wrq && !bitAt v 17 } }
  | 0x20000 => { s with orrery := { s.orrery with wrq := s.orrery.wrq && wrq } }
  | 0x30000 => { s with lodestar := { s.lodestar with cmdRej := s.lodestar.cmdRej && !bitAt v 14, wrq := s.lodestar.wrq && wrq } }
  | 0x3000C => s.lodCmd v
  | 0x40000 => { s with power := { s.power with offwr := s.power.offwr && !bitAt v 30, wrq := s.power.wrq && wrq } }
  | 0x40010 =>
    let p := s.power
    { s with power := { p with stepCNext := if 85 ≤ field v 0 8 ∧ field v 0 8 ≤ 105 then field v 0 8 else p.stepCNext
                               hystNext := if 4 ≤ field v 8 4 then field v 8 4 else p.hystNext } }
  | 0x180000 =>
    let m := s.media
    { s with media := { m with patrolNext := if 24 ≤ field v 0 9 ∧ field v 0 9 ≤ 336 then field v 0 9 else m.patrolNext, wrq := m.wrq && wrq } }
  | 0x500000 => { s with coherence := { s.coherence with wrq := s.coherence.wrq && wrq } }
  | 0x600000 => { s with pair := { s.pair with wrq := s.pair.wrq && wrq } }
  | 0x700000 => { s with assay := { s.assay with wrq := s.assay.wrq && wrq } }
  | 0x800000 => { s with tally := { s.tally with wrq := s.tally.wrq && wrq } }
  | 0x80000C => s.askClear v
  | 0x900000 => s.writeTraceCfg v
  | 0x900004 =>
    let c := s.tailings.cfgNext
    { s with tailings := { s.tailings with cfgNext := { c with tenants := BitVec.ofNat 64 (c.tenants.toNat / 2 ^ 32 * 2 ^ 32 + v) } } }
  | 0x900008 =>
    let c := s.tailings.cfgNext
    { s with tailings := { s.tailings with cfgNext := { c with tenants := BitVec.ofNat 64 (c.tenants.toNat % 2 ^ 32 + v * 2 ^ 32) } } }
  | 0x90000C => { s with tailings := { s.tailings with cfgNext := { s.tailings.cfgNext with kinds := BitVec.ofNat 16 v } } }
  | 0x900010 => { s with tailings := { s.tailings with cfgNext := { s.tailings.cfgNext with evgroups := BitVec.ofNat 16 v &&& 0x1FFE } } }
  | 0xB01100 => { s with almanac := { s.almanac with wrq := s.almanac.wrq && wrq } }
  | 0xC00000 => { s with log := { s.log with wrq := s.log.wrq && wrq } }
  | _ => s

/-- A write of one dword: to a block of an unpowered domain it is ignored, and OFFWR is set (R480). -/
def State.writeDword (s : State) (off v : Nat) : State :=
  if s.blockPowered off then s.writeReg off v else s.offWrite

/-- A host write of one or two dwords on the path of a function; a VF's window takes no write (R555, R569). -/
def State.hostWrite (s : State) (path off : Nat) (v : BitVec 32) (second : Option (BitVec 32)) : State :=
  if !s.reachable ∨ path ≠ 0 then s
  else if !shapeOk off (if second.isSome then 8 else 4) then s.badAccess off (if second.isSome then 8 else 4) true
  else
    let s := s.writeDword off v.toNat
    second.elim s (fun w => s.writeDword (off + 4) w.toNat)

/-- REGISTER_WRITE (R16, R17, R480, R555, R557, R558). -/
def execRegisterWrite (t path off : Nat) (v : BitVec 32) (second : Option (BitVec 32)) (s : State) : Result :=
  .next ((s.at t).hostWrite path off v second)

/-- Q_CLASS_WRITE: a write to DRIFT_CFG of drift `n`, or to CL_CFG of cluster `n` − 64 (R559). -/
def execQClassWrite (t n : Nat) (v : BitVec 32) (s : State) : Result :=
  let s := s.at t
  if 76 ≤ n then .next s
  else .next (s.hostWrite 0 (if n < 64 then 0x100020 + 0x1000 * n else 0x200000 + 0x1000 * (n - 64)) v none)

/-- STP_QUOTA_WRITE: a write to the quota of tenant `n` (R322). -/
def execStpQuotaWrite (t n : Nat) (v : BitVec 32) (s : State) : Result :=
  let s := s.at t
  if 64 ≤ n then .next s else .next (s.hostWrite 0 (0x400100 + 4 * n) v none)

/-! ### The background scrub of Tier S (R564) -/

/-- TIER_S_BACKGROUND_SCRUB of cluster `k`: so many words corrected, and the 64-bit words (core of the cluster, word) beyond repair, which
are marked (R564, Table Fault 5). With SCRUB 0 there is none. -/
def execTierSBackgroundScrub (t k corrected : Nat) (bad : List (Nat × Nat)) (s : State) : Result :=
  let s := s.at t
  let c := tgetD s.blocks.clusters k {}
  if 12 ≤ k ∨ c.scrub = 0 ∨ !s.powered (unitDomain (320 + k)) then .next s
  else
    let ws := bad.filter (fun b => decide (b.1 < 16 ∧ b.2 < 196608))
    let s := { s with blocks := { s.blocks with clusters := tset s.blocks.clusters k { c with seCe := satAdd 16 c.seCe corrected
                                                                                              seUe := satAdd 16 c.seUe ws.length } } }
    .next (ws.foldl (fun s b =>
      let n := 64 + 16 * k + b.1
      s.setCore n { s.core n with bankPoison := if (s.core n).bankPoison.contains b.2 then (s.core n).bankPoison else (s.core n).bankPoison ++ [b.2] }) s)

end Sys2Proof.Machine
end

