-- ==== Sys2Proof/Machine/Security.lean ====
section
/-!
DEFINITION. Sanitize commands and their log page, SMART and health, and Power On Hours (spec/22_management_and_security.md, R604 to R607,
R610, R611).
-/
namespace Sys2Proof.Machine

/-! ### Sanitize (R604 to R606) -/

/-- A Sanitize on a queue: on the PF only; its CQE posts once the operation has started (R604, R605). -/
def State.sanitizeCommand (s : State) (q : Sqe) : State :=
  s.pfCommand q (fun s => let (s, st) := s.startSanitize q.d10.toNat; s.complete q st)

/-- SANITIZE_CRYPTO_ERASE: SANACT 100b (R605). -/
def execSanitizeCryptoErase (q : Sqe) (s : State) : Result := .next (s.sanitizeCommand q)

/-- SANITIZE_BLOCK_ERASE: SANACT 010b (R605). -/
def execSanitizeBlockErase (q : Sqe) (s : State) : Result := .next (s.sanitizeCommand q)

/-- SANITIZE_RESUME: once stage 6b has ended, an interrupted sanitize goes on at the start of the saved step (R606). -/
def execSanitizeResume (t : Nat) (s : State) : Result :=
  let s := s.at t
  let z := s.manage.sanitize
  if !z.running ∨ z.active ∨ !s.done .mount ∨ s.global.mfault then .next s
  else .next { s with manage := { s.manage with sanitize := { z with active := true, began := s.now, frame := s.meridian.frame, driftsReset := false } } }

/-- Log page 81h: SPROG, SSTAT, CDW10 of the last sanitize, and the estimates in seconds: none for overwrite and without deallocation
(R606). `progress` is the fraction that the spec does not state. -/
def State.pageSanitize (s : State) (progress : Nat) : List Byte :=
  let z := s.manage.sanitize
  let none_ := 0xFFFFFFFF
  padTo 512 (le 2 (if z.running then progress else 0xFFFF) ++ le 2 (if z.running then 2 else bit z.completed) ++ le 4 z.cdw10 ++ le 4 none_ ++
    le 4 (if s.media.q246 then 15 else 10) ++ le 4 5 ++ le 4 none_ ++ le 4 none_ ++ le 4 none_)

/-- GET_LOG_PAGE_SANITIZE_STATUS (R606). -/
def execGetLogPageSanitizeStatus (q : Sqe) (s : State) : Result :=
  .next (s.command q true (fun s =>
    let (k, s) := s.draw
    s.logPage q (s.pageSanitize (Config.freeNat k % 65536))))

/-! ### SMART and health (R610, R611) -/

/-- A unit is out of service. -/
def State.unitOut (s : State) : Bool := (List.range unitCount).any (fun u => (s.unit u).state == .outOfService)

/-- The Critical Warning bits (Table Mgmt 8). -/
def State.criticalWarning (s : State) : Nat :=
  bit s.media.smartBit0 + 2 * bit s.power.smartBit1 + 4 * bit (s.media.smartBit2 || s.unitOut) +
    8 * bit (s.media.wp || s.log.stage == 3) + 16 * bit s.media.holdupDegr

/-- Composite Temperature in kelvin; 0 before any powered domain has been sampled (notes/assumptions/21.md). -/
def State.compositeKelvin (s : State) : Nat := s.composite.elim 0 (fun c => (c + 273).toNat)

/-- Quads of a drift, and its rated program and erase cycles (Table Flash 1). -/
def driftQuads : Nat := 16 * 1360

/-- See `driftQuads`. -/
def Media.ratedCycles (m : Media) : Nat := if m.q246 then 1500 else 5000

/-- Erases of all quads of a drift. -/
def Drift.eraseSum (d : Drift) : Nat := sumNat (d.quads.map (fun x => x.2.erases)) + d.allErases * driftQuads - sumNat (d.quads.map (fun x => x.2.skipped))

/-- Percentage Used: of the drift with the highest mean erase count, rounded down (Table Mgmt 9). -/
def State.percentUsed (s : State) : Nat :=
  min 255 (maxNat (s.media.drifts.map (fun x => 100 * x.2.eraseSum / (driftQuads * s.media.ratedCycles))))

/-- A minute, in ns. -/
def minuteNs : Nat := 60000000000

/-- Power On Hours: as persisted, and the whole hours since (R611). -/
def State.powerOnHours (s : State) : Nat := s.saved.powerOnHours + (s.now - s.manage.hoursAt) / hourNs

/-- Data units in thousands of 512 bytes, rounded up. -/
def unitsOf (whole rest : Nat) : Nat := whole + bit (rest != 0)

/-- Log page 02h of a function, as it lies in NVMe's SMART / Health Information page (R610, Table Mgmt 9; notes/assumptions/21.md). -/
def State.pageSmart (s : State) (fn : Nat) : List Byte :=
  let s := s.accrueTemp
  let c := tgetD s.manage.smart fn {}
  let busy := c.busyNs + c.busySince.elim 0 (s.now - ·)
  padTo 512 (le 1 s.criticalWarning ++ le 2 s.compositeKelvin ++ le 1 s.media.avSpare ++ le 1 10 ++ le 1 s.percentUsed ++ le 26 0 ++
    le 16 (unitsOf c.unitsRead c.readBytes) ++ le 16 (unitsOf c.unitsWritten c.writtenBytes) ++ le 16 c.reads ++ le 16 c.writes ++
    le 16 (busy / minuteNs) ++ le 16 s.saved.powerCycles ++ le 16 s.powerOnHours ++ le 16 s.saved.unsafeShutdowns ++ le 16 c.mediaErrors ++
    le 16 0 ++ le 4 (s.manage.warnTempNs / minuteNs) ++ le 4 (s.manage.critTempNs / minuteNs))

/-- GET_LOG_PAGE_SMART (R610, R611). -/
def execGetLogPageSmart (q : Sqe) (s : State) : Result := .next (s.command q true (fun s => s.logPage q (s.pageSmart q.fn)))

/-- POWER_ON_HOURS_PERSIST: once a powered hour (R611). -/
def execPowerOnHoursPersist (t : Nat) (s : State) : Result :=
  let s := s.at t
  let n := (s.now - s.manage.hoursAt) / hourNs
  if n = 0 ∨ !s.powered 4 ∨ s.global.mfault then .next s
  else .next { s with saved := { s.saved with powerOnHours := s.saved.powerOnHours + n }
                      manage := { s.manage with hoursAt := s.manage.hoursAt + n * hourNs } }

end Sys2Proof.Machine
end

