-- ==== Sys2Proof/Machine/Management.lean ====
section
/-!
DEFINITION. The management path: NVMe-MI, MCTP and PLDM; SPDM measurements and sessions (spec/22_management_and_security.md, R587 to R599).
-/
namespace Sys2Proof.Machine

/-- The VPD of the FRU device, whose contents the spec does not give (notes/assumptions/3.md). -/
opaque Config.vpdByte : Nat → Byte

/-- The digest of the boot ROM, whose contents the spec does not give. -/
opaque Config.romDigest : BitVec 384

/-- The digest of an image: of which bytes of its slot the spec does not say. -/
opaque Config.imageDigest : ImageInfo → Cells → BitVec 384

/-- The digest of the saved configuration, whose form the spec does not give. -/
opaque Config.configDigest : Nat × Option Word32 × Tbl Nat × Option OrreryTable × Bool × Nat × Nat → Nat → BitVec 384

/-- An ECDSA P-384 signature under the device identity key; the second argument is a fresh number. -/
opaque Config.signature : List Byte → Nat → BitVec 768

/-! ### Health as NVMe-MI reports it (R589, R611) -/

/-- The functions there are, which are the controllers. -/
def State.controllerIds (s : State) : List Nat := 0 :: s.link.vfEnabled

/-- CSTS of a controller: RDY, CFS, SHST, and PP while an activation runs. -/
def State.csts (s : State) (fn : Nat) : Nat :=
  let c := s.ctrl fn
  bit c.ready + 2 * bit c.cfs + c.shst <<< 2 + bit s.activation.pp <<< 5

/-- What Composite Controller Status compares, by the number of its bit: RDY, CFS and SHST of every controller, the temperature,
Percentage Used, Available Spare and Critical Warning (notes/assumptions/22.md). -/
def State.healthNow (s : State) : Tbl Nat :=
  let packed := fun (f : Nat → Nat) => sumNat (s.controllerIds.map (fun n => f n <<< (2 * n)))
  [(0, packed (fun n => bit (s.ctrl n).ready)), (1, packed (fun n => bit (s.ctrl n).cfs)), (2, packed (fun n => (s.ctrl n).shst)),
   (9, s.compositeKelvin), (10, s.percentUsed), (11, s.media.avSpare), (12, s.criticalWarning)]

/-- Composite Controller Status: a bit for each part that has changed since its last clear. -/
def State.healthChange (s : State) : Nat :=
  sumNat (s.healthNow.map (fun x => bit (decide (tgetD s.manage.healthBase x.1 0 ≠ x.2)) <<< x.1))

/-- Clear the bits of a mask. -/
def State.clearHealth (s : State) (mask : Nat) : State :=
  { s with manage := { s.manage with healthBase := s.healthNow.foldl (fun m x => if bitAt mask x.1 then tset m x.1 x.2 else m) s.manage.healthBase } }

/-- A temperature in one byte, as NVMe-MI codes it: two's complement °C, at least −60 and at most 127; 0x80 where there is none. -/
def tempByte : Option Int → Nat
  | none => 0x80
  | some c => unsigned 8 (max (-60) (min 127 c))

/-- SUBSYSTEM_HEALTH_STATUS_POLL: subsystem status, the Critical Warning bits, Composite Temperature, Percentage Used, and the Composite
Controller Status, which `clear` clears. D0 answers it in every state (R588, R611; notes/assumptions/22.md). -/
def execSubsystemHealthStatusPoll (t : Nat) (clear : Bool) (s : State) : Result :=
  .next (s.mgmtHeld t (fun s =>
    let ok := !s.global.mfault
    let s := s.reply 0 (le 1 (8 * bit s.link.up + 16 * bit ok + 32 * bit ok) ++ le 1 s.criticalWarning ++ le 1 (tempByte s.composite) ++
      le 1 s.percentUsed ++ le 2 s.healthChange)
    if clear then s.clearHealth 0xFFFF else s))

/-- CONTROLLER_HEALTH_STATUS_POLL: of at most `n` controllers from identifier `first` on (R589; notes/assumptions/22.md). -/
def execControllerHealthStatusPoll (t first n : Nat) (s : State) : Result :=
  .next (s.mgmt t (fun s =>
    let ids := (s.controllerIds.filter (fun c => decide (first ≤ c))).take n
    s.reply 0 (le 1 ids.length ++ ids.flatMap (fun c => padTo 16 (le 2 c ++ le 2 (s.csts c) ++ le 2 s.compositeKelvin ++ le 1 s.percentUsed ++
      le 1 s.media.avSpare ++ le 1 s.criticalWarning)))))

/-- READ_NVME_MI_DATA_STRUCTURE: 0 the subsystem, 1 a port, 2 the controller list, 3 a controller, 4 the optional commands. Where the
spec gives a value it stands at its place; the other bytes are free (R587, R589; notes/assumptions/22.md). -/
def execReadNvmeMiDataStructure (t typ id : Nat) (s : State) : Result :=
  .next (s.mgmt t (fun s =>
    let (k, s) := s.draw
    let rest := fun (n : Nat) => le n (Config.freeBits 256 k).toNat
    match typ with
    | 0 => s.reply 0 (le 1 1 ++ le 1 1 ++ le 1 2 ++ padTo 29 [])
    | 1 => if id = 0 then s.reply 0 (le 1 1 ++ rest 31)
      else if id = 1 then s.reply 0 (le 1 2 ++ rest 1 ++ le 2 s.manage.mtu ++ rest 4 ++ le 1 0x53 ++ rest 1 ++ le 1 s.manage.addr ++ rest 21)
      else s.reply 4 []
    | 2 => s.reply 0 (le 2 s.controllerIds.length ++ s.controllerIds.flatMap (le 2))
    | 3 => if s.controllerIds.contains id then s.reply 0 (rest 32) else s.reply 4 []
    | 4 => s.reply 0 (rest 32)
    | _ => s.reply 4 []))

/-- The code of a bus frequency in kHz: 100, 400 or 1,000 (R587). -/
def khzCode (khz : Nat) : Nat := if khz = 100 then 1 else if khz = 400 then 2 else 3

/-- CONFIGURATION_GET: 1 SMBus/I2C frequency, 2 health status change, 3 MCTP transmission unit (Table Mgmt 1). -/
def execConfigurationGet (t id : Nat) (s : State) : Result :=
  .next (s.mgmt t (fun s =>
    match id with
    | 1 => s.reply 0 (le 3 (khzCode s.manage.smbusKhz))
    | 2 => s.reply 0 (le 3 0)
    | 3 => s.reply 0 (le 3 s.manage.mtu)
    | _ => s.reply 4 []))

/-- CONFIGURATION_SET: a frequency of 100 kHz, 400 kHz or 1 MHz; the health status bits to clear; the one transmission unit there is, of
64 bytes (R587, Table Mgmt 1). -/
def execConfigurationSet (t id v : Nat) (s : State) : Result :=
  .next (s.mgmt t (fun s =>
    match id with
    | 1 =>
      let put := fun (khz : Nat) => ({ s with manage := { s.manage with smbusKhz := khz } } : State).reply 0 []
      if v = 1 then put 100 else if v = 2 then put 400 else if v = 3 then put 1000 else s.reply 4 []
    | 2 => (s.clearHealth v).reply 0 []
    | 3 => if v = 64 then s.reply 0 [] else s.reply 4 []
    | _ => s.reply 4 []))

/-- VPD_READ (R589). -/
def execVpdRead (t off n : Nat) (s : State) : Result :=
  .next (s.mgmt t (fun s => s.reply 0 ((List.range n).map (fun i => Config.vpdByte (off + i)))))

/-- VPD_WRITE fails with Invalid Parameter (R589). -/
def execVpdWrite (t : Nat) (s : State) : Result := .next (s.mgmt t (fun s => s.reply 4 []))

/-! ### Tunnelled admin commands (Table Mgmt 1) -/

/-- Put bytes over a buffer. -/
def putAt (d : List Byte) (f : Nat × List Byte) : List Byte := d.take f.1 ++ f.2 ++ d.drop (f.1 + f.2.length)

/-- A data structure of 4,096 bytes with the given fields; what the spec does not state is free (notes/assumptions/22.md). -/
def identifyData (k : Nat) (fields : List (Nat × List Byte)) : List Byte := fields.foldl putAt (le 4096 (Config.freeBits 32768 k).toNat)

/-- A power state descriptor: maximum power in 0.01 W, the non-operational flag, and the latencies in µs (Table Power 3). -/
def powerDescriptor (mp : Nat) (nops : Bool) (enlat exlat : Nat) : List Byte :=
  padTo 12 (le 2 mp ++ le 1 0 ++ le 1 (2 * bit nops) ++ le 4 enlat ++ le 4 exlat)

/-- Identify Controller of the PF, as far as the spec states it: MDTS, the controller and its version, RTD3R and RTD3E, the firmware slots,
NPSS, WCTEMP and CCTEMP, MTFA, SANICAP, ANATT, the ANA groups, the namespaces, ONCS, FUSES, VWC, and the power states (R119, R123, R481,
R519, R521, R550, R604, R611). -/
def State.identifyController (s : State) (k : Nat) : List Byte :=
  identifyData k [(77, le 1 9), (78, le 2 0), (80, le 4 0x00020000), (84, le 4 30000000), (88, le 4 10000000), (260, le 1 0x14), (263, le 1 4),
    (265, le 1 0), (266, le 2 (s.power.stepC + 273)), (268, le 2 383), (270, le 2 20), (328, le 4 3), (342, le 1 10), (344, le 4 2), (348, le 4 2),
    (516, le 4 1024), (520, le 2 0x5C), (522, le 2 0), (525, le 1 1), (2048, powerDescriptor 48000 false 0 0),
    (2080, powerDescriptor 40000 false 12000 15000), (2112, powerDescriptor 32000 false 12000 15000),
    (2144, powerDescriptor 2400 true 200000 25000), (2176, powerDescriptor 900 true 250000 400000)]

/-- The ANA group of a namespace (R123). -/
def Namespace.anaGroup (n : Namespace) : Nat := if n.pair then 1 else 2

/-- Identify Namespace: size, capacity, formats, protection, one owner, ANA group, HOLDUP and PAIR (R120 to R123, Table Host 4). -/
def Namespace.identify (n : Namespace) (k : Nat) : List Byte :=
  let fmt := fun (i md ds : Nat) => (128 + 4 * i, le 2 md ++ le 1 ds)
  identifyData k [(0, le 8 n.size), (8, le 8 n.size), (25, le 1 3), (26, le 1 n.lbaf), (27, le 1 3), (28, le 1 0x1D), (29, le 1 n.pi),
    (30, le 1 0), (92, le 4 n.anaGroup), fmt 0 0 12, fmt 1 16 12, fmt 2 0 14, fmt 3 16 14, (3072, le 1 (bit n.classJ)), (3073, le 1 (bit n.pair))]

/-- Log page 03h: the running slot, the slot the boot record names where it is another one, and the versions of the two images. -/
def State.pageFirmware (s : State) : List Byte :=
  let f := s.flash
  let next := (f.bank f.runningBank).bootSlot
  padTo 512 (padTo 8 (le 1 (f.runningSlot + (if next = f.runningSlot then 0 else next) <<< 4)) ++
    le 8 ((f.image 1).version) ++ le 8 ((f.image 2).version))

/-- Log page 0Ch of the PF: the change count, and the two groups with their states and the namespaces attached to it (R123, Table Host 5). -/
def State.pageAna (s : State) : List Byte :=
  let group := fun (g st : Nat) =>
    let ids := ((s.link.namespaces.map (·.2)).filter (fun n => n.anaGroup == g && n.fn == some 0)).map (·.nsid)
    padTo 32 (le 4 g ++ le 4 ids.length ++ le 8 s.link.anaCount ++ le 1 st) ++ ids.flatMap (le 4)
  padTo 16 (le 8 s.link.anaCount ++ le 2 2) ++ group 1 (if s.anaOptimized then 1 else 3) ++ group 2 1

/-- Run a command as the PF would issue it, and answer what it completes with and the data it returns; nothing else of it remains (R589,
R592). -/
def State.tunnel (s : State) (q : Sqe) (f : Sqe → State → Result) : State :=
  let c : Controller := { s.ctrl 0 with enabled := true, ready := true, cfs := false, stopped := false, cqs := [(0, {})], sqs := [(0, {})] }
  let p := { s with link := { s.link with mem := [], controllers := tset s.link.controllers 0 c }
                    global := { s.global with mfault := false }, power := { s.power with lantern := .none } }
  match f { q with fn := 0, sqid := 0, buf := [(0, 2 ^ 32)] } p with
  | .next r =>
    let s := { s with free := r.free }
    match (tgetD (r.ctrl 0).cqs 0 {}).posted with
    | e :: _ => { s with manage := { s.manage with replies := { bytes := r.link.mem.map (·.2), nvme := some e.status, dw0 := e.dw0 } :: s.manage.replies } }
    | [] => { s with manage := { s.manage with replies := { nvme := some .invalidField } :: s.manage.replies } }
  | _ => s

/-- A tunnelled command's own status. -/
def State.tunnelReply (s : State) (st : NvmeStatus) (dw0 : Nat := 0) (bytes : List Byte := []) : State :=
  { s with manage := { s.manage with replies := { bytes := bytes, nvme := some st, dw0 := dw0 } :: s.manage.replies } }

/-- A tunnelled Identify, by CNS; of the structures that the spec says nothing about the bytes are free. -/
def State.tunnelIdentify (s : State) (q : Sqe) : State :=
  let (k, s) := s.draw
  let all := s.link.namespaces.map (·.1)
  let mine := (s.link.namespaces.filter (fun n => n.2.fn == some 0)).map (·.1)
  let list := fun (ids : List Nat) => padTo 4096 ((ids.filter (fun n => decide (q.nsid < n))).flatMap (le 4))
  let space := fun (own : Bool) => match tget? s.link.namespaces q.nsid with
    | some n => if own ∧ n.fn ≠ some 0 then s.tunnelReply .success 0 (padTo 4096 []) else s.tunnelReply .success 0 (n.identify k)
    | none => s.tunnelReply .invalidNamespace
  match dwField q.d10 0 8 with
  | 0x00 => space true
  | 0x01 => s.tunnelReply .success 0 (s.identifyController k)
  | 0x02 => s.tunnelReply .success 0 (list mine)
  | 0x10 => s.tunnelReply .success 0 (list all)
  | 0x11 => space false
  | n => if [0x03, 0x05, 0x06, 0x07, 0x08, 0x12, 0x13, 0x14, 0x15, 0x1C].contains n then s.tunnelReply .success 0 (identifyData k [])
    else s.tunnelReply .invalidField

/-- A tunnelled Get Features (Table Mgmt 1; notes/assumptions/22.md). -/
def State.tunnelFeatures (s : State) (q : Sqe) : State :=
  match dwField q.d10 0 8 with
  | 0x02 => s.tunnel q execGetFeaturesPowerManagement
  | 0x06 => s.tunnelReply .success (bit (s.ctrl 0).wce)
  | 0x08 => s.tunnelReply .success 0
  | 0x0B => s.tunnelReply .success 0
  | 0x0E => s.tunnel q execGetFeaturesTimestamp
  | 0xC0 => s.tunnel q execGetFeaturesFramePeriod
  | 0xC1 => s.tunnel q execGetFeaturesLodestarConfig
  | 0xC2 => s.tunnel q execGetFeaturesPlacementDefaults
  | 0xC3 => s.tunnel q execGetFeaturesAssayMode
  | _ => s.tunnelReply .invalidField

/-- A tunnelled Get Log Page; a read that would clear a partition is refused (R592, Table Mgmt 1). -/
def State.tunnelLog (s : State) (q : Sqe) : State :=
  match dwField q.d10 0 8 with
  | 0x01 => let (k, s) := s.draw; s.tunnel q (fun q p => .next (p.logPage q (le 4096 (Config.freeBits 32768 k).toNat)))
  | 0x02 => s.tunnel q execGetLogPageSmart
  | 0x03 => s.tunnel q (fun q p => .next (p.logPage q s.pageFirmware))
  | 0x0C => s.tunnel q (fun q p => .next (p.logPage q s.pageAna))
  | 0x81 => s.tunnel q execGetLogPageSanitizeStatus
  | 0xC0 => s.tunnel q execGetLogPageEventLog
  | 0xC1 => if logBit q then s.tunnelReply .invalidField else s.tunnel q execGetLogPageTallySnapshot
  | 0xC2 => s.tunnel q execGetLogPageTenantPercentiles
  | 0xC3 => s.tunnel q execGetLogPageShiftBookStatus
  | 0xC4 => s.tunnel q execGetLogPageUnitTable
  | _ => s.tunnelReply .invalidLogPage

/-- MI_TUNNELLED_ADMIN: Identify (06h), Get Log Page (02h) and Get Features (0Ah) as on the PF; Sanitize (84h); any other opcode fails with
Invalid Command Opcode (Table Mgmt 1, R592, R604). -/
def execMiTunnelledAdmin (q : Sqe) (opc : Nat) (s : State) : Result :=
  .next (s.mgmt q.t (fun s =>
    match opc with
    | 0x02 => s.tunnelLog q
    | 0x06 => s.tunnelIdentify q
    | 0x0A => s.tunnelFeatures q
    | 0x84 => let (s, st) := s.startSanitize q.d10.toNat; s.tunnelReply st
    | _ => s.tunnelReply .invalidOpcode))

/-! ### The vendor register read (R590, R591) -/

/-- REGISTER_READ: `n` dwords, 1 to 16, from a BAR2 offset, on the management path's own latches; an unpowered block gives its held values
and is not woken (R480, R590, R591). -/
def execRegisterRead (t off n : Nat) (s : State) : Result :=
  .next (s.mgmtHeld t (fun s =>
    if n = 0 ∨ 16 < n ∨ off % 4 ≠ 0 then s.reply 4 []
    else
      let vs := ((s.accrueBusy (fun _ => true)).readDwords 64 off false n).1
      (s.readDwords 64 off false n).2.reply 0 (vs.flatMap (le 4))))

/-! ### MCTP (R587) -/

/-- MCTP_ADDRESS_ASSIGN: ENTDAA, or SETDASA with static address 0x1D, puts the endpoint in I3C mode at `addr` until D0 loses power
(R587). -/
def execMctpAddressAssign (t addr : Nat) (s : State) : Result :=
  .next (s.mgmtHeld t (fun s => { s with manage := { s.manage with i3c := true, addr := addr % 128 } }))

/-- SET_ENDPOINT_ID: the null and the broadcast identifiers are no endpoint's (R587). -/
def execSetEndpointId (t eid : Nat) (s : State) : Result :=
  .next (s.mgmtHeld t (fun s =>
    if eid = 0 ∨ 255 ≤ eid then s.reply 2 []
    else ({ s with manage := { s.manage with endpointId := eid } } : State).reply 0 [BitVec.ofNat 8 eid]))

/-! ### PLDM (R593 to R595) -/

/-- A sensor of Table Mgmt 3: its value, and its present state: 1 normal, 2 warning, 3 critical; none where it is unavailable (R593). -/
def State.sensor (s : State) (id : Nat) : Option (Int × Nat) :=
  let p := s.power
  let graded := fun (v w c : Int) => (v, if c ≤ v then 3 else if w ≤ v then 2 else 1)
  let under := fun (v w c : Int) => (v, if v < c then 3 else if v < w then 2 else 1)
  if 1 ≤ id ∧ id ≤ 11 then
    let x := tgetD p.sensors id {}
    if s.powered id ∧ x.sampled then some (graded x.temp p.stepC 110) else none
  else match id with
  | 12 =>
    let v := p.inputAvg 100
    some (v / 10, if 4700 ≤ v then 2 else 1)
  | 13 => some (under s.media.healthPct 120 100)
  | 14 => some (under s.media.avSpare 10 10)
  | 15 => some (p.cur, 1)
  | 16 => some (s.pair.state.code, 1)
  | 17 => some (s.log.stage, 1)
  | 18 => some (if s.global.mfault then s.global.cause + 1 else 0, 1)
  | _ => none

/-- GET_SENSOR_READING: operational state (0 enabled, 2 unavailable), present state and reading; D0 answers in every state (R588, R593). -/
def execGetSensorReading (t id : Nat) (s : State) : Result :=
  .next (s.mgmtHeld t (fun s =>
    if id = 0 ∨ 18 < id then s.reply 0x80 []
    else match s.sensor id with
      | none => s.reply 0 (le 1 2 ++ le 1 0 ++ le 4 0)
      | some (v, st) => s.reply 0 (le 1 0 ++ le 1 st ++ le 4 (unsigned 32 v))))

/-- SET_EVENT_RECEIVER: where platform events go; none disables them (R593). -/
def execSetEventReceiver (t : Nat) (eid : Option Nat) (s : State) : Result :=
  .next (s.mgmt t (fun s => ({ s with manage := { s.manage with eventReceiver := eid } } : State).reply 0 []))

/-- REQUEST_UPDATE: RETRY_REQUEST_UPDATE while the host owns the flash, or a download or Commit is outstanding (R594). -/
def execRequestUpdate (t : Nat) (s : State) : Result :=
  .next (s.mgmt t (fun s =>
    if s.manage.updating then s.reply 0x81 []
    else if s.flash.hostOwns ∨ s.activation.outstanding then s.reply 0x8E []
    else ({ s with manage := { s.manage with updating := true } } : State).reply 0 []))

/-- The slot that an update writes: the staging slot, or the one the boot record names where neither verifies (R594, R595). -/
def State.updateSlot (s : State) : Nat :=
  if s.startup.noSlot then (if (s.flash.bank s.flash.runningBank).bootSlot = 2 then 2 else 1) else s.flash.stagingSlot

/-- ACTIVATE_FIRMWARE: with the image that the update has brought, what verification found of it and whether it read back right. Only a
request that is not self-contained is accepted. The boot record then names the slot, and the image runs from the next cold module reset,
which comes at once where neither slot verified (R594, R595, R603; notes/assumptions/23.md). -/
def execActivateFirmware (t : Nat) (self : Bool) (bytes : List Byte) (i : ImageInfo) (readBack : Bool) (s : State) : Result :=
  .next (s.mgmt t (fun s =>
    if !s.manage.updating then s.reply 0x80 []
    else if self then s.reply 0x8C []
    else
      let slot := s.updateSlot
      let ok := readBack && s.imageOk i
      let s := { s with manage := { s.manage with updating := false }
                        flash := s.flash.modBank (slotBank slot) (fun b =>
                          { b with image := if ok then some i else none, bytes := csetBytes b.bytes 0 ((bytes.take areaBase).map (fun x => ~~~x)) }) }
      if !ok then s.reply 0x85 []
      else
        let s := (s.nameSlot slot).reply 0 []
        if s.startup.noSlot then s.restart true else s))

/-! ### SPDM (R596 to R598) -/

/-- SPDM runs on the module's firmware: in P3 and P4 a request waits for the wake (R588). -/
def State.spdm (s : State) (t : Nat) (k : State → State) : State :=
  let s := s.at t
  if s.power.off || s.power.lossDeclared.isSome || !s.done .stewards || s.power.lantern == .asleep || s.power.lantern == .waking then s else k s

/-- The digest of a measurement block (Table Mgmt 4). -/
def State.measurement (s : State) (idx : Nat) : List Byte :=
  let a := s.almanac
  let f := s.flash
  let slotBytes := fun (slot : Nat) => (f.bank (slotBank slot)).bytes.filter (fun c => decide (c.1 < areaBase))
  match idx with
  | 1 => le 48 Config.romDigest.toNat
  | 2 => le 48 (Config.imageDigest (f.image f.runningSlot) (slotBytes f.runningSlot)).toNat
  | 3 => sha384 (le 4 (f.image f.runningSlot).svn ++ le 4 a.svn)
  | 4 => sha384 (a.record 0 ++ a.record 2 ++ a.record 3 ++ a.record 4)
  | 5 => le 48 (Config.configDigest s.saved.measured s.const.savedRole.code).toNat
  | _ => match (f.bank f.staging).image with
    | none => List.replicate 48 0
    | some i => le 48 (Config.imageDigest i (slotBytes f.stagingSlot)).toNat

/-- The measurement types of the blocks, as DSP0274 numbers them. -/
def measurementType : Nat → Nat
  | 1 => 0 | 2 => 1 | 3 => 7 | 4 => 2 | 5 => 3 | _ => 1

/-- A block in the DMTF measurement format (R598). -/
def State.measurementBlock (s : State) (idx : Nat) : List Byte :=
  le 1 idx ++ le 1 1 ++ le 2 51 ++ le 1 (measurementType idx) ++ le 2 48 ++ s.measurement idx

/-- GET_MEASUREMENTS on a transport: 0 the number of blocks, 0xFF all of them, else one; signed where it is asked for. Between steps 3 and
5 of an activation it waits (R598 and its edges; notes/assumptions/24.md). -/
def execGetMeasurements (t idx : Nat) (signed : Bool) (s : State) : Result :=
  .next (s.spdm t (fun s =>
    if s.activation.pp then s
    else if 6 < idx ∧ idx ≠ 255 then s.reply 1 []
    else
      let ids := if idx = 255 then [1, 2, 3, 4, 5, 6] else if idx = 0 then [] else [idx]
      let body := ids.flatMap s.measurementBlock
      let d := le 1 (if idx = 0 then 6 else ids.length) ++ le 3 body.length ++ body
      if signed then
        let (k, s) := s.draw
        s.reply 0 (d ++ le 96 (Config.signature d k).toNat)
      else s.reply 0 d))

/-- A transport carries messages: 0 DOE over the host link, 1 MCTP over the management bus, 2 and 3 ports 10 and 11 (R596, R617). -/
def State.transportUp (s : State) : Nat → Bool
  | 0 => s.link.up
  | 1 => s.power.mgmtVio
  | 2 => (s.port 10).state == .up
  | 3 => (s.port 11).state == .up
  | _ => false

/-- KEY_EXCHANGE on a transport: a session, or SESSION_LIMIT_EXCEEDED when there are four (R596). -/
def execKeyExchange (t transport : Nat) (s : State) : Result :=
  .next (s.spdm t (fun s =>
    let n := tgetD s.manage.sessions transport 0
    if !s.transportUp transport then s
    else if 4 ≤ n then s.reply 0x0A []
    else ({ s with manage := { s.manage with sessions := tset s.manage.sessions transport (n + 1) } } : State).reply 0 []))

end Sys2Proof.Machine
end

