-- ==== Sys2Proof/Machine/RuhaicVector.lean ====
section
/-!
DEFINITION. The V slot: element-wise arithmetic, conversions, accumulator moves, reductions, permutations and VTAP
(spec/10_the_ruhaic_core.md, R265, R266, R276 to R279; spec/11_narrow_numbers.md, R293, R294, R301, R304).
-/
namespace Sys2Proof.Machine

/-- A V operation: an element type it does not accept is illegal whatever the guard; enabled marked lanes of the
sources are consumed; `f` gives the value of the write from the enabled lanes (R265, R266). -/
def State.vecOp (s : State) (n : Nat) (g : Guard) (d : Option Dest) (legal : Bool) (srcs : RCore → List VVal)
    (f : RCore → BitVec 64 → RCore) : State :=
  s.issueOn n .v d (fun c =>
    if legal then c.vector (c.lanes g) (srcs c) (fun c => f c (c.lanes g)) else c.illegal n)

/-- A vector result without marks, in the enabled lanes. -/
def RCore.vResult (c : RCore) (lat : Nat) (d : Dest) (v : BitVec 2048) (l : BitVec 64) : RCore :=
  c.queue lat d (.v { val := v } l)

/-- Latency of the element-wise operations: 2 integer, 4 float (Table Ruhaic 4). -/
def EType.latency (t : EType) : Nat := if t.isInt then 2 else 4

/-- `VD = f VA VB` element by element. -/
def State.elemOp (s : State) (n : Nat) (g : Guard) (vd va vb : Nat) (et : BitVec 4) (ok : EType → Bool)
    (f : EType → Nat → Nat → Nat) : State :=
  let t := (eType et).getD .i32
  s.vecOp n g (some (.v vd)) ((eType et).any ok) (fun c => [c.readV va, c.readV vb]) (fun c l =>
    c.vResult t.latency (.v vd)
      (ofElems t (List.zipWith (f t) ((c.readV va).elems t) ((c.readV vb).elems t))) l)

/-- The flushing of an accumulating operation in a format: FP32 and BF16 only (R301). -/
def flushIn (f : FFmt) (v : FVal) : FVal := match f with | .fp32 => flushF v | .bf16 => flushF v | _ => v

/-- Round a sum once to a format, flushing the result where R301 says so. -/
def roundAcc (f : FFmt) (v : FVal) : Nat :=
  encodeF f .nearest (flushIn f (decodeF f (encodeF f .nearest v)))

/-- One element of VADD or VSUB. -/
def elemAdd (sub : Bool) (t : EType) (a b : Nat) : Nat :=
  match t with
  | .fp f =>
    let vb := flushIn f (decodeF f b)
    roundAcc f (addF .nearest (flushIn f (decodeF f a)) (if sub then negF vb else vb))
  | t => if sub then (a + 2 ^ t.width - b) % 2 ^ t.width else (a + b) % 2 ^ t.width

/-- One element of VMUL: denormals as IEEE 754, rounded as ROUND directs (R293, R301). -/
def elemMul (r : Rnd) (t : EType) (a b : Nat) : Nat :=
  match t with
  | .fp f => encodeF f r (mulF (decodeF f a) (decodeF f b))
  | t => a * b % 2 ^ t.width

/-- One element of VMAX, or of VMIN. -/
def elemPick (larger : Bool) (t : EType) (a b : Nat) : Nat :=
  match t with
  | .fp f => pickF f larger a b
  | t =>
    let va : Int := if t.isSigned then signed t.width a else (a : Int)
    let vb : Int := if t.isSigned then signed t.width b else (b : Int)
    if va < vb then (if larger then b else a) else (if larger then a else b)

/-- One element of VFMA: one rounding (R266), with the flushing of R301. -/
def elemFma (f : FFmt) (a b c : Nat) : Nat :=
  let p := flushIn f (mulF (flushIn f (decodeF f a)) (flushIn f (decodeF f b)))
  roundAcc f (addF .nearest p (flushIn f (decodeF f c)))

/-- VADD (R266). -/
def execVadd (core : Nat) (g : Guard) (vd va vb : BitVec 5) (et : BitVec 4) (s : State) : Result :=
  .next (s.elemOp core g vd.toNat va.toNat vb.toNat et EType.isArith (elemAdd false))

/-- VSUB (R266). -/
def execVsub (core : Nat) (g : Guard) (vd va vb : BitVec 5) (et : BitVec 4) (s : State) : Result :=
  .next (s.elemOp core g vd.toNat va.toNat vb.toNat et EType.isArith (elemAdd true))

/-- VMUL (R266, R293). -/
def execVmul (core : Nat) (g : Guard) (vd va vb : BitVec 5) (et : BitVec 4) (rnd : BitVec 2) (s : State) : Result :=
  .next (s.elemOp core g vd.toNat va.toNat vb.toNat et EType.isArith (elemMul (rndOf rnd)))

/-- VMAX (R266). -/
def execVmax (core : Nat) (g : Guard) (vd va vb : BitVec 5) (et : BitVec 4) (s : State) : Result :=
  .next (s.elemOp core g vd.toNat va.toNat vb.toNat et EType.isArith (elemPick true))

/-- VMIN (R266). -/
def execVmin (core : Nat) (g : Guard) (vd va vb : BitVec 5) (et : BitVec 4) (s : State) : Result :=
  .next (s.elemOp core g vd.toNat va.toNat vb.toNat et EType.isArith (elemPick false))

/-- VAND (R266). -/
def execVand (core : Nat) (g : Guard) (vd va vb : BitVec 5) (et : BitVec 4) (s : State) : Result :=
  .next (s.elemOp core g vd.toNat va.toNat vb.toNat et EType.isArith (fun _ a b => a &&& b))

/-- VOR (R266). -/
def execVor (core : Nat) (g : Guard) (vd va vb : BitVec 5) (et : BitVec 4) (s : State) : Result :=
  .next (s.elemOp core g vd.toNat va.toNat vb.toNat et EType.isArith (fun _ a b => a ||| b))

/-- VXOR (R266). -/
def execVxor (core : Nat) (g : Guard) (vd va vb : BitVec 5) (et : BitVec 4) (s : State) : Result :=
  .next (s.elemOp core g vd.toNat va.toNat vb.toNat et EType.isArith (fun _ a b => a ^^^ b))

/-- VSHL: by the count in VB modulo the element width (R266). -/
def execVshl (core : Nat) (g : Guard) (vd va vb : BitVec 5) (et : BitVec 4) (s : State) : Result :=
  .next (s.elemOp core g vd.toNat va.toNat vb.toNat et EType.isInt
    (fun t a b => (a <<< (b % t.width)) % 2 ^ t.width))

/-- VSHR: zero fill (R266). -/
def execVshr (core : Nat) (g : Guard) (vd va vb : BitVec 5) (et : BitVec 4) (s : State) : Result :=
  .next (s.elemOp core g vd.toNat va.toNat vb.toNat et EType.isInt (fun t a b => a >>> (b % t.width)))

/-- VSAR: sign fill (R266). -/
def execVsar (core : Nat) (g : Guard) (vd va vb : BitVec 5) (et : BitVec 4) (s : State) : Result :=
  .next (s.elemOp core g vd.toNat va.toNat vb.toNat et EType.isInt
    (fun t a b => unsigned t.width (signed t.width a / 2 ^ (b % t.width))))

/-- VFMA: VD = VA × VB + VC (R266); the floating-point types of V arithmetic (notes/assumptions/7.md). -/
def execVfma (core : Nat) (g : Guard) (vd va vb vc : BitVec 5) (et : BitVec 4) (s : State) : Result :=
  let t := (eType et).getD .i32
  let f := match t with | .fp f => f | _ => .fp32
  .next (s.vecOp core g (some (.v vd.toNat)) ((eType et).any EType.isArithF)
    (fun c => [c.readV va.toNat, c.readV vb.toNat, c.readV vc.toNat]) (fun c l =>
      let ab := List.zip ((c.readV va.toNat).elems t) ((c.readV vb.toNat).elems t)
      c.vResult 4 (.v vd.toNat)
        (ofElems t (List.zipWith (fun ab d => elemFma f ab.1 ab.2 d) ab ((c.readV vc.toNat).elems t))) l))

/-- One element of VCMP: 0 EQ, 1 LT, 2 LE, 3 NE. -/
def elemCmp (t : EType) (k a b : Nat) : Bool :=
  let r := cmpF (t.value a) (t.value b)
  match k with
  | 0 => r == some 0
  | 1 => r == some (-1)
  | 2 => r == some (-1) || r == some 0
  | _ => r != some 0

/-- One lane of VCMP: the comparison of its elements where they agree; where they do not, or IMM names no
comparison, the spec gives no value (R266; notes/assumptions/7.md). -/
def laneCmp (t : EType) (k : Nat) (va vb : List Nat) (lane : Nat) (fr : Bool) : Bool :=
  let per := 32 / t.width
  let rs := (List.range per).map (fun j =>
    elemCmp t k (va.getD (lane * per + j) 0) (vb.getD (lane * per + j) 0))
  if 3 < k then fr
  else if rs.all id then true
  else if rs.all (!·) then false
  else fr

/-- VCMP: predicate VD[2:0], one bit a lane (R266). -/
def execVcmp (core : Nat) (g : Guard) (vd va vb : BitVec 5) (et : BitVec 4) (imm : BitVec 32) (s : State) : Result :=
  let t := (eType et).getD .i32
  let (fr, s) := s.freeBits 64
  let d := vd.toNat % 8
  .next (s.vecOp core g (some (.p d)) ((eType et).any EType.isArith)
    (fun c => [c.readV va.toNat, c.readV vb.toNat]) (fun c l =>
      let a := (c.readV va.toNat).elems t
      let b := (c.readV vb.toNat).elems t
      let bits := packElems 1 ((List.range 64).map (fun i =>
        bit (laneCmp t (imm.toNat % 8) a b i (fr.getLsbD i))))
      c.queue 2 (.p d) (.p (BitVec.ofNat 64 bits) l)))

/-- VSEL: VA where the predicate enables the lane, VB elsewhere; every lane is written (R266). -/
def execVsel (core : Nat) (g : Guard) (vd va vb : BitVec 5) (s : State) : Result :=
  .next (s.issueOn core .v (some (.v vd.toNat)) (fun c =>
    let v := mergeLanes (c.readV vb.toNat) (c.readV va.toNat) (c.lanes g)
    if v.poison != 0 then c.consumed
    else c.vResult 2 (.v vd.toNat) v.val (BitVec.allOnes 64)))

/-- A type a conversion accepts (Table Ruhaic 7). -/
def EType.isConv : EType → Bool
  | .u4 => false | .i4 => false | _ => true

/-- Convert a value to an element type with narrowing, and whether it saturates (R294). -/
def narrowTo (t : EType) (r : Rnd) (v : FVal) : Nat × Bool :=
  match t with
  | .fp f => narrowF f r v
  | t => narrowI t.width t.isSigned r v

/-- Convert without a scale: a wider floating-point destination takes the value as IEEE 754 does (R266, R294). -/
def convertTo (src dst : EType) (r : Rnd) (v : FVal) : Nat × Bool :=
  match dst with
  | .fp f => if src.width < dst.width then (encodeF f r v, false) else narrowF f r v
  | t => narrowI t.width t.isSigned r v

/-- The lane of element `i` of a type. -/
def laneOf (t : EType) (i : Nat) : Nat := i * t.width / 32

/-- A conversion: element i to element i, guarded by the destination's lane; a destination element without a source
element takes a free value (notes/assumptions/7.md); saturations of the enabled elements are counted. -/
def State.convOp (s : State) (n : Nat) (g : Guard) (vd va : Nat) (et et2 : BitVec 4)
    (f : EType → EType → Nat → Nat × Bool) : State :=
  let ts := (eType et).getD .i32
  let td := (eType et2).getD .i32
  let (fr, s) := s.freeBits 2048
  let count := 2048 / max ts.width td.width
  s.issueOn n .v (some (.v vd)) (fun c =>
    if !((eType et).any EType.isConv && (eType et2).any EType.isConv) then c.illegal n
    else
      let l := c.lanes g
      let v := c.readV va
      let used := (List.range count).filter (fun i => l.getLsbD (laneOf td i))
      if used.any (fun i => v.poison.getLsbD (laneOf ts i)) then c.consumed
      else
        let rs := ((v.elems ts).take count).map (f ts td)
        let rest := (elemsOf td.width (2048 / td.width) fr.toNat).drop count
        let sats := (used.filter (fun i => ((rs.getD i (0, false)).2))).length
        { c.vResult 4 (.v vd) (ofElems td (rs.map (·.1) ++ rest)) l with bundleSat := c.bundleSat + sats })

/-- VCVT: ETYPE to ETYPE2, no scale (R266, R279). -/
def execVcvt (core : Nat) (g : Guard) (vd va : BitVec 5) (et et2 : BitVec 4) (rnd : BitVec 2) (s : State) : Result :=
  .next (s.convOp core g vd.toNat va.toNat et et2 (fun ts td e => convertTo ts td (rndOf rnd) (ts.value e)))

/-- VCVTS: each element times the FP32 scale in IMM, then the narrowing conversion (R279). -/
def execVcvts (core : Nat) (g : Guard) (vd va : BitVec 5) (et et2 : BitVec 4) (rnd : BitVec 2) (imm : BitVec 32)
    (s : State) : Result :=
  .next (s.convOp core g vd.toNat va.toNat et et2 (fun ts td e =>
    narrowTo td (rndOf rnd) (mulF (ts.value e) (of32 imm.toNat))))

/-- A unary FP32 operation of latency 8. -/
def State.fp32Unary (s : State) (n : Nat) (g : Guard) (vd va : Nat) (et : BitVec 4) (f : Nat → Nat) : State :=
  s.vecOp n g (some (.v vd)) (et == 9) (fun c => [c.readV va]) (fun c l =>
    c.vResult 8 (.v vd) (ofElems .i32 (((c.readV va).elems .i32).map f)) l)

/-- VEXP: FP32 exponential within 2 ulp (R266). -/
def execVexp (core : Nat) (g : Guard) (vd va : BitVec 5) (et : BitVec 4) (s : State) : Result :=
  .next (s.fp32Unary core g vd.toNat va.toNat et fexp32)

/-- VRCP: FP32 reciprocal within 1 ulp (R266). -/
def execVrcp (core : Nat) (g : Guard) (vd va : BitVec 5) (et : BitVec 4) (s : State) : Result :=
  .next (s.fp32Unary core g vd.toNat va.toNat et frcp32)

/-- ACCRD: VD = A(VA[2:0]), a move, marks and all (R260, R266). -/
def execAccrd (core : Nat) (g : Guard) (vd va : BitVec 5) (s : State) : Result :=
  .next (s.issueOn core .v (some (.v vd.toNat)) (fun c =>
    c.queue 2 (.v vd.toNat) (.v (c.readA (va.toNat % 8)) (c.lanes g))))

/-- ACCWR: A(VD[2:0]) = VA, a move that joins the accumulator's chain (R264, R266). -/
def execAccwr (core : Nat) (g : Guard) (vd va : BitVec 5) (s : State) : Result :=
  .next (s.issueOn core .v (some (.a (vd.toNat % 8))) (fun c =>
    c.queue 2 (.a (vd.toNat % 8)) (.v (c.readV va.toNat) (c.lanes g)) true))

/-- ACCCLR: A(VD[2:0]) = 0 (R266). -/
def execAccclr (core : Nat) (g : Guard) (vd : BitVec 5) (s : State) : Result :=
  .next (s.issueOn core .v (some (.a (vd.toNat % 8))) (fun c =>
    c.vResult 2 (.a (vd.toNat % 8)) 0 (c.lanes g)))

/-- The elements of the enabled lanes, in ascending order. -/
def enabledElems (t : EType) (l : BitVec 64) (v : VVal) : List Nat :=
  (((v.elems t).zipIdx).filter (fun p => l.getLsbD (laneOf t p.2))).map (·.1)

/-- An element as an X register holds it: integers extended by their sign, floats in the low bits. -/
def toX (t : EType) (e : Nat) : BitVec 64 :=
  if t.isInt && t.isSigned then BitVec.ofInt 64 (signed t.width e) else BitVec.ofNat 64 e

/-- A reduction into X(VD), latency 6. -/
def State.reduceOp (s : State) (n : Nat) (g : Guard) (vd va : Nat) (et : BitVec 4)
    (f : EType → List Nat → Nat) : State :=
  let t := (eType et).getD .i32
  s.vecOp n g (some (.x vd)) ((eType et).any EType.isArith) (fun c => [c.readV va]) (fun c l =>
    c.queue 6 (.x vd) (.x { val := toX t (f t (enabledElems t l (c.readV va))) }))

/-- A left fold from the first element. -/
def foldFirst (f : Nat → Nat → Nat) (none : Nat) : List Nat → Nat
  | [] => none
  | x :: xs => xs.foldl f x

/-- A first element as the sum takes it up: an FP32 or BF16 denormal reads as zero (R301). -/
def redStart (t : EType) (e : Nat) : Nat :=
  match t with
  | .fp f => roundAcc f (flushIn f (decodeF f e))
  | _ => e

/-- The sum of elements in ascending order. -/
def redSum (t : EType) : List Nat → Nat
  | [] => 0
  | e :: es => es.foldl (elemAdd false t) (redStart t e)

/-- VREDADD: the sum in ascending element order (R266). -/
def execVredadd (core : Nat) (g : Guard) (vd va : BitVec 5) (et : BitVec 4) (s : State) : Result :=
  .next (s.reduceOp core g vd.toNat va.toNat et redSum)

/-- VREDMAX: the maximum; of no element a free value (R266; notes/assumptions/7.md). -/
def execVredmax (core : Nat) (g : Guard) (vd va : BitVec 5) (et : BitVec 4) (s : State) : Result :=
  let (fr, s) := s.freeBits 32
  .next (s.reduceOp core g vd.toNat va.toNat et (fun t es => foldFirst (elemPick true t) (fr.toNat % 2 ^ t.width) es))

/-- VPERM: lane i of VD is the lane of VA that lane i of VB names; an index above 63 gives a free value
(R266; notes/assumptions/7.md). -/
def execVperm (core : Nat) (g : Guard) (vd va vb : BitVec 5) (s : State) : Result :=
  let (fr, s) := s.freeBits 2048
  .next (s.issueOn core .v (some (.v vd.toNat)) (fun c =>
    let l := c.lanes g
    let a := c.readV va.toNat
    let idx := (c.readV vb.toNat).elems .i32
    let lost := (List.range 64).any (fun i => l.getLsbD i &&
      ((c.readV vb.toNat).poison.getLsbD i || a.poison.getLsbD (idx.getD i 0)))
    if lost then c.consumed
    else
      let ae := a.elems .i32
      let fe := elemsOf 32 64 fr.toNat
      c.vResult 3 (.v vd.toNat) (ofElems .i32 ((List.range 64).map (fun i =>
        let k := idx.getD i 0
        if k < 64 then ae.getD k 0 else fe.getD i 0))) l))

/-- VBCAST: the low element of X(VA) in every element of VD (R266). -/
def execVbcast (core : Nat) (g : Guard) (vd va : BitVec 5) (et : BitVec 4) (s : State) : Result :=
  let t := (eType et).getD .i32
  .next (s.issueOn core .v (some (.v vd.toNat)) (fun c =>
    if !(eType et).any EType.isConv then c.illegal core
    else if c.lanes g != 0 ∧ (c.readX va.toNat).poison then c.consumed
    else
      let e := (c.readX va.toNat).val.toNat % 2 ^ t.width
      c.vResult 3 (.v vd.toNat) (ofElems t (List.replicate (2048 / t.width) e)) (c.lanes g)))

/-- A type VTAP accepts (R304). -/
def EType.isTap : EType → Bool
  | .fp .fp32 => true | .fp .bf16 => true | .fp .fp16 => true
  | .i32 => true | .i16 => true | .i8 => true | _ => false

/-- The histogram bin of a value (Table Narrow 5). -/
def tapBin (v : FVal) : Nat :=
  match v with
  | .fin _ m e =>
    if m = 0 then 0
    else
      let k : Int := (bitLen m : Int) - 1 + e
      if k < -30 then 1 else if 31 ≤ k then 63 else (k + 32).toNat
  | _ => 63

/-- One sample of a tap: its bin above bit 32, and |v| in FP32, rounded up where it is not exact (R306). -/
def tapSample (t : EType) (e : Nat) : Nat :=
  let v := t.value e
  tapBin v * 2 ^ 32 + encodeF .fp32 .up (absF v)

/-- VTAP: record the enabled elements into the tap, which becomes the core's current tap; both take effect with the
bundle (R304). -/
def execVtap (core : Nat) (g : Guard) (va : BitVec 5) (et : BitVec 4) (imm : BitVec 32) (s : State) : Result :=
  let t := (eType et).getD .i32
  .next (s.vecOp core g none ((eType et).any EType.isTap) (fun c => [c.readV va.toNat]) (fun c l =>
    { c with tapped := c.tapped ++ [(imm.toNat % 256, (enabledElems t l (c.readV va.toNat)).map (tapSample t))] }))

end Sys2Proof.Machine
end

