-- ==== Sys2Proof/Machine/RuhaicTensor.lean ====
section
/-!
DEFINITION. The T slot: MAC and the product table unit (spec/10_the_ruhaic_core.md, R277, R280 to R282).
-/
namespace Sys2Proof.Machine

/-- Products per lane of a MAC type pair, integer or not; none where MAC does not accept the pair (R277). -/
def macPair (a b : EType) : Option (Bool × Nat) :=
  let i8 := fun t : EType => t = .i8 ∨ t = .u8
  let f8 := fun t : EType => t = .fp .e4m3 ∨ t = .fp .e5m2
  let f16 := fun t : EType => t = .fp .bf16 ∨ t = .fp .fp16
  if i8 a ∧ i8 b then some (true, 4)
  else if f8 a ∧ f8 b then some (false, 4)
  else if f16 a ∧ f16 b then some (false, 2)
  else none

/-- The integer an I8 or U8 code stands for. -/
def int8Value (t : EType) (e : Nat) : Int := if t.isSigned then signed 8 e else (e : Int)

/-- One lane of a MAC from its accumulator value. -/
def macLane (ta tb : EType) (isInt : Bool) (acc : Nat) (prods : List (Nat × Nat)) : Nat :=
  if isInt then
    unsigned 32 (prods.foldl (fun r p => r + int8Value ta p.1 * int8Value tb p.2) (acc : Int))
  else prods.foldl (fun r p => faccProd r (mulF (flushIn .bf16 (ta.value p.1)) (flushIn .bf16 (tb.value p.2)))) acc

/-- MAC: each lane adds its products to the chain's value, or to zero with CLR (R264, R277). -/
def execMac (core : Nat) (g : Guard) (ad : BitVec 3) (va vb : BitVec 5) (eta etb : BitVec 4) (clr : Bool)
    (s : State) : Result :=
  let ta := (eType eta).getD .i8
  let tb := (eType etb).getD .i8
  let pair := (eType eta).bind (fun a => (eType etb).bind (macPair a))
  .next (s.issueOn core .t (some (.a ad.toNat)) (fun c =>
    match pair with
    | none => c.illegal core
    | some (isInt, per) =>
      let l := c.lanes g
      let base : VVal := if clr then {} else c.chainBase ad.toNat
      c.vector l [c.readV va.toNat, c.readV vb.toNat, base] (fun c =>
        let ps := List.zip ((c.readV va.toNat).elems ta) ((c.readV vb.toNat).elems tb)
        let accs := base.elems .i32
        let out := (List.range 64).map (fun i => macLane ta tb isInt (accs.getD i 0) (window ps (i * per) per))
        c.queue 4 (.a ad.toNat) (.v { val := ofElems .i32 out } l) true)))

/-- TLOAD: 4,096 bytes at local address XC[20:0], bits [11:0] ignored, into tables IMM to IMM + 127; marks land with
the tables (R281). -/
def execTload (core : Nat) (g : Guard) (xc : BitVec 5) (imm : BitVec 32) (s : State) : Result :=
  let base := field imm.toNat 0 11
  let c0 := s.core core
  let a := field (c0.readX xc.toNat).val.toNat 12 9 * 4096
  let acts := c0.issuing && c0.acts g && decide (a + 4096 ≤ bankBytes)
  let s := if acts then s.settle core a 4096 else s
  let s := match c0.packet, (((s.core core).bankRead a 4096).findIdx? (·.2)) with
    | some key, some i => if acts then s.firstPoison key (bankAddress core ((a + i) / 64 * 64)) else s
    | _, _ => s
  .next (s.issueOn core .t none (fun c =>
    if 2047 < base + 127 then c.illegal core
    else if !c.acts g then c
    else if (c.readX xc.toNat).poison then c.consumed
    else if bankBytes < a + 4096 then c.outOfWindow core
    else
      let d := c.bankRead a 4096
      { c with pendingTables := c.pendingTables ++ [{
          due := c.bundles + 8, base := base,
          entries := (List.range 2048).map (fun i => leAt (d.map (·.1)) (2 * i) 2),
          poison := (List.range 128).map (fun t => (window d (32 * t) 32).any (·.2)), lanes := BitVec.allOnes 64 }] }))

/-- value(c) of a code set, doubled for E2M1 (R281); code set 0b11 is listed nowhere. -/
def codeValue (set c : Nat) : Option Int :=
  match set with
  | 0 => some (signed 4 c)
  | 1 =>
    let m : Int := match c % 8 with | 0 => 0 | 1 => 1 | 2 => 2 | 3 => 3 | 4 => 4 | 5 => 6 | 6 => 8 | _ => 12
    some (if c < 8 then m else -m)
  | 2 => some (c : Int)
  | _ => none

/-- TBUILD: 128 tables from the INT8 activations of VA, by the lanes the guard enables (R281). Code set 0b11 writes
free entries (notes/assumptions/7.md). -/
def execTbuild (core : Nat) (g : Guard) (va : BitVec 5) (imm : BitVec 32) (s : State) : Result :=
  let base := field imm.toNat 0 11
  let set := field imm.toNat 12 2
  let (fr, s) := s.freeBits 32768
  .next (s.issueOn core .t none (fun c =>
    if 2047 < base + 127 then c.illegal core
    else
      let l := c.lanes g
      let v := c.readV va.toNat
      let acts := (v.elems .i8).take 128
      { c with pendingTables := c.pendingTables ++ [{
          due := c.bundles + 8, base := base,
          entries := (List.range 2048).map (fun i =>
            let p := i / 16
            match codeValue set (i % 16) with
              | some x => unsigned 16 (x * signed 8 (acts.getD p 0))
              | none => field fr.toNat (16 * i) 16),
          poison := (List.range 128).map (fun p => v.poison.getLsbD (p / 4)), lanes := l }] }))

/-- TACC: each lane adds the eight entries its codes select; the tables of enabled lanes that carry a mark are
consumed (R282, The product table unit edges). -/
def execTacc (core : Nat) (g : Guard) (ad : BitVec 3) (va : BitVec 5) (imm : BitVec 32) (s : State) : Result :=
  let base := field imm.toNat 0 11
  .next (s.issueOn core .t (some (.a ad.toNat)) (fun c =>
    if 2047 < base + 511 then c.illegal core
    else
      let l := c.lanes g
      let acc := c.chainBase ad.toNat
      let lost := (List.range 512).any (fun p => l.getLsbD (p / 8) && c.tablePoison.contains (base + p))
      if lost then c.consumed
      else c.vector l [c.readV va.toNat, acc] (fun c =>
        let codes := elemsOf 4 512 (c.readV va.toNat).val.toNat
        let accs := acc.elems .i32
        let out := (List.range 64).map (fun i =>
          let sum := (List.range 8).foldl (fun (r : Int) j =>
            let p := 8 * i + j
            r + signed 16 (tgetD c.tables (16 * (base + p) + codes.getD p 0) 0)) 0
          unsigned 32 ((accs.getD i 0 : Int) + sum))
        c.queue 4 (.a ad.toNat) (.v { val := ofElems .i32 out } l) true)))

end Sys2Proof.Machine
end

