-- ==== Sys2Proof/Machine/Dispatch.lean ====
section
/-!
DEFINITION. The dispatch: one arm per command of the table, each one direct call of its meaning.
-/
namespace Sys2Proof.Machine

/-- What a command does to everything but the queue. -/
def exec (i : Instr) (s : State) : Host.Outcome State Fault Refusal :=
  match i with
  | .meridianTick t late pit => Sys2Proof.Machine.execMeridianTick t late pit s
  | .tickAckLate t d => Sys2Proof.Machine.execTickAckLate t d s
  | .tickAcknowledge t d => Sys2Proof.Machine.execTickAcknowledge t d s
  | .deadlineTick t => Sys2Proof.Machine.execDeadlineTick t s
  | .periodChanged t => Sys2Proof.Machine.execPeriodChanged t s
  | .orreryActivated t => Sys2Proof.Machine.execOrreryActivated t s
  | .contractChangeEffect t => Sys2Proof.Machine.execContractChangeEffect t s
  | .sqTailDoorbell t fn sqid kinds => Sys2Proof.Machine.execSqTailDoorbell t fn sqid kinds s
  | .submitWork q psdt fuse prp1 pkt list param => Sys2Proof.Machine.execSubmitWork q psdt fuse prp1 pkt list param s
  | .shiftRecordMirrorAck t key => Sys2Proof.Machine.execShiftRecordMirrorAck t key s
  | .abortWork q => Sys2Proof.Machine.execAbortWork q s
  | .seamSearch t key => Sys2Proof.Machine.execSeamSearch t key s
  | .seamSearchFiltered t key => Sys2Proof.Machine.execSeamSearchFiltered t key s
  | .seamInsert t key lodes => Sys2Proof.Machine.execSeamInsert t key lodes s
  | .seamBuildCreate t key lodes => Sys2Proof.Machine.execSeamBuildCreate t key lodes s
  | .seamBuildLoad t key records lodes => Sys2Proof.Machine.execSeamBuildLoad t key records lodes s
  | .attend t key => Sys2Proof.Machine.execAttend t key s
  | .appendKv t key lodes => Sys2Proof.Machine.execAppendKv t key lodes s
  | .kvOpen t key lodes => Sys2Proof.Machine.execKvOpen t key lodes s
  | .kvClose t key => Sys2Proof.Machine.execKvClose t key s
  | .sift t key parts bad => Sys2Proof.Machine.execSift t key parts bad s
  | .embed t key => Sys2Proof.Machine.execEmbed t key s
  | .embedAndInsert t key lodes => Sys2Proof.Machine.execEmbedAndInsert t key lodes s
  | .assay t key => Sys2Proof.Machine.execAssay t key s
  | .runProgram t key => Sys2Proof.Machine.execRunProgram t key s
  | .placeCreate t key lodes => Sys2Proof.Machine.execPlaceCreate t key lodes s
  | .placeSetPlacement t key => Sys2Proof.Machine.execPlaceSetPlacement t key s
  | .placeDelete t key => Sys2Proof.Machine.execPlaceDelete t key s
  | .pin t key => Sys2Proof.Machine.execPin t key s
  | .unpin t key => Sys2Proof.Machine.execUnpin t key s
  | .prefetch t key => Sys2Proof.Machine.execPrefetch t key s
  | .frameProbe t key => Sys2Proof.Machine.execFrameProbe t key s
  | .answerDelivery t key swaps placed ack failed => Sys2Proof.Machine.execAnswerDelivery t key swaps placed ack failed s
  | .jobFault t key ev loc unit => Sys2Proof.Machine.execJobFault t key ev loc unit s
  | .watchdogOverrun t core => Sys2Proof.Machine.execWatchdogOverrun t core s
  | .add core sl g xd xa xb => Sys2Proof.Machine.execAdd core sl g xd xa xb s
  | .sub core sl g xd xa xb => Sys2Proof.Machine.execSub core sl g xd xa xb s
  | .and core sl g xd xa xb => Sys2Proof.Machine.execAnd core sl g xd xa xb s
  | .or core sl g xd xa xb => Sys2Proof.Machine.execOr core sl g xd xa xb s
  | .xor core sl g xd xa xb => Sys2Proof.Machine.execXor core sl g xd xa xb s
  | .shl core sl g xd xa xb => Sys2Proof.Machine.execShl core sl g xd xa xb s
  | .shr core sl g xd xa xb => Sys2Proof.Machine.execShr core sl g xd xa xb s
  | .sar core sl g xd xa xb => Sys2Proof.Machine.execSar core sl g xd xa xb s
  | .addi core sl g xd xa imm => Sys2Proof.Machine.execAddi core sl g xd xa imm s
  | .li core sl g xd imm => Sys2Proof.Machine.execLi core sl g xd imm s
  | .lui core sl g xd xa imm => Sys2Proof.Machine.execLui core sl g xd xa imm s
  | .mul core sl g xd xa xb => Sys2Proof.Machine.execMul core sl g xd xa xb s
  | .divu core sl g xd xa xb => Sys2Proof.Machine.execDivu core sl g xd xa xb s
  | .cmpeq core sl g xd xa xb => Sys2Proof.Machine.execCmpeq core sl g xd xa xb s
  | .cmplt core sl g xd xa xb => Sys2Proof.Machine.execCmplt core sl g xd xa xb s
  | .cmpltu core sl g xd xa xb => Sys2Proof.Machine.execCmpltu core sl g xd xa xb s
  | .fadd core sl g xd xa xb => Sys2Proof.Machine.execFadd core sl g xd xa xb s
  | .fmul core sl g xd xa xb => Sys2Proof.Machine.execFmul core sl g xd xa xb s
  | .movpx core sl g xd xa => Sys2Proof.Machine.execMovpx core sl g xd xa s
  | .movxp core sl g xd xa => Sys2Proof.Machine.execMovxp core sl g xd xa s
  | .br core g imm => Sys2Proof.Machine.execBr core g imm s
  | .brx core g xa => Sys2Proof.Machine.execBrx core g xa s
  | .exit core g xa => Sys2Proof.Machine.execExit core g xa s
  | .ldx core g rd xa off post => Sys2Proof.Machine.execLdx core g rd xa off post s
  | .stx core g rd xa off post => Sys2Proof.Machine.execStx core g rd xa off post s
  | .ldv core g rd xa off post => Sys2Proof.Machine.execLdv core g rd xa off post s
  | .stv core g rd xa off post => Sys2Proof.Machine.execStv core g rd xa off post s
  | .ldvb core g rd xa off post => Sys2Proof.Machine.execLdvb core g rd xa off post s
  | .sget core g xa xb xc token win => Sys2Proof.Machine.execSget core g xa xb xc token win s
  | .sput core g xa xb xc token win sig => Sys2Proof.Machine.execSput core g xa xb xc token win sig s
  | .sgather core g xa xb xc off token win => Sys2Proof.Machine.execSgather core g xa xb xc off token win s
  | .streamComplete core id => Sys2Proof.Machine.execStreamComplete core id s
  | .wait core g token off => Sys2Proof.Machine.execWait core g token off s
  | .drain core g => Sys2Proof.Machine.execDrain core g s
  | .tclr core g token => Sys2Proof.Machine.execTclr core g token s
  | .vadd core g vd va vb et => Sys2Proof.Machine.execVadd core g vd va vb et s
  | .vsub core g vd va vb et => Sys2Proof.Machine.execVsub core g vd va vb et s
  | .vmul core g vd va vb et rnd => Sys2Proof.Machine.execVmul core g vd va vb et rnd s
  | .vmax core g vd va vb et => Sys2Proof.Machine.execVmax core g vd va vb et s
  | .vmin core g vd va vb et => Sys2Proof.Machine.execVmin core g vd va vb et s
  | .vand core g vd va vb et => Sys2Proof.Machine.execVand core g vd va vb et s
  | .vor core g vd va vb et => Sys2Proof.Machine.execVor core g vd va vb et s
  | .vxor core g vd va vb et => Sys2Proof.Machine.execVxor core g vd va vb et s
  | .vshl core g vd va vb et => Sys2Proof.Machine.execVshl core g vd va vb et s
  | .vshr core g vd va vb et => Sys2Proof.Machine.execVshr core g vd va vb et s
  | .vsar core g vd va vb et => Sys2Proof.Machine.execVsar core g vd va vb et s
  | .vfma core g vd va vb vc et => Sys2Proof.Machine.execVfma core g vd va vb vc et s
  | .vcmp core g vd va vb et imm => Sys2Proof.Machine.execVcmp core g vd va vb et imm s
  | .vsel core g vd va vb => Sys2Proof.Machine.execVsel core g vd va vb s
  | .vcvt core g vd va et et2 rnd => Sys2Proof.Machine.execVcvt core g vd va et et2 rnd s
  | .vcvts core g vd va et et2 rnd imm => Sys2Proof.Machine.execVcvts core g vd va et et2 rnd imm s
  | .vexp core g vd va et => Sys2Proof.Machine.execVexp core g vd va et s
  | .vrcp core g vd va et => Sys2Proof.Machine.execVrcp core g vd va et s
  | .accrd core g vd va => Sys2Proof.Machine.execAccrd core g vd va s
  | .accwr core g vd va => Sys2Proof.Machine.execAccwr core g vd va s
  | .accclr core g vd => Sys2Proof.Machine.execAccclr core g vd s
  | .vredadd core g vd va et => Sys2Proof.Machine.execVredadd core g vd va et s
  | .vredmax core g vd va et => Sys2Proof.Machine.execVredmax core g vd va et s
  | .vperm core g vd va vb => Sys2Proof.Machine.execVperm core g vd va vb s
  | .vbcast core g vd va et => Sys2Proof.Machine.execVbcast core g vd va et s
  | .vtap core g va et imm => Sys2Proof.Machine.execVtap core g va et imm s
  | .mac core g ad va vb eta etb clr => Sys2Proof.Machine.execMac core g ad va vb eta etb clr s
  | .tload core g xc imm => Sys2Proof.Machine.execTload core g xc imm s
  | .tbuild core g va imm => Sys2Proof.Machine.execTbuild core g va imm s
  | .tacc core g ad va imm => Sys2Proof.Machine.execTacc core g ad va imm s
  | .loop core lc xa last cnt => Sys2Proof.Machine.execLoop core lc xa last cnt s
  | .resultWriteback core => Sys2Proof.Machine.execResultWriteback core s
  | .windowEnd t ptm pin fab twin => Sys2Proof.Machine.execWindowEnd t ptm pin fab twin s
  | .referenceLossOfSignal t r jump => Sys2Proof.Machine.execReferenceLossOfSignal t r jump s
  | .pinMark t => Sys2Proof.Machine.execPinMark t s
  | .ptmDialog t ok master => Sys2Proof.Machine.execPtmDialog t ok master s
  | .holdoverExpired t => Sys2Proof.Machine.execHoldoverExpired t s
  | .waitToRestoreExpiry t => Sys2Proof.Machine.execWaitToRestoreExpiry t s
  | .lodCmdSwitch t v => Sys2Proof.Machine.execLodCmdSwitch t v s
  | .surveyStale t member boot => Sys2Proof.Machine.execSurveyStale t member boot s
  | .setFeaturesFramePeriod q both peer => Sys2Proof.Machine.execSetFeaturesFramePeriod q both peer s
  | .getFeaturesFramePeriod q => Sys2Proof.Machine.execGetFeaturesFramePeriod q s
  | .setFeaturesLodestarConfig q => Sys2Proof.Machine.execSetFeaturesLodestarConfig q s
  | .getFeaturesLodestarConfig q => Sys2Proof.Machine.execGetFeaturesLodestarConfig q s
  | .setFeaturesTimestamp q => Sys2Proof.Machine.execSetFeaturesTimestamp q s
  | .getFeaturesTimestamp q => Sys2Proof.Machine.execGetFeaturesTimestamp q s
  | .setFeaturesPlacementDefaults q => Sys2Proof.Machine.execSetFeaturesPlacementDefaults q s
  | .getFeaturesPlacementDefaults q => Sys2Proof.Machine.execGetFeaturesPlacementDefaults q s
  | .setFeaturesAssayMode q => Sys2Proof.Machine.execSetFeaturesAssayMode q s
  | .getFeaturesAssayMode q => Sys2Proof.Machine.execGetFeaturesAssayMode q s
  | .setFeaturesVolatileWriteCache q => Sys2Proof.Machine.execSetFeaturesVolatileWriteCache q s
  | .setFeaturesPowerManagement q => Sys2Proof.Machine.execSetFeaturesPowerManagement q s
  | .getFeaturesPowerManagement q => Sys2Proof.Machine.execGetFeaturesPowerManagement q s
  | .trimToFewerDomains t => Sys2Proof.Machine.execTrimToFewerDomains t s
  | .domainPowerOff t => Sys2Proof.Machine.execDomainPowerOff t s
  | .domainPowerOn t => Sys2Proof.Machine.execDomainPowerOn t s
  | .coreReady t n => Sys2Proof.Machine.execCoreReady t n s
  | .lanternEntry t => Sys2Proof.Machine.execLanternEntry t s
  | .wake t src => Sys2Proof.Machine.execWake t src s
  | .clockStop t d idleNs => Sys2Proof.Machine.execClockStop t d idleNs s
  | .clockWake t d => Sys2Proof.Machine.execClockWake t d s
  | .crossingStall t u cycles => Sys2Proof.Machine.execCrossingStall t u cycles s
  | .temperatureSample t d temp => Sys2Proof.Machine.execTemperatureSample t d temp s
  | .inputPowerSample t w => Sys2Proof.Machine.execInputPowerSample t w s
  | .thermalStep t => Sys2Proof.Machine.execThermalStep t s
  | .thermalRestore t => Sys2Proof.Machine.execThermalRestore t s
  | .thermalCritical t => Sys2Proof.Machine.execThermalCritical t s
  | .thermalCriticalReturn t => Sys2Proof.Machine.execThermalCriticalReturn t s
  | .unitObserve t u st => Sys2Proof.Machine.execUnitObserve t u st s
  | .unitContested t u => Sys2Proof.Machine.execUnitContested t u s
  | .reconciliationProbeEnd t u pass => Sys2Proof.Machine.execReconciliationProbeEnd t u pass s
  | .unitRequest t op u => Sys2Proof.Machine.execUnitRequest t op u s
  | .unitControlRead q => Sys2Proof.Machine.execUnitControlRead q s
  | .unitControlReset q => Sys2Proof.Machine.execUnitControlReset q s
  | .unitControlOutOfService q => Sys2Proof.Machine.execUnitControlOutOfService q s
  | .unitControlReturn q => Sys2Proof.Machine.execUnitControlReturn q s
  | .unitControlProbe q => Sys2Proof.Machine.execUnitControlProbe q s
  | .unitControlHold q => Sys2Proof.Machine.execUnitControlHold q s
  | .flashOwn q erased => Sys2Proof.Machine.execFlashOwn q erased s
  | .flashRelease q => Sys2Proof.Machine.execFlashRelease q s
  | .coldReset q => Sys2Proof.Machine.execColdReset q s
  | .quiesceRequest t u => Sys2Proof.Machine.execQuiesceRequest t u s
  | .drainEnd t u left => Sys2Proof.Machine.execDrainEnd t u left s
  | .unitReset t u pass => Sys2Proof.Machine.execUnitReset t u pass s
  | .unitLost t u cause => Sys2Proof.Machine.execUnitLost t u cause s
  | .moduleFault t cause => Sys2Proof.Machine.execModuleFault t cause s
  | .structRepaired t kind intact mirrored => Sys2Proof.Machine.execStructRepaired t kind intact mirrored s
  | .contractSet q => Sys2Proof.Machine.execContractSet q s
  | .orreryLoad q => Sys2Proof.Machine.execOrreryLoad q s
  | .almanacBurnRead q => Sys2Proof.Machine.execAlmanacBurnRead q s
  | .almanacBurnStage q => Sys2Proof.Machine.execAlmanacBurnStage q s
  | .almanacBurnCommit q bad => Sys2Proof.Machine.execAlmanacBurnCommit q bad s
  | .almanacBurnDiscard q => Sys2Proof.Machine.execAlmanacBurnDiscard q s
  | .stagedBurnExpiry t => Sys2Proof.Machine.execStagedBurnExpiry t s
  | .pairControlStatus q => Sys2Proof.Machine.execPairControlStatus q s
  | .bindStage q peerKey => Sys2Proof.Machine.execBindStage q peerKey s
  | .bindCommit q bad => Sys2Proof.Machine.execBindCommit q bad s
  | .unbind q bad => Sys2Proof.Machine.execUnbind q bad s
  | .split q => Sys2Proof.Machine.execSplit q s
  | .rejoin q => Sys2Proof.Machine.execRejoin q s
  | .takeoverCq q => Sys2Proof.Machine.execTakeoverCq q s
  | .mirrorMask q => Sys2Proof.Machine.execMirrorMask q s
  | .role q => Sys2Proof.Machine.execRole q s
  | .spanSet q => Sys2Proof.Machine.execSpanSet q s
  | .spanClear q => Sys2Proof.Machine.execSpanClear q s
  | .surveyForm q found clash routes tables => Sys2Proof.Machine.execSurveyForm q found clash routes tables s
  | .survey q => Sys2Proof.Machine.execSurvey q s
  | .binaryPortLinkUp t p certs keyHash namesUs pairId side boot solo inSplit marks changes => Sys2Proof.Machine.execBinaryPortLinkUp t p certs keyHash namesUs pairId side boot solo inSplit marks changes s
  | .pairDetectChange t heldNs level => Sys2Proof.Machine.execPairDetectChange t heldNs level s
  | .pairLost t => Sys2Proof.Machine.execPairLost t s
  | .pairPartition t => Sys2Proof.Machine.execPairPartition t s
  | .pairWaitExpiry t => Sys2Proof.Machine.execPairWaitExpiry t s
  | .resyncDone t => Sys2Proof.Machine.execResyncDone t s
  | .resyncRegionCopy t item object => Sys2Proof.Machine.execResyncRegionCopy t item object s
  | .pairSequenceRequest t tag => Sys2Proof.Machine.execPairSequenceRequest t tag s
  | .mirrorWriteReceived t seq op => Sys2Proof.Machine.execMirrorWriteReceived t seq op s
  | .wireFrameReceived t p frame corrected failed poison => Sys2Proof.Machine.execWireFrameReceived t p frame corrected failed poison s
  | .nak t p => Sys2Proof.Machine.execNak t p s
  | .creditReturn t p => Sys2Proof.Machine.execCreditReturn t p s
  | .tickMarker t p from_ sel period => Sys2Proof.Machine.execTickMarker t p from_ sel period s
  | .faultNotice t p => Sys2Proof.Machine.execFaultNotice t p s
  | .fabricPortDown t p silent retrainFailed => Sys2Proof.Machine.execFabricPortDown t p silent retrainFailed s
  | .routeChanged t down routes tables => Sys2Proof.Machine.execRouteChanged t down routes tables s
  | .subpacket t b => Sys2Proof.Machine.execSubpacket t b s
  | .result t tag r poisoned => Sys2Proof.Machine.execResult t tag r poisoned s
  | .subpacketCancel t member tag => Sys2Proof.Machine.execSubpacketCancel t member tag s
  | .memberLost t m => Sys2Proof.Machine.execMemberLost t m s
  | .foremanChanged t spans => Sys2Proof.Machine.execForemanChanged t spans s
  | .nvmRead q => Sys2Proof.Machine.execNvmRead q s
  | .nvmWrite q ack seq => Sys2Proof.Machine.execNvmWrite q ack seq s
  | .writeZeroes q ack seq => Sys2Proof.Machine.execWriteZeroes q ack seq s
  | .datasetManagementDeallocate q ack seq => Sys2Proof.Machine.execDatasetManagementDeallocate q ack seq s
  | .flush q ack => Sys2Proof.Machine.execFlush q ack s
  | .namespaceManagementCreate q pick => Sys2Proof.Machine.execNamespaceManagementCreate q pick s
  | .namespaceAttachment q => Sys2Proof.Machine.execNamespaceAttachment q s
  | .memoryRead q set handle off len => Sys2Proof.Machine.execMemoryRead q set handle off len s
  | .memoryWrite q set handle off swaps placed ack => Sys2Proof.Machine.execMemoryWrite q set handle off swaps placed ack s
  | .loadProgram q slot vendor unload swaps placed ack => Sys2Proof.Machine.execLoadProgram q slot vendor unload swaps placed ack s
  | .programActivationManagement q slot active => Sys2Proof.Machine.execProgramActivationManagement q slot active s
  | .executeProgram q slot set entry cores input output => Sys2Proof.Machine.execExecuteProgram q slot set entry cores input output s
  | .memoryRangeSetManagement q op id ranges => Sys2Proof.Machine.execMemoryRangeSetManagement q op id ranges s
  | .getLogPageEventLog q => Sys2Proof.Machine.execGetLogPageEventLog q s
  | .getLogPageTallySnapshot q => Sys2Proof.Machine.execGetLogPageTallySnapshot q s
  | .tallyReadAndClear q => Sys2Proof.Machine.execTallyReadAndClear q s
  | .getLogPageTenantPercentiles q => Sys2Proof.Machine.execGetLogPageTenantPercentiles q s
  | .getLogPageShiftBookStatus q => Sys2Proof.Machine.execGetLogPageShiftBookStatus q s
  | .getLogPageUnitTable q => Sys2Proof.Machine.execGetLogPageUnitTable q s
  | .getLogPageSmart q => Sys2Proof.Machine.execGetLogPageSmart q s
  | .getLogPageSanitizeStatus q => Sys2Proof.Machine.execGetLogPageSanitizeStatus q s
  | .asynchronousEventRequest q => Sys2Proof.Machine.execAsynchronousEventRequest q s
  | .eventLogPersist t failed => Sys2Proof.Machine.execEventLogPersist t failed s
  | .logRelocated t lost areaFailed => Sys2Proof.Machine.execLogRelocated t lost areaFailed s
  | .logLastGasp t cause readable => Sys2Proof.Machine.execLogLastGasp t cause readable s
  | .firmwareImageDownload q readBack => Sys2Proof.Machine.execFirmwareImageDownload q readBack s
  | .firmwareCommitReplace q img => Sys2Proof.Machine.execFirmwareCommitReplace q img s
  | .firmwareCommitReplaceActivateReset q img => Sys2Proof.Machine.execFirmwareCommitReplaceActivateReset q img s
  | .firmwareCommitActivateReset q img => Sys2Proof.Machine.execFirmwareCommitActivateReset q img s
  | .firmwareCommitActivateNow q img => Sys2Proof.Machine.execFirmwareCommitActivateNow q img s
  | .activationAdmissionClose t => Sys2Proof.Machine.execActivationAdmissionClose t s
  | .activationStart t => Sys2Proof.Machine.execActivationStart t s
  | .fwActivated t bad => Sys2Proof.Machine.execFwActivated t bad s
  | .activationAdmissionReopen t => Sys2Proof.Machine.execActivationAdmissionReopen t s
  | .activationTimeout t => Sys2Proof.Machine.execActivationTimeout t s
  | .fwActivateFailed t f => Sys2Proof.Machine.execFwActivateFailed t f s
  | .sanitizeCryptoErase q => Sys2Proof.Machine.execSanitizeCryptoErase q s
  | .sanitizeBlockErase q => Sys2Proof.Machine.execSanitizeBlockErase q s
  | .sanitizeResume t => Sys2Proof.Machine.execSanitizeResume t s
  | .controllerLevelReset t fn => Sys2Proof.Machine.execControllerLevelReset t fn s
  | .functionLevelReset t fn => Sys2Proof.Machine.execFunctionLevelReset t fn s
  | .surpriseLinkDown t => Sys2Proof.Machine.execSurpriseLinkDown t s
  | .controllerEnable t fn mps queues depths => Sys2Proof.Machine.execControllerEnable t fn mps queues depths s
  | .normalShutdown t fn => Sys2Proof.Machine.execNormalShutdown t fn s
  | .abruptShutdown t fn => Sys2Proof.Machine.execAbruptShutdown t fn s
  | .configRequest t => Sys2Proof.Machine.execConfigRequest t s
  | .linkRateChange t rateGt width flit => Sys2Proof.Machine.execLinkRateChange t rateGt width flit s
  | .poisonedTlpReceived q => Sys2Proof.Machine.execPoisonedTlpReceived q s
  | .ideFailure t dropped => Sys2Proof.Machine.execIdeFailure t dropped s
  | .ideKm t msg arg => Sys2Proof.Machine.execIdeKm t msg arg s
  | .perst t lowNs f => Sys2Proof.Machine.execPerst t lowNs f s
  | .pwrdis t heldNs high => Sys2Proof.Machine.execPwrdis t heldNs high s
  | .inputPowerLoss t => Sys2Proof.Machine.execInputPowerLoss t s
  | .holdupFlushEnd t f => Sys2Proof.Machine.execHoldupFlushEnd t f s
  | .inputPowerGood heldNs lowNs => Sys2Proof.Machine.execInputPowerGood heldNs lowNs s
  | .startUp => Sys2Proof.Machine.execStartUp s
  | .boot t slot1 slot2 => Sys2Proof.Machine.execBoot t slot1 slot2 s
  | .bootCountWrite t => Sys2Proof.Machine.execBootCountWrite t s
  | .stewardsStart t tests bad => Sys2Proof.Machine.execStewardsStart t tests bad s
  | .tierHPrepare t trained => Sys2Proof.Machine.execTierHPrepare t trained s
  | .mount t loaded pages recovered => Sys2Proof.Machine.execMount t loaded pages recovered s
  | .stageReady t => Sys2Proof.Machine.execStageReady t s
  | .residencyComplete t => Sys2Proof.Machine.execResidencyComplete t s
  | .admissionOpen t => Sys2Proof.Machine.execAdmissionOpen t s
  | .foremanAutoForm t found clash routes tables => Sys2Proof.Machine.execForemanAutoForm t found clash routes tables s
  | .checkpointBegin t fifth => Sys2Proof.Machine.execCheckpointBegin t fifth s
  | .checkpointComplete t quads => Sys2Proof.Machine.execCheckpointComplete t quads s
  | .nandReadComplete t drift die plane block page sector level critical patrol recovered owner => Sys2Proof.Machine.execNandReadComplete t drift die plane block page sector level critical patrol recovered owner s
  | .nandOperationComplete t drift die pages failed programmed => Sys2Proof.Machine.execNandOperationComplete t drift die pages failed programmed s
  | .nandOperationStart t drift die block erase data planned => Sys2Proof.Machine.execNandOperationStart t drift die block erase data planned s
  | .nandSuspend t drift die slots => Sys2Proof.Machine.execNandSuspend t drift die slots s
  | .nandResume t drift die planned => Sys2Proof.Machine.execNandResume t drift die planned s
  | .patrolDone t => Sys2Proof.Machine.execPatrolDone t s
  | .refresh t drift die block dest cause again => Sys2Proof.Machine.execRefresh t drift die block dest cause again s
  | .garbageCollection t drift die dest => Sys2Proof.Machine.execGarbageCollection t drift die dest s
  | .capTest t completed health capMf resUohm => Sys2Proof.Machine.execCapTest t completed health capMf resUohm s
  | .holdupDegraded t => Sys2Proof.Machine.execHoldupDegraded t s
  | .holdupRestored t => Sys2Proof.Machine.execHoldupRestored t s
  | .bankVoltageLow t lowNs => Sys2Proof.Machine.execBankVoltageLow t lowNs s
  | .pageIn t w h job planned => Sys2Proof.Machine.execPageIn t w h job planned s
  | .pageInComplete t w => Sys2Proof.Machine.execPageInComplete t w s
  | .scrubLode t h zero => Sys2Proof.Machine.execScrubLode t h zero s
  | .holdEnd t w => Sys2Proof.Machine.execHoldEnd t w s
  | .heccUncorrectable t addr pass reader => Sys2Proof.Machine.execHeccUncorrectable t addr pass reader s
  | .quotaEffect t n => Sys2Proof.Machine.execQuotaEffect t n s
  | .stpQuotaWrite t n v => Sys2Proof.Machine.execStpQuotaWrite t n v s
  | .qClassWrite t n v => Sys2Proof.Machine.execQClassWrite t n v s
  | .badAccess t off n enables write => Sys2Proof.Machine.execBadAccess t off n enables write s
  | .latchingPairRead t path off two => Sys2Proof.Machine.execLatchingPairRead t path off two s
  | .rcFieldRead t off two => Sys2Proof.Machine.execRcFieldRead t off two s
  | .registerWrite t path off v second => Sys2Proof.Machine.execRegisterWrite t path off v second s
  | .talClear t v => Sys2Proof.Machine.execTalClear t v s
  | .partitionClear t => Sys2Proof.Machine.execPartitionClear t s
  | .tallyPersist t => Sys2Proof.Machine.execTallyPersist t s
  | .traceEnable t => Sys2Proof.Machine.execTraceEnable t s
  | .fwfKey t host v => Sys2Proof.Machine.execFwfKey t host v s
  | .fwfProgram t host => Sys2Proof.Machine.execFwfProgram t host s
  | .fwfSectorErase t host => Sys2Proof.Machine.execFwfSectorErase t host s
  | .fwfSuspend t host => Sys2Proof.Machine.execFwfSuspend t host s
  | .fwfResume t host => Sys2Proof.Machine.execFwfResume t host s
  | .arrayProgram t host off data => Sys2Proof.Machine.execArrayProgram t host off data s
  | .arrayErase t host off => Sys2Proof.Machine.execArrayErase t host off s
  | .arraySuspend t host off => Sys2Proof.Machine.execArraySuspend t host off s
  | .arrayResume t host off => Sys2Proof.Machine.execArrayResume t host off s
  | .arrayAbandon t host off => Sys2Proof.Machine.execArrayAbandon t host off s
  | .flashOperationEnd t => Sys2Proof.Machine.execFlashOperationEnd t s
  | .flashOwnerReset t => Sys2Proof.Machine.execFlashOwnerReset t s
  | .readNvmeMiDataStructure t typ id => Sys2Proof.Machine.execReadNvmeMiDataStructure t typ id s
  | .subsystemHealthStatusPoll t clear => Sys2Proof.Machine.execSubsystemHealthStatusPoll t clear s
  | .controllerHealthStatusPoll t first n => Sys2Proof.Machine.execControllerHealthStatusPoll t first n s
  | .configurationGet t id => Sys2Proof.Machine.execConfigurationGet t id s
  | .configurationSet t id v => Sys2Proof.Machine.execConfigurationSet t id v s
  | .vpdRead t off n => Sys2Proof.Machine.execVpdRead t off n s
  | .vpdWrite t => Sys2Proof.Machine.execVpdWrite t s
  | .nvmSubsystemReset t f => Sys2Proof.Machine.execNvmSubsystemReset t f s
  | .miTunnelledAdmin q opc => Sys2Proof.Machine.execMiTunnelledAdmin q opc s
  | .registerRead t off n => Sys2Proof.Machine.execRegisterRead t off n s
  | .mctpAddressAssign t addr => Sys2Proof.Machine.execMctpAddressAssign t addr s
  | .setEndpointId t eid => Sys2Proof.Machine.execSetEndpointId t eid s
  | .getSensorReading t id => Sys2Proof.Machine.execGetSensorReading t id s
  | .setEventReceiver t eid => Sys2Proof.Machine.execSetEventReceiver t eid s
  | .requestUpdate t => Sys2Proof.Machine.execRequestUpdate t s
  | .activateFirmware t self bytes img readBack => Sys2Proof.Machine.execActivateFirmware t self bytes img readBack s
  | .getMeasurements t idx signed => Sys2Proof.Machine.execGetMeasurements t idx signed s
  | .keyExchange t transport => Sys2Proof.Machine.execKeyExchange t transport s
  | .cqHeadDoorbell t fn cqid n => Sys2Proof.Machine.execCqHeadDoorbell t fn cqid n s
  | .fabricPortLinkUp t p => Sys2Proof.Machine.execFabricPortLinkUp t p s
  | .stewardLoad t core addr n => Sys2Proof.Machine.execStewardLoad t core addr n s
  | .stewardStore t core addr bytes => Sys2Proof.Machine.execStewardStore t core addr bytes s
  | .fenceSl t core => Sys2Proof.Machine.execFenceSl t core s
  | .tierSBackgroundScrub t k corrected bad => Sys2Proof.Machine.execTierSBackgroundScrub t k corrected bad s
  | .namespaceManagementDelete q => Sys2Proof.Machine.execNamespaceManagementDelete q s
  | .vfEnable t n => Sys2Proof.Machine.execVfEnable t n s
  | .keyUpdate t p ok => Sys2Proof.Machine.execKeyUpdate t p ok s
  | .routeTableReceived t routes deputy => Sys2Proof.Machine.execRouteTableReceived t routes deputy s
  | .surveyExchange t member boot frameOff xs => Sys2Proof.Machine.execSurveyExchange t member boot frameOff xs s
  | .mirroredShiftRecordReceived t p => Sys2Proof.Machine.execMirroredShiftRecordReceived t p s
  | .twinLogRecordReceived t code tenant seq timeNs data => Sys2Proof.Machine.execTwinLogRecordReceived t code tenant seq timeNs data s
  | .powerOnHoursPersist t => Sys2Proof.Machine.execPowerOnHoursPersist t s
  | .mgmtVioChange t present => Sys2Proof.Machine.execMgmtVioChange t present s
  | .cageAssemblyInserted t p power => Sys2Proof.Machine.execCageAssemblyInserted t p power s
  | .perstDeassert t => Sys2Proof.Machine.execPerstDeassert t s

end Sys2Proof.Machine
end

