-- ==== Sys2Proof/Safety.lean ====
section
/-!
DEFINITION. The terms in which statements are made: the canonical form of the addressed memories, a core that can take an
operation, a result queued on it, commands that are taken, and completions on a queue.
-/
namespace Sys2Proof.Machine

/-! ### Memories -/

/-- Every addressed memory is in canonical form: addresses rise, and no listed byte is 0, which is what an unlisted byte reads as. These are
Tier H, Tier C, the bank of every core, and the banks and the program buffer of the firmware flash, which hold the complements of their
bytes. -/
def State.ramOk (s : State) : Bool :=
  cellsWf s.coherence.tierH && cellsWf s.coherence.tierC && s.cores.all (fun c => cellsWf c.2.bank) &&
    s.flash.banks.all (fun b => cellsWf b.2.bytes) && cellsWf s.flash.buf

/-! ### Ruhaic cores -/

/-- Core `n` takes an operation in slot `sl` with destination `d` in its current bundle: it issues, the slot and the destination are
free, and the bundle lies inside the code section (R257, R261, R264, R269). -/
def State.openSlot (s : State) (n : Nat) (sl : Slot) (d : Option Dest) : Bool :=
  let c := s.core n
  c.issuing && !c.slots.contains sl && (c.codeLen == 0 || decide (64 * c.pc < c.codeLen)) &&
    d.elim true (fun x => !c.dests.contains x)

/-- The state in which core `n` has taken an operation in slot `sl` with destination `d`, and `k` is the operation's own effect on it. -/
def State.took (s : State) (n : Nat) (sl : Slot) (d : Option Dest) (k : RCore → RCore) : State :=
  s.setCore n (k ((s.core n).occupy sl d))

/-- A result in flight: visible from `lat` bundles on (R263). -/
def RCore.inFlight (c : RCore) (lat : Nat) (d : Dest) (v : RegVal) (chain : Bool) : RCore :=
  { c with pending := c.pending ++ [{ due := c.bundles + lat, issued := c.bundles, dest := d, val := v, chain := chain }] }

/-- No source register of a list carries a mark (R260). -/
def RCore.clean (c : RCore) (xs : List Nat) : Bool := xs.all (fun n => !(c.readX n).poison)

/-- No lane that the guard enables of a source vector carries a mark (R265, R419). -/
def RCore.cleanV (c : RCore) (g : Guard) (vs : List Nat) : Bool := vs.all (fun n => (c.readV n).poison &&& c.lanes g == 0)

/-- The state after `k` free values are drawn. -/
def State.drawn (s : State) (k : Nat) : State := { s with free := s.free + k }

/-! ### Commands -/

/-- An admin or NVM command that is taken and not turned away because of a sanitize: its function fetches, and no sanitize runs
(R125, R605). -/
def State.takes (s : State) (q : Sqe) : Bool := s.fetches q.fn && !s.manage.sanitize.running

/-- Entries posted on completion queue `cq` of function `fn`, newest last. -/
def State.postedOn (s : State) (fn cq : Nat) : List Cqe := (tgetD (s.ctrl fn).cqs cq {}).posted

/-- Completion queue `cq` of function `fn` has room and holds nothing back (R49). -/
def State.roomOn (s : State) (fn cq : Nat) : Bool :=
  let q := tgetD (s.ctrl fn).cqs cq {}
  decide (q.posted.length + 1 < q.depth) && q.held.isEmpty

/-- Two states agree on what runs work: packets, objects, the cage, Tier H and Tier C, the Ruhaic cores and the Assay. -/
def State.sameRuns (s t : State) : Prop :=
  t.packets = s.packets ∧ t.objects = s.objects ∧ t.cage = s.cage ∧ t.coherence = s.coherence ∧ t.cores = s.cores ∧ t.assay = s.assay

/-- Two states agree on the frame: Meridian, the Orrery and Lodestar. -/
def State.sameFrame (s t : State) : Prop := t.meridian = s.meridian ∧ t.orrery = s.orrery ∧ t.lodestar = s.lodestar

/-- Two states agree on the board: power, units, firmware flash, activation, start-up, the boot area and the Almanac. -/
def State.sameBoard (s t : State) : Prop :=
  t.power = s.power ∧ t.units = s.units ∧ t.flash = s.flash ∧ t.activation = s.activation ∧ t.startup = s.startup ∧
    t.saved = s.saved ∧ t.almanac = s.almanac

/-- Two states agree on the peers: the fabric, the binary pair and the constellation. -/
def State.samePeers (s t : State) : Prop := t.fabric = s.fabric ∧ t.pair = s.pair ∧ t.const = s.const

/-- Two states agree on what is stored: the media, and every namespace and compute namespace. -/
def State.sameStore (s t : State) : Prop :=
  t.media = s.media ∧ t.link.namespaces = s.link.namespaces ∧ t.link.compute = s.link.compute

/-- The management endpoint in D0 answers: the module is powered, no loss is declared, its bus is supplied and stage 0 has ended
(R587, R617). -/
def State.busLives (s : State) : Bool :=
  !s.power.off && s.power.lossDeclared.isNone && s.power.mgmtVio && s.startup.ended.contains .d0

/-- No request of the management path waits for a wake (R588). -/
def State.mgmtAwake (s : State) : Bool := s.power.lantern != .asleep && s.power.lantern != .waking

/-- The power is on, D4 runs, and no module fault holds the module (R422, R479, R533). -/
def State.lives (s : State) : Bool := s.powered 4 && !s.global.mfault && !s.power.off

/-! ### Jobs -/

/-- Packet `key` runs opcode `op` under a plan, and nothing holds its work up at time `t`: no planned drift is gone, no other copy of
a seam is to be read, and where the plan has work its lodes, images and drifts are there. -/
def State.atWork (s : State) (t key op : Nat) (p : Packet) (pl : Plan) : Prop :=
  s.packet? key = some p ∧ p.plan = some pl ∧ p.phase = .running ∧ p.hdr.opcode = op ∧ s.global.mfault = false ∧
    s.lostDrift pl = none ∧ s.reroute_ p pl = pl ∧ (pl.fits = true → (s.at t).jobReady p pl = true)

/-- `x` differs from `s` in that the run of packet `key` has finished with work `w` under plan `pl`: its payload, cost and changes wait to
be delivered, and its cores are free. -/
def State.finishes (s x : State) (key : Nat) (p : Packet) (pl : Plan) (w : Work) : Prop :=
  (∃ p', x.packet? key = some p' ∧ p'.phase = .finished ∧ p'.status = .done ∧ p'.fault = none ∧ p'.payload = w.payload ∧
    p'.truncated = (w.trunc || pl.trunc) ∧ p'.satd = (p.satd || w.satd) ∧ p'.cost = pl.cost ∧ p'.energy = pl.energy ∧
    p'.changes = w.change.toList ∧ p'.deletes = w.delete.toList ∧ p'.cores = []) ∧
  (∀ k, k ≠ key → x.packet? k = s.packet? k) ∧ (∀ n, (x.core n).packet ≠ some key) ∧
  ((s.cores.map (·.1)).Nodup → ∀ n, (s.core n).packet ≠ some key → x.core n = s.core n) ∧ x.objects = s.objects ∧ s.sameFrame x ∧ x.coherence = s.coherence ∧
  x.link = s.link ∧ x.log = s.log ∧ x.units = s.units

end Sys2Proof.Machine
end

