-- ==== Sys2Proof/Certificates/Slice0/Obligations.lean ====
section
/-!
DEFINITION. The statements for the provers, family by family. Each docstring names the rules of spec/ that the statement formalises.
-/
open Sys2Proof
open Sys2Proof.Machine

/-- The block as a whole (the queue is the model's, notes/assumptions/5.md): a step runs the command at the front of the queue on the state
whose queue is the rest, and an empty queue idles. -/
def Obligations.StepRunsFront : Prop :=
  (∀ (s : State) (c : Instr) (rest : List Instr), step { s with pending := c :: rest } = exec c { s with pending := rest }) ∧
  (∀ s : State, s.pending = [] → step s = .next s)

/-- R313 and the whole table: in every state every command has an effect, but for a steward's load or store of an address that no steward
reaches, which faults; no command is refused (the fault is the model's, notes/assumptions/60.md). -/
def Obligations.EveryCommandAnswers : Prop :=
  ∀ (c : Instr) (s : State), (∃ t, exec c s = .next t) ∨
    ∃ f, exec c s = .fault f ∧ ((∃ t n a k, c = .stewardLoad t n a k ∧ stewardFault a = some f) ∨
      ∃ t n a b, c = .stewardStore t n a b ∧ stewardFault a = some f)

/-- No command changes the queue of the commands that wait (the queue is the model's, notes/assumptions/5.md). -/
def Obligations.QueueUntouched : Prop :=
  ∀ (c : Instr) (s t : State), exec c s = .next t → t.pending = s.pending

/-- R257, R313, R338, R519: from every state whose addressed memories (Tier H, Tier C, the cores' banks, the firmware flash) are in canonical
form, every step leaves them so: addresses rise and no listed byte is one that an unlisted address reads as.
The model's own choices in it: notes/assumptions/26. -/
def Obligations.MemoryStaysCanonical : Prop :=
  ∀ s t : State, s.ramOk = true → step s = .next t → t.ramOk = true

/-- R26, R62, R108, R128, R313, R503 and the register tables: what reset leaves. The memories list nothing and are in canonical form, the period is
250 µs, the frame is 0, LOD_CFG and the write cache feature have their reset values, every unit is ACTIVE, nothing waits or runs, and no stage
of start-up has ended.
The model's own choices in it: notes/assumptions/25, 26, 27. -/
def Obligations.ResetLeaves : Prop :=
  State.reset.ramOk = true ∧ State.reset.meridian.frame = 0 ∧ State.reset.meridian.period = 2 ∧ State.reset.lodestar.cfg = 0x00600002 ∧
  (∀ fn, (State.reset.ctrl fn).wce = true ∧ (State.reset.ctrl fn).enabled = false) ∧ (∀ u, (State.reset.unit u).state = .active) ∧
  State.reset.packets.live = [] ∧ State.reset.startup.ended = [] ∧ State.reset.global.mfault = false ∧ State.reset.pending = []

/-- R266 (Table Ruhaic 4), R263: the scalar operations on two X registers complete whenever their core can take them, their guard acts
and their sources carry no mark; the result is queued with the operation's latency and nothing else changes.
R262, R265, R266, R269: a scalar operation whose guard is off takes its slot and issues nothing; one whose core takes no operation
(no job, exited or stalled) changes nothing; and one that reads a marked X register notes poison consumed and queues nothing.
The model's own choices in it: notes/assumptions/2, 6. -/
def Obligations.ScalarOperations : Prop :=
  (∀ (s : State) (core : Nat) (sl : SSlot) (g : Guard) (xd xa xb : BitVec 5),
    s.openSlot core (slotOf sl) (some (.x xd.toNat)) = true → (s.core core).acts g = true →
    (s.core core).clean [xa.toNat, xb.toNat] = true →
    let a := ((s.core core).readX xa.toNat).val
    let b := ((s.core core).readX xb.toNat).val
    let put := fun (lat : Nat) (v : BitVec 64) =>
      s.took core (slotOf sl) (some (.x xd.toNat)) (fun c => c.inFlight lat (.x xd.toNat) (.x { val := v }) false)
    exec (.add core sl g xd xa xb) s = .next (put 1 (a + b)) ∧
    exec (.sub core sl g xd xa xb) s = .next (put 1 (a - b)) ∧
    exec (.and core sl g xd xa xb) s = .next (put 1 (a &&& b)) ∧
    exec (.or core sl g xd xa xb) s = .next (put 1 (a ||| b)) ∧
    exec (.xor core sl g xd xa xb) s = .next (put 1 (a ^^^ b)) ∧
    exec (.shl core sl g xd xa xb) s = .next (put 1 (a <<< (b.toNat % 64))) ∧
    exec (.shr core sl g xd xa xb) s = .next (put 1 (a >>> (b.toNat % 64))) ∧
    exec (.sar core sl g xd xa xb) s = .next (put 1 (a.sshiftRight (b.toNat % 64))) ∧
    exec (.mul core sl g xd xa xb) s = .next (put 3 (a * b)) ∧
    exec (.divu core sl g xd xa xb) s = .next (put 20 (if b = 0 then BitVec.allOnes 64 else a / b)) ∧
    exec (.fadd core sl g xd xa xb) s =
      .next (put 4 (BitVec.ofNat 64 (fadd32 (a.toNat % 2 ^ 32) (b.toNat % 2 ^ 32)))) ∧
    exec (.fmul core sl g xd xa xb) s =
      .next (put 4 (BitVec.ofNat 64 (fmul32 (a.toNat % 2 ^ 32) (b.toNat % 2 ^ 32))))) ∧
  (∀ (s : State) (core : Nat) (sl : SSlot) (g : Guard) (xd xa xb : BitVec 5),
    ((s.core core).issuing = false → exec (.add core sl g xd xa xb) s = .next s ∧ exec (.br core g 0) s = .next s ∧
      exec (.wait core g 0 0) s = .next s ∧ exec (.vadd core g xd xa xb 3) s = .next s) ∧
    (s.openSlot core (slotOf sl) (some (.x xd.toNat)) = true → (s.core core).acts g = false →
      exec (.add core sl g xd xa xb) s = .next (s.took core (slotOf sl) (some (.x xd.toNat)) id)) ∧
    (s.openSlot core (slotOf sl) (some (.x xd.toNat)) = true → (s.core core).acts g = true →
      ((s.core core).readX xa.toNat).poison = true → (s.core core).fault = none →
      exec (.add core sl g xd xa xb) s = .next (s.took core (slotOf sl) (some (.x xd.toNat)) (fun c =>
        { c with fault := some { rank := 1, locator := deviceLocator (c.firstPoison.getD 0) } }))))

/-- R266 (Table Ruhaic 4), R262: immediates, compares and moves between X and predicates complete, with the values the table gives.
The model's own choices in it: notes/assumptions/6. -/
def Obligations.ScalarMoves : Prop :=
  ∀ (s : State) (core : Nat) (sl : SSlot) (g : Guard) (xd xa xb : BitVec 5) (imm : BitVec 32),
    (s.core core).acts g = true → (s.core core).clean [xa.toNat, xb.toNat] = true →
    let c := s.core core
    let a := (c.readX xa.toNat).val
    let b := (c.readX xb.toNat).val
    let pd := xd.toNat % 8
    let ones := BitVec.allOnes 64
    let put := fun (v : BitVec 64) =>
      s.took core (slotOf sl) (some (.x xd.toNat)) (fun c => c.inFlight 1 (.x xd.toNat) (.x { val := v }) false)
    let putP := fun (v : BitVec 64) =>
      s.took core (slotOf sl) (some (.p pd)) (fun c => c.inFlight 1 (.p pd) (.p v ones) false)
    (s.openSlot core (slotOf sl) (some (.x xd.toNat)) = true →
      exec (.addi core sl g xd xa imm) s = .next (put (a + imm.signExtend 64)) ∧
      exec (.li core sl g xd imm) s = .next (put (imm.signExtend 64)) ∧
      exec (.lui core sl g xd xa imm) s = .next (put (imm.setWidth 64 <<< 32 ||| (a.setWidth 32).setWidth 64)) ∧
      exec (.movpx core sl g xd xa) s = .next (put (c.readP (xa.toNat % 8)))) ∧
    (s.openSlot core (slotOf sl) (some (.p pd)) = true →
      exec (.cmpeq core sl g xd xa xb) s = .next (putP (if a = b then ones else 0)) ∧
      exec (.cmplt core sl g xd xa xb) s = .next (putP (if a.toInt < b.toInt then ones else 0)) ∧
      exec (.cmpltu core sl g xd xa xb) s = .next (putP (if a.toNat < b.toNat then ones else 0)) ∧
      exec (.movxp core sl g xd xa) s = .next (putP a))

/-- R267, R268, R269: branches, loops and EXIT complete: a taken branch is due after two delay bundles, LOOP enters its loop or skips
its body, and EXIT ends the core's part of the job with the payload length of XA.
The model's own choices in it: notes/assumptions/6. -/
def Obligations.ControlSlots : Prop :=
  ∀ (s : State) (core : Nat) (g : Guard) (xa : BitVec 5) (imm : BitVec 32) (lc : BitVec 2) (last : BitVec 20) (cnt : BitVec 12),
    let c := s.core core
    let a := (c.readX xa.toNat).val
    (s.openSlot core .s1 none = true → c.acts g = true → c.clean [xa.toNat] = true →
      (c.branch = none →
        exec (.br core g imm) s = .next (s.took core .s1 none (fun c =>
          { c with branch := some (3, (BitVec.ofNat 64 c.pc + imm.signExtend 64).toNat) })) ∧
        exec (.brx core g xa) s = .next (s.took core .s1 none (fun c => { c with branch := some (3, a.toNat) }))) ∧
      (∀ p : Packet, c.packet.bind s.packet? = some p → (c.index = 0 → stagedMarked p a.toNat = false ∧ a.toNat ≤ p.hdr.answerLen) →
        exec (.exit core g xa) s = .next (s.took core .s1 none (fun c => { c with exited := true, payloadLen := a.toNat })))) ∧
    (s.openSlot core .c none = true → c.loops.length < 4 → c.loops.any (fun l => l.lc == lc.toNat) = false →
      (xa = 0 → cnt ≠ 0 →
        exec (.loop core lc xa last cnt) s = .next (s.took core .c none (fun c =>
          { c with newLoop := some { lc := lc.toNat, first := c.pc + 1, last := c.pc + last.toNat }
                   lc := tset c.lc lc.toNat cnt.toNat }))) ∧
      (xa = 0 → cnt = 0 →
        exec (.loop core lc xa last cnt) s = .next (s.took core .c none (fun c =>
          { c with skipTo := some (c.pc + last.toNat + 1), lc := tset c.lc lc.toNat 0 }))))

/-- R266, R270, Table Ruhaic 8: stores write the addressed bytes of the core's own bank and nothing else of the machine; a store to the
code or data section, or beyond the bank, notes an out-of-window fault and writes nothing.
R260, R270, R275: what a store writes is what a written byte of the bank then reads as, without a mark where its whole word is written with unmarked data; every
other byte of it reads as before; a unit that a store covers whole is written; and a bank in canonical form stays so.
The model's own choices in it: notes/assumptions/6, 26. -/
def Obligations.LocalStores : Prop :=
  (∀ (s : State) (core : Nat) (g : Guard) (rd xa : BitVec 5) (off : BitVec 32),
    s.openSlot core .m none = true → (s.core core).acts g = true →
    let c := s.core core
    let ax := mAddress c xa.toNat off false / 8 * 8
    let av := mAddress c xa.toNat off false / 256 * 256
    (c.writable ax 8 = true →
      exec (.stx core g rd xa off false) s = .next (s.took core .m none (fun c =>
        c.bankWrite ax ((le 8 (c.readX rd.toNat).val.toNat).map (fun b => (b, (c.readX rd.toNat).poison)))))) ∧
    (c.writable ax 8 = false → c.fault = none →
      exec (.stx core g rd xa off false) s = .next (s.took core .m none (fun c =>
        { c with fault := some { rank := 2, locator := coreLocator 2 core c.pc } }))) ∧
    (c.writable av 256 = true →
      exec (.stv core g rd xa off false) s = .next (s.took core .m none (fun c =>
        c.bankWrite av (((le 256 (c.readV rd.toNat).val.toNat).zipIdx).map
          (fun x => (x.1, (c.readV rd.toNat).poison.getLsbD (x.2 / 4)))))))) ∧
  (∀ (c : RCore) (a : Nat) (d : List (Byte × Bool)), cellsWf c.bank = true →
    let after := c.bankWrite a d
    cellsWf after.bank = true ∧
    (∀ x, c.unwritten (x / 64) = false →
      (∀ b, a ≤ x → d[x - a]? = some b → (after.bankByte x).1 = b.1) ∧
      (d.all (fun b => !b.2) = true → a ≤ x / 8 * 8 → x / 8 * 8 + 8 ≤ a + d.length → (after.bankByte x).2 = false)) ∧
    (∀ x, x < a ∨ a + d.length ≤ x → (after.bankByte x).1 = (c.bankByte x).1) ∧
    (∀ x, x < a / 8 * 8 ∨ (a + d.length + 7) / 8 * 8 ≤ x → after.bankByte x = c.bankByte x) ∧
    (∀ u, a ≤ 64 * u → 64 * u + 64 ≤ a + d.length → after.unwritten u = false))

/-- R266, R270: loads complete from any inside address of the bank while no stream is filling it: the bytes read, with their marks, are
queued with latency 4 for the register the form names.
The model's own choices in it: notes/assumptions/6, 7. -/
def Obligations.Loads : Prop :=
  ∀ (s : State) (core : Nat) (g : Guard) (rd xa : BitVec 5) (off : BitVec 32),
    let c := s.core core
    let bytes := fun (a n : Nat) => c.bankRead a n
    let quiet := fun (a n : Nat) => c.streams = [] ∧ a + n ≤ bankBytes ∧ (bytes a n).any (·.2) = false
    let ax := mAddress c xa.toNat off false / 8 * 8
    let av := mAddress c xa.toNat off false / 256 * 256
    let ab := mAddress c xa.toNat off false
    c.acts g = true → c.clean [xa.toNat] = true →
    (s.openSlot core .m (some (.x rd.toNat)) = true → quiet ax 8 →
      exec (.ldx core g rd xa off false) s = .next (s.took core .m (some (.x rd.toNat)) (fun c =>
        c.inFlight 4 (.x rd.toNat) (.x { val := BitVec.ofNat 64 (fromLe ((bytes ax 8).map (·.1))) }) false))) ∧
    (s.openSlot core .m (some (.v rd.toNat)) = true → quiet av 256 →
      exec (.ldv core g rd xa off false) s = .next (s.took core .m (some (.v rd.toNat)) (fun c =>
        c.inFlight 4 (.v rd.toNat) (.v (vOfBytes (bytes av 256)) (BitVec.allOnes 64)) false))) ∧
    (s.openSlot core .m (some (.v rd.toNat)) = true → quiet ab 4 →
      exec (.ldvb core g rd xa off false) s = .next (s.took core .m (some (.v rd.toNat)) (fun c =>
        c.inFlight 4 (.v rd.toNat) (.v (vOfBytes ((List.range 64).flatMap (fun _ => bytes ab 4))) (BitVec.allOnes 64)) false)))

/-- R271, R272, R273: a stream through a window that grants it joins the core's outstanding streams; WAIT takes its count from a token
that holds it and stalls otherwise; TCLR clears a token; DRAIN passes with no stream outstanding and stalls otherwise.
The model's own choices in it: notes/assumptions/6. -/
def Obligations.StreamsAndTokens : Prop :=
  ∀ (s : State) (core : Nat) (g : Guard) (xa xb xc : BitVec 5) (off : BitVec 32) (token win : BitVec 4) (r : Region),
    s.openSlot core .m none = true → (s.core core).acts g = true →
    let c := s.core core
    let x := fun (n : BitVec 5) => (c.readX n.toNat).val.toNat
    let tok := tgetD c.tokens token.toNat 0
    let st := fun (kind : StreamKind) (offs : List Nat) (len : Nat) => ({ id := c.nextStream, kind := kind, localAddr := x xa, win := win.toNat, offs := offs, rowLen := len, token := token.toNat, sig := false, issued := c.bundles } : Stream)
    let rows := (List.range (x xc)).map (fun i => fromLe ((c.bankRead (x xb + 8 * i) 8).map (·.1)))
    (s.region core win.toNat = some r → c.streams.length < 32 →
      (s.mayRead r (x xb) (x xc) = true → c.writable (x xa) (x xc) = true →
        ∃ t, exec (.sget core g xa xb xc token win) s = .next t ∧ (t.core core).streams = c.streams ++ [st .get [x xb] (x xc)] ∧
          (t.core core).bank = c.bank ∧ t.packets = s.packets ∧ t.coherence = s.coherence) ∧
      (s.mayWrite r (x xb) (x xc) = true → x xa + x xc ≤ bankBytes →
        ∃ t, exec (.sput core g xa xb xc token win false) s = .next t ∧ (t.core core).streams = c.streams ++ [st .put [x xb] (x xc)] ∧
          (t.core core).bank = c.bank ∧ t.packets = s.packets ∧ t.coherence = s.coherence) ∧
      (x xb + 8 * x xc ≤ bankBytes → rows.all (fun o => s.mayRead r o off.toNat) = true → c.writable (x xa) (x xc * off.toNat) = true →
        ∃ t, exec (.sgather core g xa xb xc off token win) s = .next t ∧
          (t.core core).streams = c.streams ++ [st .gather rows off.toNat] ∧ t.packets = s.packets ∧ t.coherence = s.coherence)) ∧
    (off.toNat % 2 ^ 16 ≤ tok → exec (.wait core g token off) s = .next (s.took core .m none (fun c =>
        { c with tokens := tset c.tokens token.toNat (tok - off.toNat % 2 ^ 16), stall := none }))) ∧
    (tok < off.toNat % 2 ^ 16 → exec (.wait core g token off) s = .next (s.took core .m none (fun c =>
        { c with stall := some (.token token.toNat (off.toNat % 2 ^ 16)) }))) ∧
    exec (.tclr core g token) s = .next (s.took core .m none (fun c => { c with tokens := tset c.tokens token.toNat 0 })) ∧
    exec (.drain core g) s = .next (s.took core .m none (fun c =>
        { c with stall := if c.streams.isEmpty then none else some .drain }))

/-- R272: a stream that completes leaves the outstanding streams and raises its token by one, saturating at 0xFFFF.
R263, R264, R260: when a bundle ends with no fault and no sample, the results that are due become visible: a single result for an X
register is read by the next bundle when its latency has passed, and not before; X0 still reads zero.
The model's own choices in it: notes/assumptions/2, 6. -/
def Obligations.StreamAndResultEnds : Prop :=
  (∀ (s : State) (core : Nat) (st : Stream) (key : Nat) (r : Region),
    let c := s.core core
    c.packet = some key → c.exited = false → c.stall = none → c.streams.find? (fun x => x.id == st.id) = some st →
    s.region core st.win = some r → st.sig = false →
    s.cage.allResident (st.pieces.flatMap (fun (x : Nat × Nat × Nat) => regionLodes r x.1 x.2.2)) = true →
    ∃ t, exec (.streamComplete core st.id) s = .next t ∧
      (t.core core).streams = c.streams.filter (fun x => x.id != st.id) ∧
      (t.core core).tokens = tset c.tokens st.token (min (tgetD c.tokens st.token 0 + 1) 0xFFFF) ∧
      (t.core core).pending = c.pending ∧ (t.core core).x = c.x ∧ (t.core core).v = c.v ∧ t.objects = s.objects) ∧
  (∀ (s : State) (core key n : Nat) (w : PendingWrite) (v : XVal),
    let c := s.core core
    c.packet = some key → c.exited = false → c.stall = none → c.fault = none → c.bundles + 1 ≤ c.watchdog → c.tapped = [] →
    c.bundleSat = 0 → c.pending = [w] → w.dest = .x n → w.val = .x v →
    ∃ t, exec (.resultWriteback core) s = .next t ∧ (t.core core).bundles = c.bundles + 1 ∧ (t.core core).slots = [] ∧
      (t.core core).dests = [] ∧
      (w.due ≤ c.bundles + 1 → (t.core core).readX n = (if n = 0 then {} else v) ∧ (t.core core).pending = []) ∧
      (c.bundles + 1 < w.due → (t.core core).readX n = c.readX n ∧ (t.core core).pending = [w]) ∧
      (t.core core).bank = c.bank ∧ t.packets = s.packets ∧ t.objects = s.objects ∧ t.coherence = s.coherence)

/-- R265, R266, R276: the element-wise vector operations complete on the types they accept, with the value of each element from the
elements of VA and VB, written in the lanes that the guard enables, at latency 2 for integers and 4 for floats.
R266, R279: compares and conversions complete: VCMP writes one bit a lane at latency 2, and VCVT and VCVTS write the converted elements
at latency 4, counting the saturations of the enabled elements.
The model's own choices in it: notes/assumptions/6, 7. -/
def Obligations.VectorArithmetic : Prop :=
  (∀ (s : State) (core : Nat) (g : Guard) (vd va vb : BitVec 5) (et : BitVec 4) (rnd : BitVec 2) (ty : EType),
    s.openSlot core .v (some (.v vd.toNat)) = true → (s.core core).cleanV g [va.toNat, vb.toNat] = true → eType et = some ty →
    let c := s.core core
    let put := fun (f : Nat → Nat → Nat) => s.took core .v (some (.v vd.toNat)) (fun c =>
      c.inFlight (if ty.isInt then 2 else 4) (.v vd.toNat)
        (.v { val := ofElems ty (List.zipWith f ((c.readV va.toNat).elems ty) ((c.readV vb.toNat).elems ty)) } (c.lanes g)) false)
    let w := ty.width
    (ty.isArith = true →
      exec (.vadd core g vd va vb et) s = .next (put (elemAdd false ty)) ∧
      exec (.vsub core g vd va vb et) s = .next (put (elemAdd true ty)) ∧
      exec (.vmul core g vd va vb et rnd) s = .next (put (elemMul (rndOf rnd) ty)) ∧
      exec (.vmax core g vd va vb et) s = .next (put (elemPick true ty)) ∧
      exec (.vmin core g vd va vb et) s = .next (put (elemPick false ty)) ∧
      exec (.vand core g vd va vb et) s = .next (put (fun a b => a &&& b)) ∧
      exec (.vor core g vd va vb et) s = .next (put (fun a b => a ||| b)) ∧
      exec (.vxor core g vd va vb et) s = .next (put (fun a b => a ^^^ b))) ∧
    (ty.isInt = true →
      exec (.vshl core g vd va vb et) s = .next (put (fun a b => a * 2 ^ (b % w) % 2 ^ w)) ∧
      exec (.vshr core g vd va vb et) s = .next (put (fun a b => a / 2 ^ (b % w))) ∧
      exec (.vsar core g vd va vb et) s = .next (put (fun a b => unsigned w (signed w a / 2 ^ (b % w)))) ∧
      (∀ a b : Nat, elemAdd false ty a b = (a + b) % 2 ^ w ∧ elemMul .nearest ty a b = a * b % 2 ^ w)) ∧
    (ty.isArith = false → c.fault = none →
      exec (.vadd core g vd va vb et) s = .next (s.took core .v (some (.v vd.toNat)) (fun c =>
        { c with fault := some { rank := 0, locator := coreLocator 1 core c.pc } })))) ∧
  (∀ (s : State) (core : Nat) (g : Guard) (vd va vb : BitVec 5) (et et2 : BitVec 4) (rnd : BitVec 2) (imm : BitVec 32) (ts td : EType),
    let c := s.core core
    (c.readV va.toNat).poison = 0 → (c.readV vb.toNat).poison = 0 → eType et = some ts → eType et2 = some td →
    (s.openSlot core .v (some (.p (vd.toNat % 8))) = true → ts.isArith = true →
      ∃ bits, exec (.vcmp core g vd va vb et imm) s = .next ((s.drawn 1).took core .v (some (.p (vd.toNat % 8))) (fun c =>
        c.inFlight 2 (.p (vd.toNat % 8)) (.p bits (c.lanes g)) false)) ∧
        (∀ i, i < 64 → ts.width = 32 → imm.toNat % 8 ≤ 3 →
          bits.getLsbD i = elemCmp ts (imm.toNat % 8) (((c.readV va.toNat).elems ts).getD i 0) (((c.readV vb.toNat).elems ts).getD i 0))) ∧
    (s.openSlot core .v (some (.v vd.toNat)) = true → ts.isConv = true → td.isConv = true → ts.width = td.width →
      let conv := fun (f : Nat → Nat × Bool) => (s.drawn 1).took core .v (some (.v vd.toNat)) (fun c =>
        let rs := ((c.readV va.toNat).elems ts).map f
        { c.inFlight 4 (.v vd.toNat) (.v { val := ofElems td (rs.map (·.1)) } (c.lanes g)) false with
          bundleSat := c.bundleSat + ((List.range (2048 / td.width)).filter (fun i =>
            (c.lanes g).getLsbD (laneOf td i) && (rs.getD i (0, false)).2)).length })
      exec (.vcvt core g vd va et et2 rnd) s = .next (conv (fun e => convertTo ts td (rndOf rnd) (ts.value e))) ∧
      exec (.vcvts core g vd va et et2 rnd imm) s =
        .next (conv (fun e => narrowTo td (rndOf rnd) (mulF (ts.value e) (of32 imm.toNat))))))

/-- R266: the further vector operations complete: the fused multiply-add, the compare into a predicate, the select, the reciprocal and the
exponential, accumulator moves, reductions into an X register, permutation, broadcast and the Assay sample, each with its latency.
The model's own choices in it: notes/assumptions/4, 6, 7. -/
def Obligations.VectorMoves : Prop :=
  ∀ (s : State) (core : Nat) (g : Guard) (vd va vb vc : BitVec 5) (imm : BitVec 32) (et : BitVec 4) (ty : EType),
    (s.core core).cleanV g [va.toNat, vb.toNat, vc.toNat] = true → eType et = some ty → ty.isArith = true →
    let c := s.core core
    let el := fun (v : BitVec 5) => (c.readV v.toNat).elems ty
    let onV := s.openSlot core .v (some (.v vd.toNat))
    let onA := s.openSlot core .v (some (.a (vd.toNat % 8)))
    let onX := s.openSlot core .v (some (.x vd.toNat))
    let putV := fun (lat : Nat) (v : BitVec 2048) (l : BitVec 64) =>
      s.took core .v (some (.v vd.toNat)) (fun c => c.inFlight lat (.v vd.toNat) (.v { val := v } l) false)
    (onV = true → (c.readV va.toNat).poison = 0 → (c.readV vb.toNat).poison = 0 →
      exec (.vsel core g vd va vb) s =
        .next (putV 2 (mergeLanes (c.readV vb.toNat) (c.readV va.toNat) (c.lanes g)).val (BitVec.allOnes 64)) ∧
      exec (.vexp core g vd va 9) s = .next (putV 8 (ofElems .i32 (((c.readV va.toNat).elems .i32).map fexp32)) (c.lanes g)) ∧
      exec (.vrcp core g vd va 9) s = .next (putV 8 (ofElems .i32 (((c.readV va.toNat).elems .i32).map frcp32)) (c.lanes g)) ∧
      exec (.accrd core g vd va) s = .next (s.took core .v (some (.v vd.toNat)) (fun c =>
        c.inFlight 2 (.v vd.toNat) (.v (c.readA (va.toNat % 8)) (c.lanes g)) false)) ∧
      (∀ f, ty = .fp f → exec (.vfma core g vd va vb vc et) s = .next (putV 4
        (ofElems ty (List.zipWith (fun x d => elemFma f x.1 x.2 d) (List.zip (el va) (el vb)) (el vc))) (c.lanes g))) ∧
      ((c.readX va.toNat).poison = false →
        exec (.vbcast core g vd va et) s = .next (putV 3
          (ofElems ty (List.replicate (2048 / ty.width) ((c.readX va.toNat).val.toNat % 2 ^ ty.width))) (c.lanes g))) ∧
      (∃ t, exec (.vperm core g vd va vb) s = .next t ∧ t.free = s.free + 1 ∧ ∃ v : BitVec 2048,
        (t.core core).pending = c.pending ++ [{ due := c.bundles + 3, issued := c.bundles, dest := .v vd.toNat, val := .v { val := v } (c.lanes g) }])) ∧
    (onA = true →
      exec (.accwr core g vd va) s = .next (s.took core .v (some (.a (vd.toNat % 8))) (fun c =>
        c.inFlight 2 (.a (vd.toNat % 8)) (.v (c.readV va.toNat) (c.lanes g)) true)) ∧
      exec (.accclr core g vd) s = .next (s.took core .v (some (.a (vd.toNat % 8))) (fun c =>
        c.inFlight 2 (.a (vd.toNat % 8)) (.v {} (c.lanes g)) false))) ∧
    (onX = true →
      exec (.vredadd core g vd va et) s = .next (s.took core .v (some (.x vd.toNat)) (fun c => c.inFlight 6 (.x vd.toNat)
        (.x { val := toX ty (redSum ty (enabledElems ty (c.lanes g) (c.readV va.toNat))) }) false)) ∧
      (enabledElems ty (c.lanes g) (c.readV va.toNat) ≠ [] →
        exec (.vredmax core g vd va et) s = .next ((s.drawn 1).took core .v (some (.x vd.toNat)) (fun c => c.inFlight 6 (.x vd.toNat)
          (.x { val := toX ty (foldFirst (elemPick true ty) 0 (enabledElems ty (c.lanes g) (c.readV va.toNat))) }) false)))) ∧
    (s.openSlot core .v none = true → ty.isTap = true →
      exec (.vtap core g va et imm) s = .next (s.took core .v none (fun c =>
        { c with tapped := c.tapped ++ [(imm.toNat % 256, (enabledElems ty (c.lanes g) (c.readV va.toNat)).map (tapSample ty))] })))

/-- R264, R277, R280 to R282: the tensor slot completes: MAC adds each lane's products to the chain's value, or to zero with CLR; TACC adds
the eight table entries that a lane's codes select; TLOAD and TBUILD write 128 tables at latency 8.
The model's own choices in it: notes/assumptions/6. -/
def Obligations.TensorSlot : Prop :=
  ∀ (s : State) (core : Nat) (g : Guard) (ad : BitVec 3) (va vb xc : BitVec 5) (eta etb : BitVec 4) (clr : Bool) (imm : BitVec 32)
    (ta tb : EType) (isInt : Bool) (per : Nat),
    let c := s.core core
    let l := c.lanes g
    let base := imm.toNat % 2048
    (s.openSlot core .t (some (.a ad.toNat)) = true → c.cleanV g [va.toNat, vb.toNat] = true → (c.chainBase ad.toNat).poison &&& l = 0 →
      (eType eta = some ta → eType etb = some tb → macPair ta tb = some (isInt, per) →
        exec (.mac core g ad va vb eta etb clr) s = .next (s.took core .t (some (.a ad.toNat)) (fun c =>
          let acc := if clr then ({} : VVal) else c.chainBase ad.toNat
          let ps := List.zip ((c.readV va.toNat).elems ta) ((c.readV vb.toNat).elems tb)
          c.inFlight 4 (.a ad.toNat) (.v { val := ofElems .i32 ((List.range 64).map (fun i =>
            macLane ta tb isInt ((acc.elems .i32).getD i 0) (window ps (i * per) per))) } l) true))) ∧
      (base ≤ 1536 → c.tablePoison = [] →
        exec (.tacc core g ad va imm) s = .next (s.took core .t (some (.a ad.toNat)) (fun c =>
          let codes := elemsOf 4 512 (c.readV va.toNat).val.toNat
          c.inFlight 4 (.a ad.toNat) (.v { val := ofElems .i32 ((List.range 64).map (fun i =>
            unsigned 32 ((((c.chainBase ad.toNat).elems .i32).getD i 0 : Int) + (List.range 8).foldl (fun (r : Int) j =>
              r + signed 16 (tgetD c.tables (16 * (base + (8 * i + j)) + codes.getD (8 * i + j) 0) 0)) 0))) } l) true)))) ∧
    (s.openSlot core .t none = true → base ≤ 1920 →
      (∃ t w, exec (.tbuild core g va imm) s = .next t ∧ (t.core core).pendingTables = c.pendingTables ++ [w] ∧ w.due = c.bundles + 8 ∧
        w.base = base ∧ w.lanes = l ∧ (∀ p k, p < 128 → k < 16 → ∀ x, codeValue (imm.toNat / 4096 % 4) k = some x →
          w.entries.getD (16 * p + k) 0 = unsigned 16 (x * signed 8 (((c.readV va.toNat).elems .i8).getD p 0)))) ∧
      (c.acts g = true → c.clean [xc.toNat] = true → c.streams = [] →
        ((c.readX xc.toNat).val.toNat / 4096 % 512) * 4096 + 4096 ≤ bankBytes →
        ∃ t w, exec (.tload core g xc imm) s = .next t ∧ (t.core core).pendingTables = c.pendingTables ++ [w] ∧ w.due = c.bundles + 8 ∧
          w.base = base ∧ w.entries = (List.range 2048).map (fun i =>
            leAt ((c.bankRead ((c.readX xc.toNat).val.toNat / 4096 % 512 * 4096) 4096).map (·.1)) (2 * i) 2)))

/-- R55, R56, R108, R111, R302, R319, R481: Get Features completes whenever its function fetches, a sanitize or not, with the value last
accepted, the default, the saved one or the capabilities, by SEL; a reserved SEL completes with Invalid Field in Command.
R57, R58, R109, R111, R128, R302, R319, R482, R485: Set Features without the Save bit completes for values that the feature accepts,
with the value in the place that the feature names and nothing else changed; a period other than the current one waits for its tick.
The model's own choices in it: notes/assumptions/29, 48, 65. -/
def Obligations.Features : Prop :=
  (∀ (s : State) (q : Sqe), s.fetches q.fn = true →
    let u := s.at q.t
    let gives := fun (r : Instr) (v : Nat) => exec r s = .next (u.complete q .success v)
    let plain := timestampBytes (u.now / 1000000) 0
    let tap := dwField q.d11 0 8
    (selectField q = 0 →
      gives (.getFeaturesFramePeriod q) (s.meridian.period + s.meridian.pend.elim 0 (fun p => 16 * p.1 + 128)) ∧
      gives (.getFeaturesLodestarConfig q) s.lodestar.cfgAccepted.toNat ∧
      exec (.getFeaturesTimestamp q) s = .next ((u.toHost q (s.lodestar.timestamp.elim plain (fun x =>
        timestampBytes (x.1 + (u.now - x.2) / 1000000) 1))).complete q .success) ∧
      gives (.getFeaturesPlacementDefaults q) (let v := tgetD s.cage.c2 q.fn (2, 90); v.1 + 256 * v.2) ∧
      gives (.getFeaturesAssayMode q) (let x := s.assay.tap q.fn tap; tapWord tap (x.pendCfg.getD x.cfg)) ∧
      gives (.getFeaturesPowerManagement q) s.power.req) ∧
    (selectField q = 1 →
      gives (.getFeaturesFramePeriod q) 2 ∧ gives (.getFeaturesLodestarConfig q) 0x00600002 ∧
      gives (.getFeaturesPlacementDefaults q) (2 + 256 * 90) ∧ gives (.getFeaturesPowerManagement q) 0) ∧
    (selectField q = 2 →
      gives (.getFeaturesFramePeriod q) s.saved.period ∧
      gives (.getFeaturesLodestarConfig q) (s.saved.c1h.getD 0x00600002).toNat ∧
      gives (.getFeaturesPlacementDefaults q) (let v := tgetD s.saved.c2 q.fn (2, 90); v.1 + 256 * v.2) ∧
      exec (.getFeaturesTimestamp q) s = .next ((u.toHost q plain).complete q .success)) ∧
    (selectField q = 3 → gives (.getFeaturesTimestamp q) 4 ∧ gives (.getFeaturesAssayMode q) 4 ∧
      gives (.getFeaturesLodestarConfig q) (if q.fn = 0 then 5 else 1)) ∧
    (3 < selectField q → ∀ r ∈ [Instr.getFeaturesFramePeriod q, .getFeaturesLodestarConfig q, .getFeaturesTimestamp q,
        .getFeaturesPlacementDefaults q, .getFeaturesAssayMode q, .getFeaturesPowerManagement q],
      exec r s = .next (u.complete q .invalidField))) ∧
  (∀ (s : State) (q : Sqe), s.fetches q.fn = true → saveBit q = false →
    let u := s.at q.t
    let done := fun (r : Instr) (x : State) => exec r s = .next (x.complete q .success)
    let ctrl := s.ctrl q.fn
    let ps := dwField q.d11 0 5
    let p := dwField q.d11 0 3
    done (.setFeaturesVolatileWriteCache q) (u.setCtrl q.fn { ctrl with wce := bitAt q.d11.toNat 0 }) ∧
    (dwField q.d11 8 7 ≤ 100 → done (.setFeaturesPlacementDefaults q)
      { u with cage := { u.cage with c2 := tset u.cage.c2 q.fn (dwField q.d11 0 2, dwField q.d11 8 7) } }) ∧
    (∀ c, c = tapCfgOf q → c.mode ≤ 2 → c.head ≤ 8 → 0x5F ≤ c.initScale → c.initScale ≤ 0x9F →
      done (.setFeaturesAssayMode q) { u with assay := { u.assay with
        taps := tmod u.assay.taps (q.fn * 256 + dwField q.d11 0 8) {} (fun x => { x with pendCfg := some c }) } }) ∧
    (q.fn ≠ 0 → ∀ r ∈ [Instr.setFeaturesTimestamp q, .setFeaturesLodestarConfig q, .setFeaturesPowerManagement q,
        .setFeaturesFramePeriod q false none], exec r s = .next (u.complete q .featureNotChangeable)) ∧
    (q.fn = 0 →
      done (.setFeaturesTimestamp q) (({ u with lodestar := { u.lodestar with timestamp := some (leAt q.data 0 6, u.now) } } : State).raiseM
        0x020B [BitVec.ofNat 8 (bit s.lodestar.timestamp.isSome)]) ∧
      (∀ v, s.lodestar.setC1h q.d11.toNat = some v →
        done (.setFeaturesLodestarConfig q) { u with lodestar := { u.lodestar with cfgAccepted := v } }) ∧
      (ps ≤ 2 → ∃ x, exec (.setFeaturesPowerManagement q) s = .next (({ u with power := x } : State).complete q .success) ∧
        x.req = ps ∧ x.cur = s.power.cur ∧ x.domains = s.power.domains ∧ x.lantern ≠ .pending) ∧
      (3 ≤ ps → ps ≤ 4 → s.lanternBarred = false →
        ∃ x, exec (.setFeaturesPowerManagement q) s = .next (({ u with power := x } : State).complete q .success) ∧
          x.req = ps ∧ x.cur = s.power.cur ∧ x.domains = s.power.domains ∧ x.lantern = .pending) ∧
      (p ≤ 5 → (s.const.role == .hewer && s.const.formed) = false →
        (p = s.meridian.period → done (.setFeaturesFramePeriod q false none)
          { u with meridian := { u.meridian with pend := none, pendPeer := false, owed := none } }) ∧
        (p ≠ s.meridian.period → s.shadowFor p = true → s.pair.state ≠ .paired → s.const.formed = false →
          let b := s.orrery.boundaryFrom (s.meridian.frame + 4)
          done (.setFeaturesFramePeriod q false none)
            (({ u with meridian := { u.meridian with pend := some (p, b), pendPeer := false, owed := none } } : State).raiseM 0x0102
              ([BitVec.ofNat 8 p] ++ le 8 b))))))

/-- R66 (with R65, Table Orrery 1): on the PF a descriptor with a maximum outside its range makes CONTRACT SET fail with Invalid Field in
Command and changes nothing; deleting a class that an entry of the active or shadow table names fails with Command Sequence Error; and a
CONTRACT SET that succeeds raises CONTRACT_CHANGED with the tenant, the class and the frame of its effect, the next cycle boundary. -/
def Obligations.ContractSet : Prop :=
  ∀ (s : State) (q : Sqe), s.takes q = true → q.fn = 0 →
    let u := s.at q.t
    let d := q.data
    let n := dwField q.d10 0 6
    let k := dwField q.d10 8 3
    let f := s.orrery.boundaryFrom (s.meridian.frame + 1)
    let changed := fun (x : Option ClassDef) =>
      ((({ u with orrery := { u.orrery with changes := u.orrery.changes ++ [{ tick := f, tenant := n, cls := k, deff := x }] } } : State).raise
        0x0107 n ([BitVec.ofNat 8 k, BitVec.ofNat 8 (bit x.isNone)] ++ le 8 f)).complete q .success)
    (bitAt q.d10.toNat 15 = false → 1 ≤ leAt d 0 4 → leAt d 0 4 ≤ 243 → 1 ≤ leAt d 4 2 → leAt d 4 2 ≤ 208 →
      exec (.contractSet q) s = .next (changed (some { cfMax := leAt d 0 4, lpdMax := leAt d 4 2, candMax := leAt d 6 4, paramMax := leAt d 10 4 }))) ∧
    (bitAt q.d10.toNat 15 = false → (leAt d 0 4 = 0 ∨ 243 < leAt d 0 4 ∨ leAt d 4 2 = 0 ∨ 208 < leAt d 4 2) →
      exec (.contractSet q) s = .next (u.complete q .invalidField)) ∧
    (bitAt q.d10.toNat 15 = true →
      exec (.contractSet q) s = .next (if s.orrery.names n k then u.complete q .commandSequence else changed none))

/-- R71 to R75: ORRERY LOAD completes on the PF: a table that passes every check becomes the shadow table, with its tick where it declares
the current period; and a failed check leaves the shadow table as it was, with its offset in DW0.
The model's own choices in it: notes/assumptions/41. -/
def Obligations.OrreryLoad : Prop :=
  ∀ (s : State) (q : Sqe), s.takes q = true → q.fn = 0 →
    let u := s.at q.t
    let d := q.data
    let tick := fun (p : Nat) => if p = s.meridian.period then some (s.orrery.boundaryFrom (s.meridian.frame + 4)) else none
    ∀ t, (u.readTable q.d10.toNat d).2 = t →
      (∀ c, (u.readTable q.d10.toNat d).1.find? (·.1) = some c → exec (.orreryLoad q) s = .next (u.complete q .invalidField c.2)) ∧
      ((u.readTable q.d10.toNat d).1.any (·.1) = false → s.meridian.pend = none →
        exec (.orreryLoad q) s = .next (((({ u with orrery := { u.orrery with shadow := some t, shadowAt := tick t.period } } : State).freezeImages
          t)).complete q .success))

/-- R56: Set Features C0h on a VF fails with Feature Not Changeable and changes nothing; Get Features C0h succeeds on every function. -/
def Obligations.FramePeriodOnVf : Prop :=
  ∀ (s : State) (q : Sqe), s.fetches q.fn = true →
    (q.fn ≠ 0 → ∀ both, exec (.setFeaturesFramePeriod q both none) s = .next ((s.at q.t).complete q .featureNotChangeable)) ∧
    (selectField q ≤ 3 → ∃ v, exec (.getFeaturesFramePeriod q) s = .next ((s.at q.t).complete q .success v))

/-- R126, R132, R368, R375, R122: a read of blocks that all hold data, whose protection information passes the checks asked for, sends them
to the host in order and completes with success; nothing but host memory, the SMART counts and the completion changes. A range beyond the
namespace, or above MDTS, completes with its error. A Flush of class A namespaces completes at once, and of a class J namespace waits for
a checkpoint that begins from now on.
The model's own choices in it: notes/assumptions/29, 40. -/
def Obligations.NvmReadFlush : Prop :=
  ∀ (s : State) (q : Sqe) (n : Namespace), s.takes q = true → tget? s.link.namespaces q.nsid = some n → n.fn = some q.fn →
    n.pair = false → n.nsid = q.nsid →
    let u := s.at q.t
    let k := nlbOf q
    let lba := slbaOf q
    let prinfo := dwField q.d12 26 4
    (mdtsBytes < k * n.lbaBytes → exec (.nvmRead q) s = .next (u.complete q .invalidField)) ∧
    (k * n.lbaBytes ≤ mdtsBytes → n.size < lba + k → exec (.nvmRead q) s = .next (u.complete q .lbaOutOfRange)) ∧
    (∀ bs : List (List Byte × List Byte), k * n.lbaBytes ≤ mdtsBytes → lba + k ≤ n.size →
      (List.range k).map (fun i => n.readBlock (lba + i)) = bs.map some →
      (n.hasMd = true → ∀ i b, bs[i]? = some b →
        piCheck n.pi (prinfo % 8) b.1 b.2 (dwField q.d15 0 16) (dwField q.d15 16 16) (q.d14.toNat + i) = none) →
      exec (.nvmRead q) s = .next (((u.toHost q (bs.flatMap (fun b => if bitAt prinfo 3 then b.1 else b.1 ++ b.2))).smart q.fn (fun c =>
        c.read (k * n.lbaBytes))).complete q .success)) ∧
    (n.classJ = false → (∀ x ∈ s.link.namespaces, x.2.nsid = q.nsid → x.2 = n) → q.nsid ≠ 0xFFFFFFFF →
      exec (.flush q true) s = .next (u.complete q .success)) ∧
    (n.classJ = true → (∀ x ∈ s.link.namespaces, x.2.nsid = q.nsid → x.2 = n) → q.nsid ≠ 0xFFFFFFFF →
      ∀ c, s.media.ckptRunning = some c → ∃ t w, exec (.flush q true) s = .next t ∧ t.media.flushes = s.media.flushes ++ [w] ∧
        w.fn = q.fn ∧ w.sqid = q.sqid ∧ w.cid = q.cid ∧ w.needs = c + 1 ∧ t.link = s.link ∧ s.sameRuns t ∧ s.sameFrame t ∧
        s.sameBoard t ∧ s.samePeers t)

/-- R128, R130, R131, R133, R381, R394 to R396: a write, a Write Zeroes or a deallocation of a namespace that is no pair namespace
completes while the media takes writes, its drift does not wait and the write buffer has room. After it the blocks it names read as the
command says (a deallocated block as before or as zeros), every other block reads as before, and no other namespace, run, frame, board or
peer state changes.
The model's own choices in it: notes/assumptions/31, 68. -/
def Obligations.NvmChanges : Prop :=
  ∀ (s : State) (q : Sqe) (n : Namespace), s.takes q = true → tget? s.link.namespaces q.nsid = some n → n.fn = some q.fn →
    n.pair = false → n.nsid = q.nsid → s.media.wp = false →
    let u := s.at q.t
    let k := nlbOf q
    let lba := slbaOf q
    let prinfo := dwField q.d12 26 4
    let app := dwField q.d15 0 16
    let b := n.lbaBytes
    let gen := n.hasMd && bitAt prinfo 3 && n.pi != 0
    let size := if gen then b else n.fullBytes
    let d := fun (i : Nat) => sliceBytes q.data (i * size) b
    let md := fun (i : Nat) => if gen then piOf (d i) app (q.d14.toNat + i) else if n.hasMd then sliceBytes q.data (i * size + b) 16 else []
    let zero := List.replicate b (0 : Byte)
    let unmapped := if n.hasMd then List.replicate 16 (0xFF : Byte) else []
    let zmd := fun (i : Nat) => if n.pi = 0 then List.replicate 16 (0 : Byte) else padTo 16 (piOf zero 0 (q.d14.toNat + i))
    let apart := fun (t : State) => s.sameRuns t ∧ s.sameFrame t ∧ s.sameBoard t ∧ s.samePeers t ∧ t.link.compute = s.link.compute ∧
      ∀ i, i ≠ q.nsid → tget? t.link.namespaces i = tget? s.link.namespaces i
    let room := u.fuaOf q n || u.media.hasRoom n.classJ (k * n.fullBytes)
    (k * b ≤ mdtsBytes → lba + k ≤ n.size → u.driftWaits n lba k = false → room = true →
      (gen = true ∨ ∀ i, i < k → n.hasMd = true → piCheck n.pi (prinfo % 8) (d i) (md i) app (dwField q.d15 16 16) (q.d14.toNat + i) = none) →
      ∃ t m, exec (.nvmWrite q true none) s = .next t ∧ tget? t.link.namespaces q.nsid = some m ∧ apart t ∧
        (∀ i, i < k → m.readBlock (lba + i) = some (padTo b (d i), if n.hasMd then padTo 16 (md i) else [])) ∧
        (∀ x, (x < lba ∨ lba + k ≤ x) → m.readBlock x = n.readBlock x) ∧
        (n.classJ = false ∨ u.fuaOf q n = true → m.durable = applySectors n.durable lba
          ((List.range k).map (fun i => some (.data (d i) (md i)))))) ∧
    (lba + k ≤ n.size → u.driftWaits n lba k = false → room = true →
      ∃ t m, exec (.writeZeroes q true none) s = .next t ∧ tget? t.link.namespaces q.nsid = some m ∧ apart t ∧
        (∀ i, i < k → m.readBlock (lba + i) = some (zero, if n.hasMd then zmd i else [])) ∧
        (∀ x, (x < lba ∨ lba + k ≤ x) → m.readBlock x = n.readBlock x)) ∧
    (bitAt q.d11.toNat 2 = true → (dsmRanges q).all (fun r => decide (r.1 + r.2 ≤ n.size)) = true →
      ∃ t m, exec (.datasetManagementDeallocate q true none) s = .next t ∧ tget? t.link.namespaces q.nsid = some m ∧ apart t ∧
        (∀ x, m.readBlock x = n.readBlock x ∨
          (m.readBlock x = some (zero, unmapped) ∧ ∃ r ∈ dsmRanges q, r.1 ≤ x ∧ x < r.1 + r.2)) ∧
        (∀ x, tget? n.blocks x = some .lost → (∃ r ∈ dsmRanges q, r.1 ≤ x ∧ x < r.1 + r.2) → m.readBlock x = some (zero, unmapped)))

/-- R120 to R122, R600: on the PF, a namespace is created under an NSID that none had, mapped to zeros and with a key of its own; it is
attached to a function below its limit and detached; and deleting it removes it with its key and its buffered data.
R604 to R606: a Sanitize that the state permits begins, saves its first step and completes once it has started; one that it does not, or
an action that the module lacks, fails; and an interrupted sanitize goes on at its saved step.
The model's own choices in it: notes/assumptions/20, 29, 33. -/
def Obligations.NamespacesAndSanitize : Prop :=
  (∀ (s : State) (q : Sqe) (pick : Nat), s.takes q = true → q.fn = 0 →
    let u := s.at q.t
    let d := q.data
    let id := u.freeNsid pick
    let n : Namespace := { nsid := id, size := leAt d 0 8, lbaf := leAt d 26 1 % 16, pi := leAt d 29 1 % 8, classJ := leAt d 3072 1 == 1, pair := leAt d 3073 1 == 1 }
    let key := s.manage.nextKey + 1
    let fn := leAt d 2 2
    (leAt d 3072 1 ≤ 1 → leAt d 3073 1 = 0 → 0 < n.size → formatOk n.lbaf n.pi = true → s.link.namespaces.length < 1024 →
      n.size * n.lbaBytes ≤ u.capacityLeft →
      exec (.namespaceManagementCreate q pick) s = .next (({ u with
        link := { u.link with namespaces := tset u.link.namespaces id n }
        manage := { u.manage with nsKeys := tset u.manage.nsKeys id key, nextKey := key } } : State).complete q .success id) ∧
      tget? s.link.namespaces id = none ∧ ∀ x, x < n.size → n.readBlock x =
        some (List.replicate n.lbaBytes 0, if n.hasMd then List.replicate 16 0xFF else [])) ∧
    (∀ m : Namespace, q.nsid ≠ 0xFFFFFFFF → tget? s.link.namespaces q.nsid = some m →
      (∃ t, exec (.namespaceManagementDelete q) s = .next t ∧ tget? t.link.namespaces q.nsid = none ∧
        tget? t.manage.nsKeys q.nsid = none ∧ (∀ e ∈ t.media.buffer, e.nsid ≠ q.nsid) ∧
        (∀ i, i ≠ q.nsid → tget? t.link.namespaces i = tget? s.link.namespaces i) ∧ s.sameRuns t ∧ s.sameFrame t ∧ s.sameBoard t) ∧
      (leAt d 0 2 = 1 → fn ≤ 63 →
        (dwField q.d10 0 4 = 0 → m.fn = none →
          (s.link.namespaces.filter (fun x => x.2.fn == some fn)).length < attachLimit fn →
          exec (.namespaceAttachment q) s = .next ((({ u with link := { u.link with
            namespaces := tset u.link.namespaces q.nsid { m with fn := some fn } } } : State).nsNotice (some fn)).complete q .success)) ∧
        (dwField q.d10 0 4 = 0 → m.fn ≠ none → exec (.namespaceAttachment q) s = .next (u.complete q .alreadyAttached)) ∧
        (dwField q.d10 0 4 = 1 → m.fn = some fn →
          exec (.namespaceAttachment q) s = .next ((({ u with link := { u.link with
            namespaces := tset u.link.namespaces q.nsid { m with fn := none } } } : State).nsNotice (some fn)).complete q .success)))) ∧
    (q.nsid ≠ 0xFFFFFFFF → tget? s.link.namespaces q.nsid = none →
      exec (.namespaceManagementDelete q) s = .next (u.complete q .invalidNamespace) ∧
      exec (.namespaceAttachment q) s = .next (u.complete q .invalidNamespace))) ∧
  (∀ (s : State) (q : Sqe) (t : Nat), s.takes q = true → q.fn = 0 →
    let u := s.at q.t
    let act := q.d10.toNat % 8
    let ends := fun (r : Instr) (x : NvmeStatus) => exec r s = .next (u.complete q x)
    let begun := ((({ u with saved := { u.saved with sanitize := some (1, act) }, manage := { u.manage with sanitize := { u.manage.sanitize with
      running := true, active := true, step := 1, action := act, began := u.now, frame := s.meridian.frame, driftsReset := false, cdw10 := q.d10.toNat } } } : State)).raiseM
        0x0B01 [BitVec.ofNat 8 act]).complete q .success
    (∀ r ∈ [Instr.sanitizeCryptoErase q, .sanitizeBlockErase q],
      (act = 2 ∨ act = 4 → s.sanitizable = true → exec r s = .next begun) ∧
      (act = 2 ∨ act = 4 → s.sanitizable = false → ends r .commandSequence) ∧
      (act = 3 ∨ 4 < act ∨ act = 0 → ends r .invalidField)) ∧
    (s.pair.state = .paired ∨ s.pair.state = .resync ∨ s.pair.state = .conflict → s.sanitizable = false) ∧
    (∀ x : State, x.manage.sanitize.running = true → x.manage.sanitize.active = false → x.done .mount = true → x.global.mfault = false →
      exec (.sanitizeResume t) x = .next (let y := x.at t; { y with manage := { y.manage with sanitize := { y.manage.sanitize with
        active := true, began := y.now, frame := x.meridian.frame, driftsReset := false } } })))

/-- R90, R407, R506, R575, R606, R609, R610, R639, R640: Get Log Page sends the part of the page that the command asks for and completes with
success; an offset past the page's end fails with Invalid Field in Command; C1h is 64 bytes and a partition of 12,288, C4h is the PF's
alone, and reading C0h without RAE lets its next record be announced.
R566, R576 to R578, R551, R582: a read-and-clear waits for the next tick, and then sends the partition as it stood before the clear and
leaves it at zero, its window beginning at the current frame; no other partition changes. TAL_CLEAR asks for a clear at the next tick;
Tally is persisted every 60 s; and a trace that is enabled restarts at SEQ 0 with the filters written.
The model's own choices in it: notes/assumptions/22. -/
def Obligations.LogPagesAndTally : Prop :=
  (∀ (s : State) (q : Sqe), s.fetches q.fn = true →
    let u := s.at q.t
    let serves := fun (r : Instr) (v : State) (page : List Byte) =>
      (logOffset q ≤ page.length →
        exec r s = .next ((v.toHost q ((page.drop (logOffset q)).take (logLength q))).complete q .success)) ∧
      (page.length < logOffset q → exec r s = .next (v.complete q .invalidField))
    let n := if q.fn = 0 then logId q else q.fn
    (q.fn = 0 → logId q ≤ 63 → logBit q = false → serves (.getLogPageTallySnapshot q) u (u.pageC1 n false)) ∧
    (q.fn ≠ 0 → logBit q = false → serves (.getLogPageTallySnapshot q) u (u.pageC1 q.fn false)) ∧
    (q.fn ≠ 0 → logBit q = true → exec (.getLogPageTallySnapshot q) s = .next (u.complete q .invalidField)) ∧
    (u.pageC1 n false).length = 64 + 12288 ∧
    (n ≤ 63 → ∃ page, page.length = 64 + 9 * 64 ∧ serves (.getLogPageTenantPercentiles q) u page) ∧
    (63 < n → exec (.getLogPageTenantPercentiles q) s = .next (u.complete q .invalidField)) ∧
    (q.fn ≠ 0 ∨ logId q ≤ 63 ∨ logId q = 0xFF → ∃ page, 64 ≤ page.length ∧ serves (.getLogPageShiftBookStatus q) u page ∧
      page.take 4 = le 4 ((s.packets.live.map (·.2)).filter (fun p => (n == 0xFF || p.tenant == n) &&
        (p.phase != .answered || p.cqeHeld))).length) ∧
    (q.fn = 0 → ∃ page, page.length = 64 + 16 * 375 ∧ serves (.getLogPageUnitTable q) u page) ∧
    (q.fn ≠ 0 → exec (.getLogPageUnitTable q) s = .next (u.complete q .invalidLogPage)) ∧
    serves (.getLogPageSmart q) u (u.pageSmart q.fn) ∧
    (∃ k, serves (.getLogPageSanitizeStatus q) (u.drawn 1) (u.pageSanitize k)) ∧
    (logOffset q % 32 = 0 → logBit q = false → logId q = 0 → ∃ page, 64 ≤ page.length ∧
      serves (.getLogPageEventLog q)
        (if logRae q then u else u.setCtrl q.fn { s.ctrl q.fn with eventUnread := false }) page ∧
      page.drop 64 = (s.currentRecords.filter (fun r => q.fn == 0 || r.tenant == q.fn)).flatMap EventRec.encode) ∧
    (logOffset q % 32 ≠ 0 → exec (.getLogPageEventLog q) s = .next (u.complete q .invalidField)) ∧
    exec (.asynchronousEventRequest q) s = .next (u.setCtrl q.fn { s.ctrl q.fn with aers := (s.ctrl q.fn).aers ++ [(q.sqid, q.cid)] })) ∧
  (∀ (s : State) (q : Sqe) (t : Nat) (v : BitVec 32),
    let u := s.at q.t
    let w := s.at t
    let f := s.meridian.frame
    (s.fetches q.fn = true →
      (q.fn ≠ 0 → exec (.tallyReadAndClear q) s = .next (u.complete q .invalidField)) ∧
      (q.fn = 0 → logId q ≤ 63 → exec (.tallyReadAndClear q) s = .next { u with tally := { u.tally with
        reads := u.tally.reads ++ [{ fn := 0, sqid := q.sqid, cid := q.cid, tenant := logId q, buf := q.buf, offset := logOffset q, length := logLength q, frame := f }] } })) ∧
    (∀ r, s.tally.reads = [r] → r.frame < f → s.tally.clears = [] → s.tally.clearAll = none → s.global.mfault = false →
      ∃ x, exec (.partitionClear t) s = .next x ∧ x.tally.reads = [] ∧
        x.tally.part r.tenant = { firstFrame := f, clearBoot := s.meridian.bootCount } ∧
        (∀ n, n ≠ r.tenant → x.tally.part n = s.tally.part n) ∧
        x.link = (({ w with link := { w.link with mem := writeRuns s.link.mem r.buf (((s.pageC1 r.tenant true).drop r.offset).take r.length) } } :
          State).completeOn r.fn r.sqid r.cid .success 0 0).link ∧ s.sameRuns x ∧ s.sameFrame x ∧ s.sameBoard x ∧ s.samePeers x) ∧
    (s.powered 4 = true →
      (bitAt v.toNat 9 = true → exec (.talClear t v) s = .next { w with tally := { w.tally with clearAll := some f } }) ∧
      (bitAt v.toNat 9 = false → bitAt v.toNat 8 = true →
        exec (.talClear t v) s = .next { w with tally := { w.tally with clears := w.tally.clears ++ [(v.toNat % 64, f)] } }) ∧
      (s.global.mfault = false → s.tally.persistedAt + 60000000000 ≤ w.now → ∃ x, exec (.tallyPersist t) s = .next x ∧
        x.tally.persisted = s.tally.parts ∧ x.tally.parts = s.tally.parts ∧ x.tally.persistedAt = w.now ∧ s.sameRuns x ∧ s.sameBoard x)) ∧
    (s.powered 4 = false → exec (.talClear t v) s = .next { w with power := { w.power with offwr := true } }) ∧
    (∀ g, s.tailings.restart = some g → g < f → ∃ x, exec (.traceEnable t) s = .next x ∧ x.tailings.restart = none ∧
      x.tailings.cfg = s.tailings.cfgNext ∧ x.tailings.seq ≤ 1 ∧ x.log = s.log ∧ x.tally = s.tally ∧ x.link = s.link ∧ s.sameRuns x))

/-- R403, R424 to R426, R611: the event log is persisted once a second, moves to its spare region when a page of the ring is lost, and to
the registers when that or the flash log area fails; a repaired structure is recorded; and each powered hour is counted in the boot area.
The model's own choices in it: notes/assumptions/21, 70. -/
def Obligations.EventLogStages : Prop :=
  ∀ (s : State) (t : Nat) (lost : List Nat) (kind : Nat), s.powered 4 = true → s.global.mfault = false →
    let u := s.at t
    (s.log.stage ≠ 3 → s.log.lastPersistNs + 1000000000 ≤ u.now →
      (∃ x, exec (.eventLogPersist t false) s = .next x ∧
        (let all := s.log.flash ++ (s.log.ring.drop s.log.persisted).map (fun r => (s.meridian.bootCount, r))
         let out := (all.take (all.length - ringRecords)).map (·.1)
         x.log.flash = keepNewest all ∧ (∀ b, b ∈ x.log.lostBoots ↔ b ∈ s.log.lostBoots ∨ b ∈ out) ∧
           x.log.recordsLost = (s.log.recordsLost || out.contains s.meridian.bootCount)) ∧
        x.log.persisted = s.log.ring.length ∧ x.log.lastPersistNs = u.now ∧ x.log.ring = s.log.ring ∧ x.log.stage = s.log.stage ∧
        s.sameRuns x ∧ s.sameFrame x ∧ s.sameBoard x ∧ s.samePeers x) ∧
      exec (.eventLogPersist t true) s = .next (u.lastGasp 1 true)) ∧
    (s.log.stage = 1 → ∃ x n, exec (.logRelocated t lost false) s = .next x ∧ x.log.stage = 2 ∧
      n = (s.log.ring.filter (fun r => lost.contains r.seq)).length ∧
      (∃ rec, x.log.ring.getLast? = some rec ∧ rec.code = 0x0C01 ∧ rec.data = padTo 22 (le 4 n ++ le 8 s.log.lastPersistNs)) ∧
      s.sameRuns x ∧ s.sameFrame x ∧ s.sameBoard x ∧ s.samePeers x) ∧
    (s.log.stage = 2 → exec (.logLastGasp t 0 true) s = .next (u.lastGasp 0 true)) ∧
    (s.log.stage ≠ 3 → exec (.logLastGasp t 1 false) s = .next (u.lastGasp 1 false) ∧
      ∃ x, exec (.logLastGasp t 1 false) s = .next x ∧ x.log.stage = 3 ∧ x.log.regionReadable = false ∧ x.log.ring = s.log.ring ∧
        x.log.lgWidx = (s.log.lgWidx + 1) % 16) ∧
    exec (.structRepaired t kind true false) s = .next (u.raiseM 0x0504 [BitVec.ofNat 8 kind]) ∧
    (kind ≠ 0 → exec (.structRepaired t kind false false) s = .next (u.moduleFault 2)) ∧
    exec (.structRepaired t 0 false true) s = .next (u.raiseM 0x0504 [0]) ∧
    exec (.structRepaired t 0 false false) s = .next (u.moduleFault 1) ∧
    (∀ n, n = (u.now - s.manage.hoursAt) / hourNs → 0 < n → exec (.powerOnHoursPersist t) s = .next { u with
      saved := { u.saved with powerOnHours := u.saved.powerOnHours + n }
      manage := { u.manage with hoursAt := u.manage.hoursAt + n * hourNs } })

/-- R555, R556, R569, R12, R480: a host read that BAR2 accepts returns the register's value; of a LO and HI pair read with one access, the
two halves as they stood at one time; an RC field of a powered block is cleared by the PF's read, and other registers are not changed. A
request of another shape sets BADACC and returns zeros.
R16, R17, R322, R480, R558, R559, R564: a host write reaches its register when its block is powered, and otherwise sets OFFWR and nothing
else; a VF's write does nothing; a Q-class write takes effect on a quiesced unit and is else ignored with WRQ; a quota that fits is saved
and waits for the next tick, and another sets QREJ; and the scrub of Tier S marks the words it could not correct.
The model's own choices in it: notes/assumptions/55. -/
def Obligations.Registers : Prop :=
  (∀ (s : State) (t off : Nat), s.reachable = true →
    let u := (s.at t).accrueBusy (fun _ => true)
    let w := s.at t
    let read := fun (x : State) (vs : List Nat) => ({ x with link := { x.link with readData := vs } } : State)
    (off % 4 = 0 → isLo 0 off = true → (off < 4 ∨ isLo 0 (off - 4) = false) → off % 4096 ≤ 4088 → ∃ x,
      exec (.latchingPairRead t 0 off true) s = .next (read x [u.regNow off, u.regNow (off + 4)]) ∧
      x.cores = u.cores ∧ x.packets = s.packets ∧ x.objects = s.objects ∧ x.log = s.log ∧ x.tally = s.tally ∧ x.link = s.link) ∧
    (∀ n, 0 < n → n ≤ 63 → s.link.vfEnabled.contains n = true → exec (.latchingPairRead t n 0 false) s = .next (read u [n])) ∧
    (off % 4 = 0 → isLo 0 off = false → (off < 4 ∨ isLo 0 (off - 4) = false) → off < 0xA10000 →
      exec (.rcFieldRead t off false) s = .next (read (if u.blockPowered off then u.clearRc off else u) [u.regNow off])) ∧
    (∀ n write, shapeOk off n = false → exec (.badAccess t off n true write) s = .next (let x := { w with global := { w.global with
      badacc := true, badaccAddr := off % 2 ^ 26 } }; if write then x else read x (List.replicate (ceilDiv n 4) 0))) ∧
    (∀ n write, exec (.badAccess t off n false write) s = .next (let x := { w with global := { w.global with
      badacc := true, badaccAddr := off % 2 ^ 26 } }; if write then x else read x (List.replicate (ceilDiv n 4) 0)))) ∧
  (∀ (s : State) (t off n : Nat) (v : BitVec 32), s.reachable = true →
    let u := s.at t
    (off % 4 = 0 → u.blockPowered off = true → exec (.registerWrite t 0 off v none) s = .next (u.writeReg off v.toNat)) ∧
    (off % 4 = 0 → u.blockPowered off = false →
      exec (.registerWrite t 0 off v none) s = .next { u with power := { u.power with offwr := true } }) ∧
    (n ≠ 0 → exec (.registerWrite t n off v none) s = .next u) ∧
    (u.blockPowered 0x2C = true → exec (.registerWrite t 0 0x2C v none) s = .next { u with global := { u.global with scratch := v.toNat } }) ∧
    (n < 64 → u.blockPowered (0x100020 + 0x1000 * n) = true → (u.unit (256 + n)).quiesced = true →
      exec (.qClassWrite t n v) s = .next { u with blocks := { u.blocks with
        drifts := tmod u.blocks.drifts n {} (fun d => d.writeCfg v.toNat) } }) ∧
    (n < 64 → u.blockPowered (0x100020 + 0x1000 * n) = true → (u.unit (256 + n)).quiesced = false →
      ∃ x, exec (.qClassWrite t n v) s = .next x ∧ x.global.wrq = true ∧ x.global.wrqAddr = 0x100020 + 0x1000 * n ∧
        (let d := tgetD s.blocks.drifts n {}; tgetD x.blocks.drifts n {} = { d with wrq := true }) ∧
        (x.unit (256 + n)).wrq = true ∧ s.sameRuns x ∧ s.sameFrame x) ∧
    (∀ k, k < 12 → n = 64 + k → u.blockPowered (0x200000 + 0x1000 * k) = true → (u.unit (320 + k)).quiesced = true →
      exec (.qClassWrite t n v) s = .next { u with blocks := { u.blocks with
        clusters := tmod u.blocks.clusters k {} (fun c => { c with scrub := v.toNat % 256 }) } }) ∧
    (n < 64 → u.blockPowered (0x400100 + 4 * n) = true → let m := v.toNat % 2 ^ 23
      let kept := sumNat (((List.range 64).filter (· != n)).map (fun k => (tget? s.cage.quotaPending k).elim (s.quota k) (·.1)))
      (m + kept ≤ s.cage.quotable → s.fixedCharge n ≤ m → exec (.stpQuotaWrite t n v) s = .next ((({ u with cage := { u.cage with
        quotaPending := tset u.cage.quotaPending n (m, s.meridian.frame) } } : State)).save (fun b => { b with quotas := tset b.quotas n m }))) ∧
      (s.cage.quotable < m + kept → exec (.stpQuotaWrite t n v) s = .next { u with cage := { u.cage with qrej := true } })) ∧
    (∀ corrected core word, n < 12 → core < 16 → word < 196608 → (tgetD s.blocks.clusters n {}).scrub ≠ 0 → s.powered (unitDomain (320 + n)) = true →
      ∃ x, exec (.tierSBackgroundScrub t n corrected [(core, word)]) s = .next x ∧
        (x.core (64 + 16 * n + core)).bankPoison.contains word = true ∧
        (x.core (64 + 16 * n + core)).bank = (s.core (64 + 16 * n + core)).bank ∧
        (∀ m, m ≠ 64 + 16 * n + core → x.core m = s.core m) ∧ x.packets = s.packets ∧ x.log = s.log ∧
        (tgetD x.blocks.clusters n {}).seUe = satAdd 16 (tgetD s.blocks.clusters n {}).seUe 1))

/-- R587 to R592 (Table Mgmt 1): NVMe-MI requests are answered as the table says: health, data structures, configuration, VPD (whose write
fails), the register read, which changes nothing but its latches, and admin commands tunnelled as the PF would issue them, of which those
that are not listed fail with Invalid Command Opcode.
The model's own choices in it: notes/assumptions/22. -/
def Obligations.MiCommands : Prop :=
  ∀ (s : State) (t : Nat) (q : Sqe), s.busLives = true →
    let u := s.at t
    let v := s.at q.t
    let gives := fun (r : Instr) (bytes : List Byte) => exec r s = .next (u.reply 0 bytes)
    let fails := fun (r : Instr) => exec r s = .next (u.reply 4 [])
    let ids := fun (first n : Nat) => (s.controllerIds.filter (fun c => decide (first ≤ c))).take n
    let tunnelled := fun (x : State) (st : NvmeStatus) (dw0 : Nat) => ({ x with manage := { x.manage with
      replies := { bytes := [], nvme := some st, dw0 := dw0 } :: x.manage.replies } } : State)
    gives (.subsystemHealthStatusPoll t false) (le 1 (8 * bit s.link.up + 16 * bit (!s.global.mfault) + 32 * bit (!s.global.mfault)) ++
      le 1 s.criticalWarning ++ le 1 (tempByte s.composite) ++ le 1 s.percentUsed ++ le 2 s.healthChange) ∧
    (∃ x, exec (.subsystemHealthStatusPoll t true) s = .next x ∧ x.healthChange = 0 ∧ s.sameRuns x ∧ s.sameFrame x ∧ s.sameBoard x ∧
      s.samePeers x ∧ x.link = s.link ∧ x.log = s.log) ∧
    (∀ off n, 0 < n → n ≤ 16 → off % 4 = 0 → ∃ (x : State) (vs : List Nat), exec (.registerRead t off n) s = .next (x.reply 0 (vs.flatMap (le 4))) ∧
      vs.length = n ∧ s.sameRuns x ∧ s.sameFrame x ∧ s.sameBoard x ∧ s.samePeers x ∧ x.link = s.link ∧ x.log = s.log ∧ x.tally = s.tally ∧
      x.blocks = s.blocks ∧ x.tailings = s.tailings) ∧
    (∀ off n, n = 0 ∨ 16 < n ∨ off % 4 ≠ 0 → fails (.registerRead t off n)) ∧
    (s.mgmtAwake = true →
      (∀ first n, ∃ bytes, gives (.controllerHealthStatusPoll t first n) (le 1 (ids first n).length ++ bytes) ∧
        bytes.length = 16 * (ids first n).length) ∧
      (∃ bytes, bytes.length = 32 ∧ bytes.take 3 = [1, 1, 2] ∧
        exec (.readNvmeMiDataStructure t 0 0) s = .next ((u.drawn 1).reply 0 bytes)) ∧
      exec (.readNvmeMiDataStructure t 2 0) s =
        .next ((u.drawn 1).reply 0 (le 2 s.controllerIds.length ++ s.controllerIds.flatMap (le 2))) ∧
      (∀ typ, 4 < typ → exec (.readNvmeMiDataStructure t typ 0) s = .next ((u.drawn 1).reply 4 [])) ∧
      gives (.configurationGet t 1) (le 3 (if s.manage.smbusKhz = 100 then 1 else if s.manage.smbusKhz = 400 then 2 else 3)) ∧
      gives (.configurationGet t 3) (le 3 s.manage.mtu) ∧ (∀ id, 3 < id → fails (.configurationGet t id) ∧ fails (.configurationSet t id 0)) ∧
      (∀ c, c ∈ [(1, 100), (2, 400), (3, 1000)] → exec (.configurationSet t 1 c.1) s =
        .next (({ u with manage := { u.manage with smbusKhz := c.2 } } : State).reply 0 [])) ∧
      gives (.configurationSet t 3 64) [] ∧ (∀ n, n ≠ 64 → fails (.configurationSet t 3 n)) ∧
      (∀ off n, ∃ bytes, bytes.length = n ∧ gives (.vpdRead t off n) bytes) ∧ fails (.vpdWrite t)) ∧
    (s.mgmtAwake = true →
      (∀ opc, opc ∉ [0x02, 0x06, 0x0A, 0x84] → exec (.miTunnelledAdmin q opc) s = .next (tunnelled v .invalidOpcode 0)) ∧
      (dwField q.d10 0 8 = 0xC0 → selectField q = 0 →
        exec (.miTunnelledAdmin q 0x0A) s = .next (tunnelled v .success s.meridian.c0h)) ∧
      exec (.miTunnelledAdmin q 0x84) s = .next (let r := v.startSanitize q.d10.toNat; tunnelled r.1 r.2 0))

/-- R587, R593 to R598: MCTP, PLDM and SPDM requests are answered: addresses and the endpoint ID, the sensors of Table Mgmt 3, the event
receiver, a firmware update, which ends at ACTIVATE_FIRMWARE with the boot record naming the new slot, the measurement blocks in their
format, and at most four sessions on a transport.
The model's own choices in it: notes/assumptions/23, 24. -/
def Obligations.MctpPldmSpdm : Prop :=
  ∀ (s : State) (t : Nat), s.busLives = true → s.mgmtAwake = true →
    let u := s.at t
    let set := fun (m : Manage) (bytes : List Byte) => (({ u with manage := m } : State)).reply 0 bytes
    (∀ a, exec (.mctpAddressAssign t a) s = .next { u with manage := { u.manage with i3c := true, addr := a % 128 } }) ∧
    (∀ eid, 0 < eid → eid < 255 → exec (.setEndpointId t eid) s =
      .next (set { u.manage with endpointId := eid } [BitVec.ofNat 8 eid])) ∧
    exec (.setEndpointId t 0) s = .next (u.reply 2 []) ∧
    (∀ id, 1 ≤ id → id ≤ 18 → exec (.getSensorReading t id) s = .next (u.reply 0 ((u.sensor id).elim (le 1 2 ++ le 1 0 ++ le 4 0)
      (fun r => le 1 0 ++ le 1 r.2 ++ le 4 (unsigned 32 r.1))))) ∧
    (∀ id, 1 ≤ id → id ≤ 11 → (s.powered id = false ∨ (tgetD s.power.sensors id {}).sampled = false) → u.sensor id = none) ∧
    (∀ id, id = 0 ∨ 18 < id → exec (.getSensorReading t id) s = .next (u.reply 0x80 [])) ∧
    (∀ eid, exec (.setEventReceiver t eid) s = .next (set { u.manage with eventReceiver := eid } [])) ∧
    exec (.requestUpdate t) s = .next (if s.manage.updating then u.reply 0x81 [] else
      if s.flash.hostOwns ∨ s.activation.outstanding then u.reply 0x8E [] else set { u.manage with updating := true } []) ∧
    (∀ bytes i, (s.manage.updating = false → exec (.activateFirmware t false bytes i true) s = .next (u.reply 0x80 [])) ∧
      (s.manage.updating = true → exec (.activateFirmware t true bytes i true) s = .next (u.reply 0x8C []) ∧
        (s.imageOk i = true → s.startup.noSlot = false → ∃ x, exec (.activateFirmware t false bytes i true) s = .next x ∧
          x.manage.updating = false ∧ (x.flash.bank s.flash.runningBank).bootSlot = s.flash.stagingSlot ∧
          x.flash.image s.flash.stagingSlot = i ∧ x.flash.runningSlot = s.flash.runningSlot ∧ s.sameRuns x ∧ s.sameFrame x) ∧
        (s.imageOk i = false → ∃ x, exec (.activateFirmware t false bytes i true) s = .next x ∧ x.manage.updating = false ∧
          (∀ b, (x.flash.bank b).bootSlot = (s.flash.bank b).bootSlot) ∧ s.sameRuns x ∧ s.sameFrame x))) ∧
    (s.done .stewards = true →
      (s.activation.pp = false →
        exec (.getMeasurements t 0 false) s = .next (u.reply 0 (le 1 6 ++ le 3 0)) ∧
        (∀ i, 1 ≤ i → i ≤ 6 → exec (.getMeasurements t i false) s = .next (u.reply 0 (le 1 1 ++ le 3 55 ++ u.measurementBlock i)) ∧
          (u.measurementBlock i).length = 55) ∧
        (∀ i, 6 < i → i ≠ 255 → exec (.getMeasurements t i false) s = .next (u.reply 1 []))) ∧
      (s.activation.pp = true → exec (.getMeasurements t 1 false) s = .next u) ∧
      (∀ x, s.transportUp x = true → let n := tgetD s.manage.sessions x 0
        (n < 4 → exec (.keyExchange t x) s = .next (set { u.manage with sessions := tset u.manage.sessions x (n + 1) } [])) ∧
        (4 ≤ n → exec (.keyExchange t x) s = .next (u.reply 0x0A []))))

/-- R591: a REGISTER READ gives the value of each register and clears none; it changes nothing but the latches of its own path (and, of the
model, the count of free values and the reply). -/
def Obligations.ManagementRegisterRead : Prop :=
  ∀ (s : State) (t off n : Nat), s.busLives = true → 0 < n → n ≤ 16 → off % 4 = 0 →
    ∃ (k : Nat) (m : Tbl Nat) (vs : List Nat),
      exec (.registerRead t off n) s =
        .next (({ s.at t with free := k, global := { s.global with latches := m } } : State).reply 0 (vs.flatMap (le 4))) ∧
      vs.length = n ∧ (∀ i, i < 64 * 2 ^ 26 → tget? m i = tget? s.global.latches i) ∧
      (n = 1 → isLo 64 off = false → (off < 4 ∨ isLo 64 (off - 4) = false) → (off < 0xA10000 ∨ 0xA20000 ≤ off) →
        m = s.global.latches ∧ k = s.free ∧ vs = [((s.at t).accrueBusy (fun _ => true)).regNow off])

/-- R507, R510, R590 (Table Unit 4): UNIT CONTROL READ answers at once with the state and the epoch; an operation that the table permits on
the unit in its state is granted, and waits for the next tick without a completion; one that it does not permit fails with Command Sequence
Error, and a unit that does not exist with Invalid Field; a management request is judged alike and answered at the grant.
The model's own choices in it: notes/assumptions/37. -/
def Obligations.UnitControl : Prop :=
  ∀ (s : State) (q : Sqe), s.takes q = true → q.fn = 0 →
    let u := s.at q.t
    let n := q.d11.toNat % 65536
    let e := s.unit n
    let ops : List (UnitOp × Instr) := [(.reset, .unitControlReset q), (.outOfService, .unitControlOutOfService q), (.ret, .unitControlReturn q),
      (.probe, .unitControlProbe q), (.hold, .unitControlHold q)]
    (q.d10.toNat % 256 = 0 → n < 375 →
      exec (.unitControlRead q) s = .next (u.complete q .success (e.state.code + e.epoch % 65536 * 65536))) ∧
    (375 ≤ n → exec (.unitControlRead q) s = .next (u.complete q .invalidField) ∧
      ∀ x ∈ ops, exec x.2 s = .next (u.complete q .invalidField)) ∧
    (n < 375 → ∀ x ∈ ops,
      (s.unitPermits x.1 n = false → exec x.2 s = .next (u.complete q .commandSequence)) ∧
      (s.unitPermits x.1 n = true → e.asked = [] → e.state ≠ .quiescing → (x.1 = .outOfService → e.state ≠ .outOfService) →
        ∃ y, exec x.2 s = .next y ∧
          y.unit n = { e with waits := e.waits ++ [{ op := x.1, fn := 0, sqid := q.sqid, cid := q.cid }], asked := [(x.1, s.meridian.frame)] } ∧
          (∀ m, m ≠ n → y.unit m = s.unit m) ∧ y.link = s.link ∧ y.log = s.log ∧ s.sameRuns y ∧ s.sameFrame y ∧ s.samePeers y)) ∧
    (∀ t op m, s.busLives = true → s.mgmtAwake = true →
      (375 ≤ m ∨ op = 0 ∨ 4 < op → exec (.unitRequest t op m) s = .next ((s.at t).reply 4 [])) ∧
      (m < 375 → s.unitPermits .reset m = false → exec (.unitRequest t 1 m) s = .next ((s.at t).reply 4 [])) ∧
      (m < 375 → s.unitPermits .probe m = true → (s.unit m).asked = [] → ∃ y, exec (.unitRequest t 4 m) s = .next y ∧
        (y.unit m).asked = [(.probe, s.meridian.frame)] ∧ (y.unit m).state = (s.unit m).state ∧
        y.manage.replies.head? = some { bytes := le 4 (s.unitDw0 m) } ∧ s.sameRuns y ∧ s.sameFrame y ∧ y.link = s.link))

/-- R503 to R505, R511 to R513: a granted drain begins at a tick after the grant with the unit QUIESCING; at the drain's end its epoch rises
and it is HELD, OUT_OF_SERVICE or RESETTING; a reset whose probe fails takes it out of service, and one that passes waits for the tick.
R508, R509, R515: an observation of higher rank waits for the tick, at which the unit is CONTESTED with MGMT set; a passed probe lets it
return; one of the same or lower rank changes nothing but is reported. The loss of a core raises its epoch at once and begins its recovery
reset, or takes it out of service after three of them in 24 hours.
The model's own choices in it: notes/assumptions/37. -/
def Obligations.UnitTransitions : Prop :=
  (∀ (s : State) (t u f : Nat) (o : UnitOp), u < 375 → unitSpan u = [u] →
    let e := s.unit u
    let rises := (e.epoch + 1) % 2 ^ 48
    let apart := fun (x : State) => (∀ m, m ≠ u → x.unit m = s.unit m) ∧ s.sameFrame x ∧ x.objects = s.objects ∧ x.flash = s.flash ∧
      x.saved = s.saved
    (e.asked = [(o, f)] → o.drains = true → f < s.meridian.frame → e.state = .active ∨ e.state = .held → e.observing = none →
      s.holders u = [] → ∃ x, exec (.quiesceRequest t u) s = .next x ∧ apart x ∧ s.sameRuns x ∧
        x.unit u = { e with state := .quiescing, changed := s.meridian.frame % 2 ^ 32, drain := some o, drainFrame := s.meridian.frame, asked := [] }) ∧
    (e.state = .quiescing → e.drain = some o → s.holders u = [] → u < 332 ∨ 348 ≤ u → e.asked = [] → e.kept = none →
      (o = .hold → ∃ x, exec (.drainEnd t u []) s = .next x ∧ apart x ∧ s.sameRuns x ∧ (x.unit u).state = .held ∧
        (x.unit u).epoch = rises ∧ (x.unit u).drain = none ∧ ∀ w ∈ (x.unit u).waits, w.op ≠ .hold) ∧
      (o = .outOfService → ∃ x, exec (.drainEnd t u []) s = .next x ∧ apart x ∧ (x.unit u).state = .outOfService ∧
        (x.unit u).epoch = rises ∧ ∀ w ∈ (x.unit u).waits, w.op ≠ .reset ∧ w.op ≠ .outOfService ∧ w.op ≠ .ret) ∧
      (o = .reset → ∃ x, exec (.drainEnd t u []) s = .next x ∧ apart x ∧ (x.unit u).state = .resetting ∧ (x.unit u).epoch = rises ∧
        (x.unit u).oldEpoch = e.epoch ∧ (x.unit u).resetCause = 0 ∧ (x.unit u).resetDone = none)) ∧
    (e.state = .resetting → e.resetDone = none → singleReset u = true →
      (∃ x, exec (.unitReset t u true) s = .next x ∧ x.unit u = { e with resetDone := some true } ∧ apart x ∧ x.link = s.link ∧ s.sameRuns x) ∧
      (∃ x, exec (.unitReset t u false) s = .next x ∧ (x.unit u).state = .outOfService ∧ (x.unit u).epoch = e.epoch ∧ apart x ∧ s.sameRuns x))) ∧
  (∀ (s : State) (t u st : Nat), u < 256 →
    let e := s.unit u
    let apart := fun (x : State) => (∀ m, m ≠ u → x.unit m = s.unit m) ∧ s.sameFrame x ∧ x.flash = s.flash ∧ x.saved = s.saved
    (s.busLives = true → s.mgmtAwake = true → e.observing = none → e.observed = none →
      (e.state = .active → 0 < st → st < 7 → ∃ x, exec (.unitObserve t u st) s = .next x ∧ apart x ∧ s.sameRuns x ∧
        x.unit u = { e with observed := some (st, s.meridian.frame), probe := true }) ∧
      (e.state = .contested → st ≤ 1 → ∃ x, exec (.unitObserve t u st) s = .next x ∧ apart x ∧ s.sameRuns x ∧ x.unit u = e) ∧
      (7 ≤ st → exec (.unitObserve t u st) s = .next ((s.at t).reply 4 []))) ∧
    (∀ f, e.observed = some (st, f) → f < s.meridian.frame → e.state = .active → e.asked = [] → 0 < st →
      let now := s.meridian.frame % 2 ^ 32
      ∃ x, exec (.unitContested t u) s = .next x ∧ apart x ∧ s.sameRuns x ∧
        x.unit u = { e with state := .contested, changed := now, observed := none, observing := some st, before := .active, mgmt := true }) ∧
    (e.observing = some st → e.waits = [] → e.state = .contested → ∃ x, exec (.reconciliationProbeEnd t u true) s = .next x ∧ apart x ∧
      s.sameRuns x ∧ x.unit u = { e with observing := none, probe := e.observed.isSome, asked := e.asked.filter (fun a => a.1 != .probe), probePassed := true }) ∧
    (e.state = .active → (s.core u).packet = none → s.allStewardsLost = false → e.observing = none → e.kept = none →
      (s.at t).recoveries u < 3 → ∃ x, exec (.unitLost t u 1) s = .next x ∧ apart x ∧ (x.unit u).state = .resetting ∧
        (x.unit u).epoch = (e.epoch + 1) % 2 ^ 48 ∧ (x.unit u).oldEpoch = e.epoch ∧ (x.unit u).resetCause = 1 ∧
        x.packets = s.packets ∧ x.objects = s.objects) ∧
    (e.state = .active → (s.core u).packet = none → s.allStewardsLost = false → e.observing = none → e.kept = none →
      3 ≤ (s.at t).recoveries u → ∃ x, exec (.unitLost t u 1) s = .next x ∧ apart x ∧ (x.unit u).state = .outOfService ∧
        (x.unit u).epoch = (e.epoch + 1) % 2 ^ 48 ∧ x.packets = s.packets ∧ x.objects = s.objects))

/-- R545 to R548, R543: READ sends the record as the view shows it; STAGE answers with a confirmation code that is not 0 and keeps the data;
COMMIT with that code burns the staged data into the lowest unused generation, which is then the record; DISCARD, a wrong code and 10 s
empty the buffer.
The model's own choices in it: notes/assumptions/3. -/
def Obligations.AlmanacBurns : Prop :=
  ∀ (s : State) (q : Sqe) (t : Nat), s.takes q = true → q.fn = 0 →
    let u := s.at q.t
    let r := q.d10.toNat / 256 % 64
    let a := s.almanac
    let emptied := fun (x : State) => ({ x with almanac := { x.almanac with staged := none } } : State)
    (q.d10.toNat % 256 = 0 → exec (.almanacBurnRead q) s = .next ((u.toHost q (a.shown r)).complete q .success (a.status r))) ∧
    (q.d10.toNat % 256 ≠ 0 → exec (.almanacBurnRead q) s = .next (u.complete q .invalidField)) ∧
    (r = 1 → a.shown r = List.replicate 64 0) ∧
    (16 ≤ r → r ≤ 47 →
      (a.exhausted r = false → ∃ c, 0 < c ∧ c < 2 ^ 32 ∧
        let b : StagedBurn := { record := r, data := padTo 64 q.data, boot := s.meridian.bootCount, code := c, firmware := false, atNs := u.now }
        exec (.almanacBurnStage q) s = .next (({ u.drawn 1 with almanac := { a with staged := some b } } : State).complete q .success c)) ∧
      (a.exhausted r = true → exec (.almanacBurnStage q) s = .next ((u.raiseM 0x0B07 [BitVec.ofNat 8 r]).complete q .commandSequence) ∧
        exec (.almanacBurnCommit q none) s = .next (((emptied u).raiseM 0x0B07 [BitVec.ofNat 8 r]).complete q .commandSequence)) ∧
      (a.exhausted r = false → a.staged = none → exec (.almanacBurnCommit q none) s = .next (u.complete q .commandSequence)) ∧
      (a.exhausted r = false → ∀ b, a.staged = some b → b.firmware = false → b.code ≠ q.d11.toNat →
        exec (.almanacBurnCommit q none) s = .next ((emptied u).complete q .commandSequence)) ∧
      (a.exhausted r = false → ∀ b, a.staged = some b → b.firmware = false → b.code = q.d11.toNat → a.usedCount b.record < 4 → (∀ g, g < 4 →
        (a.gen b.record g).used = true ↔ g < a.usedCount b.record) → b.record < 64 →
        ∃ x, exec (.almanacBurnCommit q none) s = .next x ∧ x.almanac.staged = none ∧ x.almanac.record b.record = padTo 64 b.data ∧
          x.almanac.usedCount b.record = a.usedCount b.record + 1 ∧
          (∀ k, k ≠ b.record → x.almanac.record k = a.record k) ∧ s.sameRuns x ∧ s.sameFrame x)) ∧
    (r < 16 ∨ 47 < r → exec (.almanacBurnStage q) s = .next (u.complete q .invalidField) ∧
      exec (.almanacBurnCommit q none) s = .next ((emptied u).complete q .invalidField)) ∧
    exec (.almanacBurnDiscard q) s = .next ((emptied u).complete q .success) ∧
    (∀ b, a.staged = some b → b.atNs + 10000000000 ≤ (s.at t).now → exec (.stagedBurnExpiry t) s = .next (emptied (s.at t))) ∧
    (∀ b, a.staged = some b → (s.at t).now < b.atNs + 10000000000 → exec (.stagedBurnExpiry t) s = .next (s.at t))

/-- R25, R26, R28, R31: a Meridian tick with nothing of the latest one outstanding begins the frame numbered one higher, one frame length
after the latest tick, and asks the powered domains of D0 to D10; the first tick begins frame 0. A frame differs from the period by at most
25 ns per 500 µs, and not at all while INT is selected or a switch is Leaving (R101). No work is touched.
R28, R29: a domain that acknowledges applies its L-class fields and no longer holds the tick up; one that has not after 2 µs is late,
once a tick: it is noted, counted and excluded. R96 to R99: at the end of a window in which a reference's signal was present throughout,
with three or more live references, an offset beyond 5 ppm disqualifies it, and the sixteenth window within 0.2 ppm qualifies it.
The model's own choices in it: notes/assumptions/16, 17. -/
def Obligations.FrameTicks : Prop :=
  (∀ (s : State) (t pit : Nat) (late : List Nat),
    (s.periodFs - 50000 * s.period ≤ s.frameFs ∧ (s.frameFs : Int) ≤ s.periodFs + 50000 * s.period) ∧
    (s.lodestar.phase = .leaving ∨ (s.lodestar.phase = .committed ∧ s.lodestar.sel = .int) → (s.frameFs : Int) = s.periodFs) ∧
    (s.done .count = true → s.power.off = false → s.meridian.step = 0 → s.meridian.waiting = [] →
      let late' := ((List.range 11).filter s.powered).filter late.contains
      (s.meridian.running = true → s.powered 4 = true → s.global.mfault = false → late' ≠ [] →
        ∃ x, exec (.meridianTick t late pit) s = .next x ∧ x.meridian.running = true ∧ x.meridian.frame = s.meridian.frame + 1 ∧
          x.meridian.tickFs = s.meridian.tickFs + s.frameFs ∧ x.meridian.waiting = late' ∧ x.meridian.lateNow = [] ∧ x.meridian.step = 1 ∧
          x.meridian.period = s.meridian.period ∧ x.meridian.bootCount = s.meridian.bootCount ∧
          x.now = max s.now ((s.meridian.tickFs + s.frameFs) / 1000000) ∧ x.packets = s.packets ∧ x.objects = s.objects ∧
          x.coherence = s.coherence ∧ x.orrery = s.orrery ∧ x.saved = s.saved ∧ x.flash = s.flash ∧ (s.meridian.owed = none → x.log = s.log)) ∧
      (s.meridian.running = true → s.powered 4 = false →
        ∃ x, exec (.meridianTick t late pit) s = .next x ∧ x.meridian.frame = s.meridian.frame + 1 ∧
          x.meridian.tickFs = s.meridian.tickFs + s.frameFs ∧ x.meridian.step = 0 ∧ s.sameRuns x ∧ x.objects = s.objects) ∧
      (s.meridian.running = false → s.powered 4 = true → s.global.mfault = false → late' ≠ [] →
        ∃ x, exec (.meridianTick t late pit) s = .next x ∧ x.meridian.running = true ∧ x.meridian.frame = 0 ∧
          x.meridian.tickFs = t * 1000000 ∧ x.meridian.waiting = late' ∧ x.packets = s.packets ∧ x.objects = s.objects ∧
          x.orrery = s.orrery)) ∧
    (s.done .count = false ∨ s.power.off = true → exec (.meridianTick t late pit) s = .next (s.at t))) ∧
  (∀ (s : State) (t : Nat),
    (∀ d, s.meridian.waiting.contains d = true → s.meridian.lateNow.contains d = false → s.tickNs + 2000 ≤ max s.now t →
      let m := s.meridian
      let m' := { m with lateNow := m.lateNow ++ [d], ackLate := m.ackLate ||| BitVec.ofNat 11 (2 ^ d), ackLateCnt := satAdd 16 m.ackLateCnt 1 }
      ∃ x : State, exec (.tickAckLate t d) s = .next x.advance ∧ x.meridian = m' ∧ s.sameRuns x ∧ x.units = s.units ∧ x.orrery = s.orrery ∧
        (m.step = 0 → x.advance = x)) ∧
    (∀ d, s.meridian.waiting.contains d = false ∨ s.meridian.lateNow.contains d = true ∨ max s.now t < s.tickNs + 2000 →
      exec (.tickAckLate t d) s = .next (s.at t).advance) ∧
    (∀ d, s.meridian.waiting.contains d = true → max s.now t < s.tickNs + 2000 →
      ∃ x : State, exec (.tickAcknowledge t d) s = .next x.advance ∧
        x.meridian = { s.meridian with waiting := s.meridian.waiting.filter (· != d) } ∧
        (d = 4 → x.lodestar.cfg = s.lodestar.cfgAccepted ∧ x.media.patrolHours = s.media.patrolNext) ∧
        (d = 0 → x.power.stepC = s.power.stepCNext ∧ x.power.hyst = s.power.hystNext) ∧
        (d ≠ 4 → x.lodestar = s.lodestar ∧ x.media = s.media ∧ x.cage = s.cage ∧ x.tailings = s.tailings) ∧
        (d ≠ 0 → x.power = s.power) ∧ x.packets = s.packets ∧ x.objects = s.objects ∧ x.cores = s.cores ∧ x.log = s.log ∧ x.units = s.units) ∧
    (∀ d, s.meridian.waiting.contains d = false → exec (.tickAcknowledge t d) s = .next (s.at t)) ∧
    (∀ ptm pin fab twin, s.lodestar.windowDue = true → s.meridian.step ≠ 1 → s.powered 4 = true → s.global.mfault = false →
      ∃ x : State, exec (.windowEnd t ptm pin fab twin) s = .next x.advance ∧ x.lodestar.windowDue = false ∧
        x.lodestar.windows = s.lodestar.windows + 1 ∧ x.lodestar.windowStart = s.meridian.frame ∧ x.lodestar.sel = s.lodestar.sel ∧
        s.sameRuns x ∧ x.meridian = s.meridian ∧ x.orrery = s.orrery ∧ x.units = s.units ∧
        (2 ≤ s.live.length → ∀ r ∈ externals, (s.ref r).wholeWindow = true →
          let m : Measured := ⟨ptm, pin, fab, twin⟩
          let off := m.of r - medianOf (0 :: s.live.map m.of)
          (x.ref r).offset = off ∧
          ((s.ref r).state ≠ .disqualified → 5000 < off.natAbs → (x.ref r).state = .disqualified) ∧
          ((s.ref r).state = .qualifying → (s.ref r).barred = false → off.natAbs ≤ 200 → 15 ≤ (s.ref r).inBand →
            (x.ref r).state = .qualified) ∧
          ((s.ref r).state = .qualifying → off.natAbs ≤ 200 → (s.ref r).inBand < 15 → (x.ref r).state = .qualifying))))

/-- R58, R65, R75, R539 and R48 to R50, each at the tick that brings it: the pending period governs and its table is active; a shadow table
that still fits is active, and one that no longer does goes; due class changes are in force and saved; contracted admission opens; a packet
whose deadline came without its CQE is late and counted once, as a breach, or as host-held where only a full queue holds the CQE.
The model's own choices in it: notes/assumptions/17, 34, 56. -/
def Obligations.TickChanges : Prop :=
  ∀ (s : State) (t : Nat),
    (∀ p b T, s.meridian.step = 5 → s.meridian.pend = some (p, b) → b ≤ s.meridian.frame → s.orrery.shadow = some T → s.peerGone = false →
      ∃ x : State, exec (.periodChanged t) s = .next x.advance ∧ x.meridian = { s.meridian with period := p, pend := none, pendPeer := false } ∧
        x.orrery.active = T ∧ x.orrery.start = s.meridian.frame ∧ x.orrery.shadow = none ∧ x.orrery.classes = s.orrery.classes ∧
        x.packets = s.packets ∧ x.coherence = s.coherence ∧ x.cage = s.cage ∧ x.units = s.units ∧ x.saved = s.saved) ∧
    (s.meridian.step ≠ 5 ∨ s.periodDue = false → exec (.periodChanged t) s = .next (s.at t)) ∧
    (∀ T b, s.meridian.step = 5 → s.orrery.shadow = some T → s.orrery.shadowAt = some b → b ≤ s.meridian.frame →
      ∃ x : State, exec (.orreryActivated t) s = .next x.advance ∧ x.orrery.shadow = none ∧ x.orrery.shadowAt = none ∧
        x.meridian = s.meridian ∧ x.packets = s.packets ∧ x.cage = s.cage ∧ x.coherence = s.coherence ∧ x.units = s.units ∧
        (s.activates T = true → x.orrery.active = T ∧ x.orrery.start = s.meridian.frame ∧
          (T.period = s.saved.period → x.saved.orrery = some T)) ∧
        (s.activates T = false → x.orrery.active = s.orrery.active ∧ x.orrery.start = s.orrery.start ∧ x.cores = s.cores ∧
          x.saved = s.saved)) ∧
    (s.meridian.step ≠ 5 ∨ s.shadowDue = false → exec (.orreryActivated t) s = .next (s.at t)) ∧
    (∀ c, s.meridian.step = 5 → s.orrery.changes = [c] → c.tick ≤ s.meridian.frame →
      ∃ x : State, exec (.contractChangeEffect t) s = .next x.advance ∧ tget? x.orrery.classes (c.tenant * 16 + c.cls) = c.deff ∧
        x.orrery.changes = [] ∧ x.saved = { s.saved with classes := x.orrery.classes } ∧ x.orrery.active = s.orrery.active ∧
        (∀ k, k ≠ c.tenant * 16 + c.cls → tget? x.orrery.classes k = tget? s.orrery.classes k) ∧ s.sameRuns x ∧ x.meridian = s.meridian) ∧
    (s.meridian.step ≠ 5 ∨ s.classDue = false → exec (.contractChangeEffect t) s = .next (s.at t)) ∧
    (s.meridian.step = 6 → (s.at t).opens = true → ∃ x : State, exec (.admissionOpen t) s = .next x.advance ∧ x.meridian.admitOpen = true ∧
      x.power.retained = false ∧ s.sameRuns x ∧ x.orrery = s.orrery ∧ x.units = s.units ∧ x.meridian.frame = s.meridian.frame) ∧
    (s.meridian.step ≠ 6 ∨ (s.at t).opens = false → exec (.admissionOpen t) s = .next (s.at t)) ∧
    (s.powered 4 = true → s.global.mfault = false → (s.packets.live.map (·.1)).Nodup → (∀ e ∈ s.packets.live, e.2.key = e.1) →
      ∃ x : State, exec (.deadlineTick t) s = .next x.advance ∧ x.objects = s.objects ∧ x.cores = s.cores ∧ x.cage = s.cage ∧
        x.meridian = s.meridian ∧ (∀ k, s.packet? k = none → x.packet? k = none) ∧
        (∀ k p, s.packet? k = some p → p.overdue s.meridian.frame = false → x.packet? k = some p) ∧
        (∀ k p, s.packet? k = some p → p.overdue s.meridian.frame = true →
          (p.cqeHeld = false → x.packet? k = some { p with breached := true, late := true }) ∧
          (p.cqeHeld = true → x.packet? k = some { p with heldCounted := true, late := true })))

/-- R97, R99, R100, Table Lodestar 1: the loss of a present reference's signal, or a mark more than 10 µs from its time, disqualifies it at
once, and of the selected one calls for a switch; a mark in time, and a PTM dialog that passes, is noted; the third failed dialog in a row
loses PTM. R101: after 2 s of Leaving without a target INT is selected. R107: the wait for a restoration, and LOD_CMD.
The model's own choices in it: notes/assumptions/16, 48. -/
def Obligations.LodestarInputs : Prop :=
  ∀ (s : State) (t : Nat), s.powered 4 = true →
    let apart := fun (x : State) => s.sameRuns x ∧ x.meridian = s.meridian ∧ x.orrery = s.orrery ∧ x.units = s.units ∧
      x.lodestar.sel = s.lodestar.sel ∧ x.lodestar.cfg = s.lodestar.cfg
    let lost := fun (x : State) (r : Ref) (sig : Bool) => (x.ref r).state = .disqualified ∧ (x.ref r).signal = sig ∧
      (x.ref r).wholeWindow = false ∧ (∀ r', r' ≠ r → x.ref r' = s.ref r') ∧
      (s.lodestar.phase = .committed → s.lodestar.sel = r → x.lodestar.trigger = some .failure)
    let judged := fun (r : Ref) => (s.ref r).state ≠ .absent ∧ (s.ref r).state ≠ .disqualified
    (∀ r jump, (s.ref r).signal = true → r ≠ .int → judged r → (jump = true → r ≠ .ptm) →
      ∃ x, exec (.referenceLossOfSignal t r jump) s = .next x ∧ lost x r jump ∧ apart x) ∧
    (∀ r jump, (s.ref r).signal = false → exec (.referenceLossOfSignal t r jump) s = .next (s.at t)) ∧
    (∀ m, s.lodestar.pin.lastMark = some m → (reducePhase ((t : Int) - m) 4000000).natAbs ≤ 10000 →
      exec (.pinMark t) s = .next ((s.at t).modRef .pin (fun i => { i with signal := true, lastMark := some t }))) ∧
    (∀ m, s.lodestar.pin.lastMark = some m → 10000 < (reducePhase ((t : Int) - m) 4000000).natAbs → s.lodestar.pin.signal = true →
      judged .pin → ∃ x, exec (.pinMark t) s = .next x ∧ lost x .pin true ∧ apart x ∧ x.lodestar.pin.lastMark = some t) ∧
    (∀ master, ∃ x, exec (.ptmDialog t true master) s = .next x ∧ x.lodestar.ptm.signal = true ∧ x.lodestar.ptm.failedDialogs = 0 ∧
      x.lodestar.ptm.state = s.lodestar.ptm.state ∧ (∃ m, x.lodestar.ptm.lastMark = some m ∧ (t + 4000000 - m) % 4000000 = master % 4000000 ∧
        m ≤ t + 4000000) ∧ apart x) ∧
    (∀ master, s.lodestar.ptm.failedDialogs < 2 → exec (.ptmDialog t false master) s = .next ((s.at t).modRef .ptm (fun i =>
      { i with failedDialogs := i.failedDialogs + 1 }))) ∧
    (∀ master, 2 ≤ s.lodestar.ptm.failedDialogs → s.lodestar.ptm.signal = true → judged .ptm →
      ∃ x, exec (.ptmDialog t false master) s = .next x ∧ lost x .ptm false ∧ apart x) ∧
    (s.lodestar.phase = .leaving → s.lodestar.target = none → s.lodestar.leavingSince + 2000000000 ≤ max s.now t →
      ∃ x, exec (.holdoverExpired t) s = .next x ∧ x.lodestar.sel = .int ∧ x.lodestar.phase = .committed ∧
        x.lodestar.correction = s.lodestar.correction ∧ x.lodestar.firstCommit = s.lodestar.firstCommit ∧ s.sameRuns x ∧ x.meridian = s.meridian) ∧
    (s.lodestar.phase ≠ .leaving ∨ s.lodestar.target.isSome = true ∨ max s.now t < s.lodestar.leavingSince + 2000000000 →
      exec (.holdoverExpired t) s = .next (s.at t)) ∧
    ((s.at t).restoreDue = true → ∃ x, exec (.waitToRestoreExpiry t) s = .next x ∧ x.lodestar = { s.lodestar with trigger := some .revert } ∧
      apart x ∧ x.log = s.log) ∧
    ((s.at t).restoreDue = false → exec (.waitToRestoreExpiry t) s = .next (s.at t)) ∧
    (∀ v : Word32, ∃ x, exec (.lodCmdSwitch t v) s = .next x ∧ apart x ∧ x.log = s.log ∧
      (v.toNat % 8 = 0 → x.lodestar = s.lodestar) ∧
      (v.toNat % 8 = 5 → x.lodestar = { s.lodestar with manual := some .int }) ∧
      (5 < v.toNat % 8 → x.lodestar = { s.lodestar with cmdRej := true }) ∧
      (∀ r ∈ externals, v.toNat % 8 = r.code →
        ((s.ref r).state ≠ .qualified → x.lodestar = { s.lodestar with cmdRej := true }) ∧
        ((s.ref r).state = .qualified → (s.ref r).barred = false → x.lodestar = { s.lodestar with manual := some r })))

/-- R495 to R498: at a tick's power step the causes that were confirmed come to hold and those that ended cease, D7 to D10 are stepped by
their union, and the events carry it; R482, R483: placement stops on the domains to go off, an idle one goes off at a later tick and its
units are OFF under a raised epoch, and the domains of the new state come on at their tick.
R484 to R491: an entry to P3 or P4 begins at the first tick at which nothing is outstanding, saves, prepares and then removes the power
of the domains that the state does not keep: Tier H is lost in P4 alone, Tier C in both, and Lodestar runs on INT. A wake source powers the
domains of the state before it; its first frame ends the wake.
The model's own choices in it: notes/assumptions/17, 18, 49. -/
def Obligations.PowerAndLanternSteps : Prop :=
  (∀ (s : State) (t : Nat), s.meridian.step = 4 →
    let p := s.power
    let c := (s.at t).clockChanges
    let apart := fun (x : State) => x.objects = s.objects ∧ x.coherence = s.coherence ∧ x.meridian = s.meridian ∧ x.lodestar = s.lodestar ∧
      x.saved = s.saved ∧ x.flash = s.flash
    let causes := fun (x : State) => x.power.thermal = ((p.thermal &&& ~~~(s.at t).cooled) ||| p.thermalNew) ∧
      x.power.power = ((p.power && !p.underPower) || p.powerNew) ∧ x.power.thermalNew = 0 ∧ x.power.powerNew = false ∧
      x.power.criticalNew = none ∧ x.power.forced = x.power.critical ∧ x.power.domains = p.domains ∧ x.power.req = p.req ∧
      (x.power.power = true → x.power.stepped = 0xF) ∧ (x.power.power = false → x.power.critical = false → x.power.stepped = x.power.thermal) ∧
      (p.criticalNew.isSome = true → x.power.critical = true) ∧ (p.critical = false → p.criticalNew = none → x.power.critical = false)
    (c.domainDue = false →
      (∃ x : State, exec (.thermalStep t) s = .next x.advance ∧ causes x ∧ apart x ∧ x.power.sayThermal = 0 ∧ x.power.sayPower = false) ∧
      (∃ x : State, exec (.thermalRestore t) s = .next x.advance ∧ causes x ∧ apart x ∧ x.power.sayRestore = 0) ∧
      (∃ x : State, exec (.thermalCritical t) s = .next x.advance ∧ causes x ∧ apart x ∧ x.power.sayCritical = none)) ∧
    (c.domainDue = true → exec (.thermalStep t) s = .next c ∧ exec (.thermalRestore t) s = .next c ∧ exec (.thermalCritical t) s = .next c) ∧
    (∃ x : State, exec (.thermalCriticalReturn t) s = .next x.advance ∧ causes x ∧ apart x ∧ x.power.sayReturn = false) ∧
    (s.trimDue = true → ∃ x : State, exec (.trimToFewerDomains t) s = .next x.advance ∧ x.power.leaving = p.leavers ∧ apart x ∧
      x.power.domains = p.domains ∧ x.power.leaveFrame = (if p.leavers &&& ~~~p.leaving = 0 then p.leaveFrame else s.meridian.frame) ∧
      ∀ k q, s.packet? k = some q → q.bestEffort = false → x.packet? k = some q) ∧
    (s.trimDue = false → exec (.trimToFewerDomains t) s = .next (s.at t)) ∧
    (∀ d, s.awake = true → s.offDue = [d] → d < 12 → 7 ≤ d → d ≤ 10 →
      ∃ x : State, exec (.domainPowerOff t) s = .next x.advance ∧ x.power.domains = (p.domains &&& ~~~oneDomain d) ∧ apart x ∧
        x.packets = s.packets ∧ (∀ u, u < 256 → unitDomain u = d → (s.unit u).state = .active → (s.unit u).observing = none →
          (x.unit u).state = .off ∧ (x.unit u).epoch = ((s.unit u).epoch + 1) % 2 ^ 48 ∧ (x.core u).kernelStore = false) ∧
        (∀ u, u < 256 → unitDomain u ≠ d → x.unit u = s.unit u ∧ x.core u = s.core u)) ∧
    (s.awake = true → s.offDue = [] → (p.domains ≠ stateDomains p.target ∨ p.cur = p.target ∨ p.leaving ≠ 0 ∨ p.arriving ≠ 0) →
      exec (.domainPowerOff t) s = .next (s.at t).advance) ∧
    (s.awake = true → ∃ x : State, exec (.domainPowerOn t) s = .next x.advance ∧ apart x ∧ s.sameRuns x ∧ x.units = s.units ∧
      x.power.domains = (p.domains ||| stateDomains p.target))) ∧
  (∀ (s : State) (t : Nat), s.global.mfault = false → s.power.off = false →
    let p := s.power
    (s.meridian.step = 0 → p.lantern = .pending → (s.quiet = true → p.lanternFrame < s.meridian.frame →
        ∃ x, exec (.lanternEntry t) s = .next x ∧ x.power = { p with lantern := .entering, lanternStep := 1 } ∧ s.sameRuns x ∧ s.sameFrame x ∧
          x.link = s.link ∧ ∀ fn, x.fetches fn = false) ∧
      (s.quiet = false ∨ s.meridian.frame ≤ p.lanternFrame → exec (.lanternEntry t) s = .next (s.at t))) ∧
    (s.meridian.step = 0 → p.lantern = .entering → p.lanternStep = 1 → ∃ x, exec (.lanternEntry t) s = .next x ∧ x.power.lanternStep = 2 ∧
      x.power.lantern = .entering ∧ x.packets = s.packets ∧ x.coherence = s.coherence ∧ x.power.domains = p.domains) ∧
    (s.meridian.step = 0 → p.lantern = .entering → p.lanternStep = 2 →
      ∃ x, exec (.lanternEntry t) s = .next x ∧ x.power = { p with lanternStep := 3 } ∧ s.sameRuns x ∧ s.sameFrame x) ∧
    (s.meridian.step = 0 → p.lantern = .entering → p.lanternStep = 3 → p.req = 3 ∨ p.req = 4 →
      ∃ x, exec (.lanternEntry t) s = .next x ∧ x.power.lantern = .asleep ∧ x.power.cur = p.req ∧
        x.power.domains = (p.domains &&& lanternDomains p.req) ∧ x.meridian.admitOpen = false ∧ x.lodestar.sel = .int ∧
        x.lodestar.correction = s.lodestar.correction ∧ x.coherence.tierC = [] ∧ x.link.width = 1 ∧ x.meridian.frame = s.meridian.frame ∧
        x.saved = s.saved ∧ ∀ fn, x.fetches fn = false) ∧
    (s.meridian.step ≠ 0 ∨ (p.lantern ≠ .pending ∧ p.lantern ≠ .entering) → exec (.lanternEntry t) s = .next (s.at t)) ∧
    (∀ src, p.lantern = .asleep → 0 < src → src < 4 → ∃ x, exec (.wake t src) s = .next x ∧ x.power.lantern = .waking ∧
      x.power.wakeSrc = src ∧ x.power.wakePin = (src == 3) ∧ x.power.domains = (p.domains ||| stateDomains p.target) ∧
      x.link.width = 16 ∧ x.power.cur = p.cur ∧ x.lodestar.pin.state = .qualifying ∧ x.lodestar.ptm.state = .qualifying ∧
      x.meridian = s.meridian ∧ x.packets = s.packets ∧ x.log.d0Queue = []) ∧
    (∀ src, p.lantern ≠ .asleep ∨ src = 0 ∨ 4 < src → exec (.wake t src) s = .next (s.at t)))

/-- R476, R495, R497: samples of the sensors and of the input power, and what ten in a row or an average confirms for the next tick; a
sample of 125 °C cuts the input power. R483: a core of an arriving domain is ready once its kernel store is filled and its bound image is in.
R30, R492, R493: an idle domain's clock stops after 64 µs and starts again on access; a stall at a crossing is counted.
The model's own choices in it: notes/assumptions/49. -/
def Obligations.PowerInputs : Prop :=
  ∀ (s : State) (t : Nat),
    let p := s.power
    let apart := fun (x : State) => s.sameFrame x ∧ x.packets = s.packets ∧ x.objects = s.objects ∧ x.units = s.units ∧ x.saved = s.saved ∧
      x.coherence = s.coherence
    (∀ d (temp : Int), 0 < d → d ≤ 11 → s.powered d = true → p.off = false → temp < 125 →
      let e := tgetD p.sensors d {}
      let b : BitVec 4 := if 7 ≤ d ∧ d ≤ 10 then BitVec.ofNat 4 (2 ^ (d - 7)) else 0
      let run := if (p.stepC : Int) ≤ temp then e.stepRun + 1 else 0
      let crit := if 110 ≤ temp then e.critRun + 1 else 0
      ∃ x, exec (.temperatureSample t d temp) s = .next x ∧ apart x ∧ x.cores = s.cores ∧ x.power.stepped = p.stepped ∧ x.power.domains = p.domains ∧
        (tgetD x.power.sensors d {}).temp = temp ∧ (tgetD x.power.sensors d {}).stepRun = run ∧ (tgetD x.power.sensors d {}).critRun = crit ∧
        (∀ k, k ≠ d → tgetD x.power.sensors k {} = tgetD p.sensors k {}) ∧
        (run < 10 → x.power.thermalNew = p.thermalNew) ∧ (10 ≤ run → p.thermal &&& b = 0 → x.power.thermalNew = (p.thermalNew ||| b)) ∧
        (crit < 10 → x.power.criticalNew = p.criticalNew) ∧
        (10 ≤ crit → p.critical = false → p.criticalNew = none → x.power.criticalNew = some (d, temp))) ∧
    (∀ d (temp : Int), d = 0 ∨ 11 < d ∨ s.powered d = false ∨ p.off = true → exec (.temperatureSample t d temp) s = .next (s.at t)) ∧
    (∀ d (temp : Int), 0 < d → d ≤ 11 → s.powered d = true → p.off = false → 125 ≤ temp → p.lossDeclared = none →
      ∃ x, exec (.temperatureSample t d temp) s = .next x ∧ x.power.lossDeclared.isSome = true) ∧
    (∀ w, p.off = false → s.done .d0 = true → ∃ x, exec (.inputPowerSample t w) s = .next x ∧ apart x ∧ s.sameRuns x ∧
      x.power = { p with inSamples := (w :: p.inSamples).take 100000, powerNew := x.power.powerNew } ∧
      (x.power.powerNew = true ↔ p.powerNew = true ∨ (p.power = false ∧ x.power.overPower = true))) ∧
    (∀ n, n < 256 → p.arriving.getLsbD (unitDomain n) = true → (s.core n).ready = false →
      ((s.core n).kernelStore = false → ∃ x, exec (.coreReady t n) s = .next x ∧ apart x ∧ (x.core n).kernelStore = true ∧
        (x.core n).ready = ((s.core n).bound == 0) ∧ ∀ k, k ≠ n → x.core k = s.core k) ∧
      ((s.core n).kernelStore = true → (s.core n).image = (s.core n).bound → (s.core n).streamingUntil ≤ max s.now t →
        ∃ x, exec (.coreReady t n) s = .next x ∧ apart x ∧ x.core n = { s.core n with ready := true } ∧ ∀ k, k ≠ n → x.core k = s.core k)) ∧
    (∀ n, 255 < n ∨ p.arriving.getLsbD (unitDomain n) = false ∨ (s.core n).ready = true → exec (.coreReady t n) s = .next (s.at t)) ∧
    (∀ d idle, 0 < d → d < 11 → s.powered d = true → 64000 ≤ idle → s.domainBusy d = false →
      ∃ x, exec (.clockStop t d idle) s = .next x ∧ x.power = { p with clkstop := p.clkstop ||| oneDomain d } ∧ s.sameRuns x ∧ s.sameFrame x) ∧
    (∀ d idle, d = 0 ∨ 11 ≤ d ∨ idle < 64000 ∨ s.domainBusy d = true → exec (.clockStop t d idle) s = .next (s.at t)) ∧
    (∀ d, ∃ x, exec (.clockWake t d) s = .next x ∧ x.power = { p with clkstop := p.clkstop &&& ~~~oneDomain d } ∧
      (d < 12 → x.power.clkstop.getLsbD d = false) ∧ s.sameRuns x ∧ s.sameFrame x) ∧
    (∀ u cycles, ∃ x, exec (.crossingStall t u cycles) s = .next x ∧ x.power = { p with xstall := satAdd 32 p.xstall cycles } ∧
      s.sameRuns x ∧ s.sameFrame x ∧ (332 ≤ u → x.blocks = s.blocks) ∧
      (u < 64 → (tgetD x.blocks.drifts u {}).xstall = satAdd 32 (tgetD s.blocks.drifts u {}).xstall cycles) ∧
      (∀ d, d < 64 → d ≠ u → d ≠ u - 256 → tgetD x.blocks.drifts d {} = tgetD s.blocks.drifts d {}))

/-- R33, R125, R142 to R151, R401: a doorbell makes submissions visible in order; a SUBMIT WORK at the front of its queue fails as a command
on its own fields, is refused with an answer record and no receipt point by the first check that fails, and else gets a shift record that
holds its header, its parameter block and its time of receipt, and the claims that its opcode takes (R157).
The model's own choices in it: notes/assumptions/31, 32, 33. -/
def Obligations.PacketIntake : Prop :=
  ∀ (s : State) (t fn sqid : Nat) (kinds : List Bool) (q : Sqe) (psdt fuse prp1 : Nat) (pkt : Option (List Byte)) (list : Option (List Nat))
    (param : Option (List Byte)),
    (∀ sq, tget? (s.ctrl fn).sqs sqid = some sq → (s.ctrl fn).enabled = true → s.power.off = false →
      ∃ (x : State) (vs : List VisibleSqe), exec (.sqTailDoorbell t fn sqid kinds) s = .next x ∧ vs.map (·.packet) = kinds ∧
        vs.map (·.arrival) = (List.range kinds.length).map (s.link.nextArrival + ·) ∧ (∀ v ∈ vs, v.doorbellNs = max s.now t) ∧
        tget? (x.ctrl fn).sqs sqid = some { sq with visible := sq.visible ++ vs } ∧
        (∀ k, k ≠ sqid → tget? (x.ctrl fn).sqs k = tget? (s.ctrl fn).sqs k) ∧ s.sameRuns x ∧ x.orrery = s.orrery ∧
        x.meridian.frame = s.meridian.frame) ∧
    (tget? (s.ctrl fn).sqs sqid = none ∨ (s.ctrl fn).enabled = false ∨ s.power.off = true →
      exec (.sqTailDoorbell t fn sqid kinds) s = .next (s.at t)) ∧
    (∀ v u, (s.at q.t).takeSqe q true = some (v, u) → s.takes q = true →
      let page := 2 ^ (s.ctrl q.fn).pageBits
      let c : Instr := .submitWork q psdt fuse prp1 pkt list param
      let fieldsOk := psdt = 0 ∧ fuse = 0 ∧ q.d10.toNat = 256 ∧ prp1 % 64 = 0 ∧ prp1 % page + 256 ≤ page
      u.packets = s.packets ∧ u.objects = s.objects ∧ u.cores = s.cores ∧ u.orrery = s.orrery ∧ u.meridian.frame = s.meridian.frame ∧
      (¬ fieldsOk → exec c s = .next (u.complete q .invalidField)) ∧
      (fieldsOk → pkt = none → exec c s = .next (u.complete q .dataTransfer)) ∧
      (∀ d, fieldsOk → pkt = some d →
        let h := Header.read (padTo 256 d)
        (268435456 < h.answerLen → exec c s = .next (u.complete q .invalidField)) ∧
        (h.answerLen ≤ 268435456 → region page h.answerAddr (64 + h.answerLen) 64 list = .error .invalid →
          exec c s = .next (u.complete q .invalidField)) ∧
        (h.answerLen ≤ 268435456 → region page h.answerAddr (64 + h.answerLen) 64 list = .error .unreadable →
          exec c s = .next (u.complete q .dataTransfer)) ∧
        (∀ rs, h.answerLen ≤ 268435456 → region page h.answerAddr (64 + h.answerLen) 64 list = .ok rs →
          (opInfo h.opcode = none → exec c s = .next (u.refuse q h rs { status := .refusedOpcode, reason := 1, off := 0 })) ∧
          (∀ e, u.validate q.fn h (padTo 256 d) param page = .error e → ∃ x, exec c s = .next x ∧ x = u.refuse q h rs e ∧
            x.packets = s.packets ∧ x.objects = s.objects ∧ x.cage = s.cage ∧ x.cores = s.cores) ∧
          (∀ b, u.validate q.fn h (padTo 256 d) param page = .ok b → ∃ x p, exec c s = .next x ∧
            x.packets.nextKey = s.packets.nextKey + 1 ∧ x.packet? s.packets.nextKey = some p ∧ p.hdr = h ∧ p.param = b ∧ p.region = rs ∧
            p.tenant = q.fn ∧ p.sqid = q.sqid ∧ p.cid = q.cid ∧ p.receiptNs = max s.now q.t ∧ p.phase = .received ∧
            p.contracted = (h.fContracted && !h.fProbe) ∧ p.admitFrame = none ∧ x.cores = s.cores ∧ x.assay = s.assay ∧ u.sameFrame x ∧
            (∀ k, k ≠ s.packets.nextKey → x.packet? k = s.packet? k) ∧
            (∀ o, h.fProbe = false → h.opcode = 0x0110 ∨ h.opcode = 0x0202 → tget? s.objects.live (objNumber h.primary) = some o →
              (tget? x.objects.live (objNumber h.primary)).bind (·.changingBy) = some s.packets.nextKey)))))

/-- R147 to R149: after the earlier submissions, an ABORT WORK completes with 3 where no packet has the ID, with 2 where it is answered,
removes one that is not admitted, and notes the request on one that is, which stops at the next tick. R49: the host frees entries of a
completion queue, and what was held back for it is posted in order, its answer complete only now.
R38, R156, R169, R335, R419, R445: a finished job is answered: a mark in its payload or in what it would commit faults the run and
nothing is delivered; a mirrored change waits for the twin; else its change is committed, one version more, and its record and CQE follow,
LATE as its deadline says (R40).
The model's own choices in it: notes/assumptions/34, 46. -/
def Obligations.PacketEndsAndAnswers : Prop :=
  (∀ (s : State) (q : Sqe) (t fn cq n : Nat),
    (∀ v u, (s.at q.t).takeSqe q false = some (v, u) → s.takes q = true → s.earlierIntake v.arrival = false →
      (s.abortTarget q = none → exec (.abortWork q) s = .next (u.complete q .success 3)) ∧
      (∀ p, s.abortTarget q = some p → p.open_ = false → exec (.abortWork q) s = .next (u.complete q .success 2)) ∧
      (∀ p, s.abortTarget q = some p → s.packet? p.key = some p → p.open_ = true → p.phase ≠ .received → p.recordWritten = false →
        ∃ x, exec (.abortWork q) s = .next x ∧ x.packet? p.key = some { p with abortAsked := true } ∧ x.cores = s.cores ∧
          x.objects = s.objects ∧ x.link = u.link ∧ (∀ k, k ≠ p.key → x.packet? k = s.packet? k) ∧
          x.packets.aborts = s.packets.aborts ++ [{ fn := q.fn, sqid := q.sqid, cid := q.cid, packet := p.key }]) ∧
      (∀ p, s.abortTarget q = some p → s.packet? p.key = some p → p.phase = .received →
        ∃ x p', exec (.abortWork q) s = .next x ∧ x.packet? p.key = some p' ∧ p'.status = .aborted ∧ p'.recordWritten = true ∧
          p'.phase = .answered ∧ x.cores = s.cores)) ∧
    (∀ v u, (s.at q.t).takeSqe q false = some (v, u) → s.earlierIntake v.arrival = true →
      exec (.abortWork q) s = .next (s.at q.t)) ∧
    (∀ c, tget? (s.ctrl fn).cqs cq = some c → s.global.mfault = false →
      (c.held = [] → ∃ x, exec (.cqHeadDoorbell t fn cq n) s = .next x ∧
        tget? (x.ctrl fn).cqs cq = some { c with posted := c.posted.drop n } ∧ s.sameRuns x ∧ x.log = s.log) ∧
      (∀ e, c.held = [e] → e.packet = none → (c.posted.drop n).length + 1 < c.depth → ∃ x, exec (.cqHeadDoorbell t fn cq n) s = .next x ∧
        tget? (x.ctrl fn).cqs cq = some { c with posted := c.posted.drop n ++ [e.cqe], held := [] } ∧ s.sameRuns x) ∧
      (∀ e rest, c.held = e :: rest → c.depth ≤ (c.posted.drop n).length + 1 → ∃ x, exec (.cqHeadDoorbell t fn cq n) s = .next x ∧
        tget? (x.ctrl fn).cqs cq = some { c with posted := c.posted.drop n } ∧ s.sameRuns x) ∧
      (∀ e k p, c.held = [e] → e.packet = some k → s.packet? k = some p → p.key = k → (c.posted.drop n).length + 1 < c.depth →
        ∃ x p', exec (.cqHeadDoorbell t fn cq n) s = .next x ∧ x.packet? k = some p' ∧ p'.phase = .answered ∧ p'.cqeHeld = false ∧
          p'.deliverFrame = some s.meridian.frame ∧ p'.late = p.isLate s.meridian.frame)) ∧
    (tget? (s.ctrl fn).cqs cq = none → exec (.cqHeadDoorbell t fn cq n) s = .next (s.at t))) ∧
  (∀ (s : State) (t key : Nat) (swaps : List (Nat × Nat)) (placed : List (Nat × Nat × Nat)) (ack failed : Bool) (p : Packet),
    s.packet? key = some p → p.key = key →
    let c : Instr := .answerDelivery t key swaps placed ack failed
    (p.phase ≠ .finished ∨ s.global.mfault = true ∨ p.sub = true → exec c s = .next (s.at t)) ∧
    (p.phase = .finished → s.global.mfault = false → p.sub = false → p.status = .done → stagedMarked p p.payload.length = true →
      exec c s = .next ((s.at t).faultJob key .poison (deviceLocator (p.jobLodes.headD 0 * lodeBytes)))) ∧
    (p.phase = .finished → s.global.mfault = false → p.sub = false → p.viaExecute = false → p.takenOver = false → p.jobLodes = [] →
      p.deletes = [] → (p.status = .done → stagedMarked p p.payload.length = false) → (∀ e ∈ s.packets.live, e.2.overdue s.meridian.frame = false) →
      (∀ e ∈ (s.ctrl p.fn).aers, (s.ctrl p.fn).cqOf e.1 ≠ p.cqid) →
      (p.changes = [] → s.canPost p.fn = true → s.roomOn p.fn p.cqid = true →
        ∃ x p', exec c s = .next x ∧ x.packet? key = some p' ∧ p'.phase = .answered ∧ p'.cqeHeld = false ∧ p'.recordWritten = true ∧
          p'.status = p.status ∧ p'.late = p.isLate s.meridian.frame ∧ p'.deliverFrame = some s.meridian.frame ∧
          ({ p with jobLodes := [], writeFailed := failed, late := p.isLate s.meridian.frame } : Packet).cqe ∈ x.postedOn p.fn p.cqid ∧
          x.cores = s.cores ∧ (∀ k, k ≠ key → x.packet? k = s.packet? k)) ∧
      (p.changes = [] → s.canPost p.fn = true → s.roomOn p.fn p.cqid = false →
        ∃ x p', exec c s = .next x ∧ x.packet? key = some p' ∧ p'.phase = .answered ∧ p'.cqeHeld = true ∧ p'.recordWritten = true ∧
          x.postedOn p.fn p.cqid = s.postedOn p.fn p.cqid ∧ x.cores = s.cores) ∧
      (∀ b o, p.changes = [b] → tget? s.objects.live (objNumber b.handle) = some o → o.cls = b.cls → o.dead = false → (s.objects.live.map (·.1)).Nodup →
        s.mirrored b.handle = false → ∃ x o', exec c s = .next x ∧ tget? x.objects.live (objNumber b.handle) = some o' ∧
          o'.version = o.version + 1 ∧ o'.bytes = b.bytes ∧ o'.units = b.units ∧
          x.cores = s.cores) ∧
      (∀ b, p.changes = [b] → s.mirrored b.handle = true → s.mirrors = true → ack = false → exec c s = .next (s.at t))))

/-- R43, R45, R408, R418: the row of a running job does its work once its lodes, images and drifts are there, and its run has then finished,
its cores free and its answer waiting; a mark in what it read faults it as poison, and a planned drift that is gone as the loss of a unit.
While it waits, and for a packet that does not run, the row changes nothing.
R283 to R285, R400, R408, R422: a fault of a running job frees its cores and lodes and leaves its record to be replayed, with the fault
and its locator, and a JOB_FAULT event; a core that overran its bundles faults its job; a module fault stops the whole module.
The model's own choices in it: notes/assumptions/35, 43. -/
def Obligations.RunEnds : Prop :=
  (∀ (s : State) (t key : Nat) (lodes : List Nat) (p : Packet) (pl : Plan),
    let rows : List (Nat × Option Nat × Instr × (State → Packet → Plan → JobEnd)) :=
      [(0x0101, none, .seamSearch t key, searchWork), (0x0102, none, .seamSearchFiltered t key, searchWork),
       (0x0110, none, .seamInsert t key lodes, insertWork), (0x0111, some 0, .seamBuildCreate t key lodes, createWork),
       (0x0201, none, .attend t key, attendWork), (0x0202, none, .appendKv t key lodes, appendWork),
       (0x0203, none, .kvOpen t key lodes, openWork), (0x0204, none, .kvClose t key, deleteWork), (0x0401, none, .embed t key, embedWork),
       (0x0402, none, .embedAndInsert t key lodes, embedInsertWork), (0x0501, none, .assay t key, assayWork),
       (0x0701, some 0, .placeCreate t key lodes, placeWork), (0x0701, some 2, .placeDelete t key, deleteWork),
       (0x0704, none, .prefetch t key, prefetchWork)]
    (∀ r ∈ rows, s.const.subs.find? (fun b => b.packet == some key) = none → (∀ k, r.2.1 = some k → leAt p.param 0 1 = k) →
      (s.atWork t key r.1 p pl →
        (∀ w, r.2.2.2 (s.at t) p pl = .done w → ∃ x, exec r.2.2.1 s = .next x ∧ s.finishes x key p pl w) ∧
        (∀ loc lost, r.2.2.2 (s.at t) p pl = .poison loc lost →
          exec r.2.2.1 s = .next ((s.at t).faultJob key .poison loc 0 lost))) ∧
      (s.packet? key = some p → p.plan = some pl → p.phase = .running → p.hdr.opcode = r.1 → s.global.mfault = false →
        (∀ d, s.lostDrift pl = some d →
          exec r.2.2.1 s = .next ((s.at t).faultJob key .unitLoss (unitLocator (s.unit d).epoch d) d)) ∧
        (s.lostDrift pl = none → s.reroute_ p pl = pl → pl.fits = true → (s.at t).jobReady p pl = false →
          exec r.2.2.1 s = .next (s.at t))) ∧
      (s.packet? key = some p → p.phase ≠ .running ∨ p.hdr.opcode ≠ r.1 ∨ s.global.mfault = true → exec r.2.2.1 s = .next (s.at t)) ∧
      (s.packet? key = none → exec r.2.2.1 s = .next (s.at t))) ∧
    (s.atWork t key 0x0111 p pl → leAt p.param 0 1 = 1 → ∀ n,
      (pl.items.headD 0 ≤ n → ∀ w, loadWork (s.at t) p pl = .done w → ∃ x, exec (.seamBuildLoad t key n lodes) s = .next x ∧
        s.finishes x key p pl w) ∧
      (n < pl.items.headD 0 → ∃ x p', exec (.seamBuildLoad t key n lodes) s = .next x ∧ x.packet? key = some p' ∧ p'.phase = .running ∧
        tgetD p'.progress 0 0 = max (tgetD p.progress 0 0) (n / 65536 * 65536) ∧ s.sameFrame x ∧ x.objects = s.objects ∧
        x.cores = s.cores ∧ ∀ k, k ≠ key → x.packet? k = s.packet? k))) ∧
  (∀ (s : State) (t key loc unit : Nat) (ev : FaultEvent),
    (∀ p, s.packet? key = some p → p.inRun = true → ∃ x p', exec (.jobFault t key ev loc unit) s = .next x ∧ x.packet? key = some p' ∧
      p'.phase = .replaying ∧ p'.lastLoc = loc ∧ p'.cores = [] ∧ p'.payload = [] ∧ p'.replays = p.replays ∧
      p'.fault = some { event := ev, locator := loc, lostEntry := false, unit := unit, frame := s.meridian.frame } ∧
      (∀ k, k ≠ key → x.packet? k = s.packet? k) ∧ (∀ n, (x.core n).packet ≠ some key) ∧ x.objects = s.objects ∧ s.sameFrame x ∧
      x.coherence = s.coherence) ∧
    (∀ p, s.packet? key = none ∨ (s.packet? key = some p ∧ p.inRun = false) → exec (.jobFault t key ev loc unit) s = .next (s.at t)) ∧
    (∀ n p, (s.core n).packet = some key → s.packet? key = some p → p.hdr.opcode = 0x0601 → (s.core n).exited = false →
      (s.core n).watchdog ≤ (s.core n).bundles →
      exec (.watchdogOverrun t n) s = exec (.jobFault t key .watchdog (coreLocator 3 n (s.core n).pc) 0) s) ∧
    (∀ n p, (s.core n).packet = some key → s.packet? key = some p → p.hdr.opcode = 0x0601 →
      (s.core n).exited = true ∨ (s.core n).bundles < (s.core n).watchdog → exec (.watchdogOverrun t n) s = .next (s.at t)) ∧
    (∀ n, (s.core n).packet = none → exec (.watchdogOverrun t n) s = .next (s.at t)) ∧
    (∀ cause, cause ≤ 3 → s.global.mfault = false → ∃ x, exec (.moduleFault t cause) s = .next x ∧ x.global.mfault = true ∧
      x.packets = s.packets ∧ x.objects = s.objects ∧ ∀ fn, x.fetches fn = false ∧ x.canPost fn = false) ∧
    (∀ cause, 3 < cause → exec (.moduleFault t cause) s = .next (s.at t)))

/-- R45 and the opcodes' own rules on what they answer: a cap that holds no work item gives an answer without entries and changes nothing;
a search answers at most K entries of 16 bytes; an insert of OP 1 counts every ID once; an object created answers its handle with version 1,
and one deleted its last version; ASSAY answers 288 bytes a tap.
The model's own choices in it: notes/assumptions/45, 46. -/
def Obligations.WorkAnswers : Prop :=
  ∀ (s : State) (p : Packet) (pl : Plan) (o : Object),
    (∀ b, p.prim = some o → o.index? = some b →
      (pl.fits = false → searchWork s p pl = .done {} ∧ insertWork s p pl = .done { payload := le 8 0 ++ le 8 o.version } ∧
        (∀ x, p.sec = some x → loadWork s p pl = .done { payload := le 8 0 ++ le 8 o.version })) ∧
      (∀ w, p.sub = false → searchWork s p pl = .done w → w.change = none ∧ w.delete = none ∧
        ∃ n, n ≤ (Search.read p.param).k ∧ w.payload.length = 16 * n) ∧
      (∀ w, pl.fits = true → (Insert.read p.param).op ≠ 0 → insertWork s p pl = .done w →
        ∃ gone absent v, gone + absent = pl.items.headD 0 ∧ w.payload = le 4 gone ++ le 4 absent ++ le 8 v ∧
          (gone = 0 → w.change = none ∧ v = o.version) ∧ (0 < gone → v = o.version + 1 ∧ w.change.isSome = true))) ∧
    (∀ b, p.prim = some o → o.kv? = some b →
      (pl.fits = false → appendWork s p pl = .done { payload := le 4 (readAppend p.param).start ++ le 4 0 ++ le 8 o.version }) ∧
      (∀ w, pl.fits = true → appendWork s p pl = .done w → ∃ o', w.change = some o' ∧ o'.handle = o.handle ∧
        w.payload = le 4 ((readAppend p.param).start + (readAppend p.param).count) ++ le 4 0 ++ le 8 (o.version + 1)) ∧
      (∀ w, attendWork s p pl = .done w → w.change = none ∧ w.delete = none)) ∧
    (p.create = some o → openWork s p pl = .done { payload := handleVersion o.handle 1, change := some o } ∧
      (bitAt (leAt p.param 3 1) 1 = false → placeWork s p pl = .done { payload := handleVersion o.handle 1, change := some o }) ∧
      (∀ x, p.sec = some x → pl.fits = false → createWork s p pl = .done {})) ∧
    (s.objects.named p.hdr.primary = some o →
      deleteWork s p pl = .done { payload := handleVersion p.hdr.primary o.version, delete := some (objNumber p.hdr.primary) }) ∧
    (∀ w, assayWork s p pl = .done w → w.payload.length = 288 * leAt p.param 2 2 ∧ w.change = none ∧ w.delete = none) ∧
    (∀ w, embedWork s p pl = .done w → w.change = none ∧ w.delete = none ∧
      (∀ m, p.prim = some m → pl.fits = false → w.payload.take 4 = le 4 0)) ∧
    (∀ w, prefetchWork s p pl = .done w → w.change = none ∧ (p.prim.isSome = true → w.payload.length = 16))

/-- R163, R165, R168, R244, R259, R285, R287: the jobs that wait for the Cage, for other units or for the cores themselves. A change to the
class that an object holds changes nothing; a PIN takes every lode of its plan or none; an UNPIN takes one off each count; FRAME PROBE is
answered at once; RUN PROGRAM starts every core of its job at the entry with its three registers; SIFT keeps what each drift evaluated.
The model's own choices in it: notes/assumptions/44, 47. -/
def Obligations.JobRows : Prop :=
  ∀ (s : State) (t key : Nat) (p : Packet) (pl : Plan) (o : Object),
    let others := fun (x : State) => ∀ k, k ≠ key → x.packet? k = s.packet? k
    (s.atWork t key 0x0701 p pl → leAt p.param 0 1 = 1 → s.objects.named p.hdr.primary = some o →
      let cls := placeClass (leAt p.param 2 1)
      (cls = o.cls → ∃ x, exec (.placeSetPlacement t key) s = .next x ∧
        s.finishes x key p pl { payload := handleVersion o.handle o.version }) ∧
      (cls ≠ o.cls → cls = .pinnedH → s.wholeIn o = false → ∃ x, exec (.placeSetPlacement t key) s = .next x ∧ x.packets = s.packets ∧
        x.objects = s.objects ∧ ∀ i, i < o.lodes → s.cage.translate (o.base + i) = .miss → o.base + i ∈ x.cage.wanted) ∧
      (cls ≠ o.cls → cls ≠ .pinnedH ∨ s.wholeIn o = true → ∃ x, exec (.placeSetPlacement t key) s = .next x ∧
        s.finishes x key p pl { payload := handleVersion o.handle (o.version + 1), change := some { o with cls := cls } })) ∧
    (s.packet? key = some p → p.prim = some o → p.plan = some pl → p.phase = .running → s.global.mfault = false → s.pinsBefore p = false →
      let ws := pl.items.map (o.base + ·)
      (p.hdr.opcode = 0x0702 → s.pinFits p.tenant ws = false → ∃ x w, exec (.pin t key) s = .next x ∧ s.finishes x key p pl w ∧
        w.payload.take 1 = [1] ∧ w.payload.length = 16 ∧ ∀ h, (x.cage.entry h).pin = (s.cage.entry h).pin) ∧
      (p.hdr.opcode = 0x0702 → s.pinFits p.tenant ws = true → s.cage.allResident ws = false →
        ∃ x, exec (.pin t key) s = .next x ∧ x.packets = s.packets ∧ x.objects = s.objects ∧
          ∀ w ∈ ws, s.cage.translate w = .miss → w ∈ x.cage.wanted) ∧
      (p.hdr.opcode = 0x0702 → s.pinFits p.tenant ws = true → s.cage.allResident ws = true → ∃ x p', exec (.pin t key) s = .next x ∧
        x.packet? key = some p' ∧ p'.phase = .finished ∧ p'.status = .done ∧ p'.payload.take 1 = [0] ∧ others x) ∧
      (p.hdr.opcode = 0x0703 → ∃ x w, exec (.unpin t key) s = .next x ∧ s.finishes x key p pl w ∧ w.payload.take 1 = [0] ∧
        w.payload.length = 16 ∧ (∀ h, (s.cage.entry h).pin = 0 → (x.cage.entry h).pin = 0) ∧ ∀ h, (x.cage.entry h).pin ≤ (s.cage.entry h).pin)) ∧
    (s.atWork t key 0x0F01 p pl → s.canPost p.fn = true → s.roomOn p.fn p.cqid = true → p.takenOver = false →
      (∀ e ∈ s.packets.live, e.2.overdue s.meridian.frame = false) → ∃ x p', exec (.frameProbe t key) s = .next x ∧
        x.packet? key = some p' ∧ p'.phase = .answered ∧ p'.cqeHeld = false ∧ p'.deliverFrame = some s.meridian.frame ∧ p'.payload = (s.at t).probePayload p ∧ p'.payload.length = 64 ∧ others x) ∧
    (s.atWork t key 0x0601 p pl → p.prim = some o → pl.fits = true → p.cores.Nodup →
      (∀ n ∈ p.cores, (s.core n).packet = some key ∧ (s.core n).exited = true ∧ (s.core n).codeLen = 0) →
      ∃ x p', exec (.runProgram t key) s = .next x ∧ x.packet? key = some p' ∧ p'.phase = .running ∧ p'.cost = pl.cost ∧ others x ∧
        (∀ n, n ∉ p.cores → x.core n = s.core n) ∧ x.objects = s.objects ∧ s.sameFrame x ∧
        ∀ n ∈ p.cores, let c := x.core n; let e := ProgEntry.read o.all (RunProg.read p.param).entry
          c.exited = false ∧ c.pc = e.start ∧ c.watchdog = e.bundleMax ∧ (c.readX 1).val = BitVec.ofNat 64 (s.core n).index ∧
          (c.readX 2).val = BitVec.ofNat 64 (s.core n).cores ∧ (c.readX 3).val = BitVec.ofNat 64 (RunProg.read p.param).argLen ∧
          c.packet = some key ∧ c.codeLen = (ProgHeader.read o.all).codeLen) ∧
    (s.atWork t key 0x0601 p pl → p.prim = some o → pl.fits = false → ∃ x, exec (.runProgram t key) s = .next x ∧
      s.finishes x key p pl {}) ∧
    (∀ parts n, s.atWork t key 0x0301 p pl → p.prim = some o → tget? s.link.namespaces (View.read o.all).nsid = some n →
      (∀ d, (∃ i, i < pl.items.headD 0 ∧ sectorDrift n (View.read o.all).slba ((Sift.read p.param).rowFirst / (View.read o.all).rps + i) = d) →
        p.cores.contains d = true ∧ ∃ k, (d, k) ∈ parts ∧ pl.items.headD 0 ≤ k) →
      ∃ x p', exec (.sift t key parts none) s = .next x ∧ x.packet? key = some p' ∧ p'.phase ≠ .running ∧ others x) ∧
    (∀ parts, s.atWork t key 0x0301 p pl → p.prim = none → ∃ x, exec (.sift t key parts none) s = .next x ∧
      s.finishes x key p pl {})

/-- R430 to R435: a frame with a bad CRC, a type above 2 or a failed decode is dropped, counted and answered with a NAK record of the SEQ
expected; one out of order is not taken; the one in order advances the SEQ modulo 4,096, and its last flit completes a message. A NAK
resends from the SEQ that it names, and returned credits let queued flits go.
R432, R433, R436, R439, R463, R515: eight NAKs in a row or 10 µs of silence take a link down, and three failed retrainings keep it down; a
link that comes up holds 256 credits a channel; new session keys come every 2^32 flits; routes change at once on the foreman that computes
them and at the next tick on the member that receives them.
The model's own choices in it: notes/assumptions/11. -/
def Obligations.FabricFramesAndLinks : Prop :=
  (∀ (s : State) (t p : Nat) (frame : List Byte) (corrected failed : Bool) (poison : BitVec 4), p < 12 →
    let port := s.port p
    let h := leAt frame 0 4
    let bad := failed = true ∨ 2 < h % 16 ∨ crc32 (frame.take 260) ≠ leAt frame 260 4
    let apart := fun (x : State) => s.sameRuns x ∧ s.sameFrame x ∧ x.pair = s.pair ∧ x.const = s.const ∧ x.link = s.link ∧ x.log = s.log ∧
      ∀ k, k ≠ p → x.port k = s.port k
    let c : Instr := .wireFrameReceived t p frame corrected failed poison
    (port.state = .down ∨ port.state = .training → exec c s = .next (s.at t)) ∧
    (port.state = .up ∨ port.state = .lantern →
      (bad → ∃ x, exec c s = .next x ∧ apart x ∧ (x.port p).rxNext = port.rxNext ∧ (x.port p).crcErr = satAdd 32 port.crcErr 1 ∧
        (x.port p).retry = satAdd 32 port.retry 1 ∧ (x.port p).inbox = port.inbox ∧ x.fabric.received = s.fabric.received ∧
        (x.port p).control = port.control ++ [padTo 16 (le 1 2 ++ le 1 0 ++ le 2 port.rxNext)]) ∧
      (¬ bad → h % 16 ≠ 0 → h / 256 % 4096 ≠ port.rxNext → ∃ x, exec c s = .next x ∧ apart x ∧ (x.port p).rxNext = port.rxNext ∧
        x.fabric.received = s.fabric.received ∧ (x.port p).inbox = port.inbox) ∧
      (¬ bad → h % 16 = 2 → h / 256 % 4096 = port.rxNext → ∃ x, exec c s = .next x ∧ apart x ∧
        (x.port p).rxNext = (port.rxNext + 1) % 4096 ∧ x.fabric.received = s.fabric.received ∧ (x.port p).inbox = port.inbox ++
          ((List.range 16).map (fun i => sliceBytes (sliceBytes frame 4 256) (16 * i) 16)).filter (fun r => leAt r 0 1 != 0)) ∧
      (¬ bad → h % 16 = 1 → h / 256 % 4096 = port.rxNext → isBinary p = true → port.secured = false → h / 16 % 4 ≠ 0 →
        ∃ x, exec c s = .next x ∧ apart x ∧ (x.port p).rxNext = (port.rxNext + 1) % 4096 ∧ x.fabric.received = s.fabric.received) ∧
      (¬ bad → h % 16 = 1 → h / 256 % 4096 = port.rxNext → isBinary p = false ∨ port.secured = true ∨ h / 16 % 4 = 0 →
        ∃ x, exec c s = .next x ∧ apart x ∧ (x.port p).rxNext = (port.rxNext + 1) % 4096 ∧
          (bitAt h 7 = false → x.fabric.received = s.fabric.received) ∧
          (bitAt h 7 = true → bitAt h 6 = true → ∃ m, x.fabric.received = s.fabric.received ++ [m] ∧ m.port = p ∧ m.vc = h / 16 % 4 ∧
            m.dst = leAt frame 4 1 ∧ m.src = leAt frame 5 1 ∧ m.typ = leAt frame 6 1 ∧ m.tag = leAt frame 12 8))) ∧
    (∀ r, (s.port p).inbox.find? (fun r => leAt r 0 1 == 2) = some r → ∃ x, exec (.nak t p) s = .next x ∧ apart x ∧
      (∀ pre f post, port.replay = pre ++ f :: post → f.seq = leAt r 2 2 % 4096 → (∀ g ∈ pre, g.seq ≠ f.seq) →
        (x.port p).replay = f :: post ∧ (x.port p).resent = port.resent + (post.length + 1)) ∧
      (x.port p).txSeq = port.txSeq ∧ (x.port p).nakSeq = leAt r 2 2 % 4096 ∧ (x.port p).inbox.length + 1 = port.inbox.length ∧
      x.fabric.received = s.fabric.received) ∧
    ((s.port p).inbox.find? (fun r => leAt r 0 1 == 2) = none → exec (.nak t p) s = .next (s.at t)) ∧
    (∀ r, (s.port p).inbox.find? (fun r => leAt r 0 1 == 1) = some r → ∃ x, exec (.creditReturn t p) s = .next x ∧ apart x ∧
      (x.port p).inbox.length + 1 = port.inbox.length ∧
      (port.queued = [] → (∀ vc, vc ≠ leAt r 1 1 % 4 → tgetD (x.port p).credits vc 0 = tgetD port.credits vc 0) ∧
        tgetD (x.port p).credits (leAt r 1 1 % 4) 0 = tgetD port.credits (leAt r 1 1 % 4) 0 + leAt r 2 2)) ∧
    ((s.port p).inbox.find? (fun r => leAt r 0 1 == 1) = none → exec (.creditReturn t p) s = .next (s.at t)) ∧
    (∀ r, (s.port p).inbox.find? (fun r => leAt r 0 1 == 4) = some r → isBinary p = true → ∃ x, exec (.faultNotice t p) s = .next x ∧
      x.pair = { s.pair with notice := some (leAt r 1 1) } ∧ s.sameRuns x ∧ s.sameFrame x ∧ x.const = s.const ∧ x.log = s.log) ∧
    ((s.port p).inbox.find? (fun r => leAt r 0 1 == 4) = none → exec (.faultNotice t p) s = .next (s.at t))) ∧
  (∀ (s : State) (t p : Nat), p < 12 →
    let port := s.port p
    let apart := fun (x : State) => s.sameRuns x ∧ s.sameFrame x ∧ x.const = s.const ∧ x.units = s.units ∧ ∀ k, k ≠ p → x.port k = s.port k
    (∀ silent failed, port.state = .up ∨ port.state = .lantern →
      (silent = true ∨ 8 ≤ port.nakRun → ∃ x, exec (.fabricPortDown t p silent failed) s = .next x ∧ apart x ∧ (x.port p).state = .training ∧
        (x.port p).downCnt = satAdd 16 port.downCnt 1 ∧ (x.port p).secured = false ∧ (x.port p).replay = port.replay ∧
        (x.port p).queued = port.queued ∧ (isBinary p = true → s.binaryDown = false → x.binaryDown = true → x.pair.auth = false)) ∧
      (silent = false → port.nakRun < 8 → exec (.fabricPortDown t p silent failed) s = .next (s.at t))) ∧
    (∀ silent, port.state = .training →
      (exec (.fabricPortDown t p silent true) s = .next ((s.at t).modPort p (fun x =>
        { x with retrainFails := port.retrainFails + 1, state := if 2 ≤ port.retrainFails then .down else .training }))) ∧
      exec (.fabricPortDown t p silent false) s = .next (s.at t)) ∧
    (p < 10 → port.state ≠ .up → s.portServes p = true → port.queued = [] → ∃ x, exec (.fabricPortLinkUp t p) s = .next x ∧ apart x ∧
      (x.port p).state = .up ∧ (x.port p).retrainFails = 0 ∧ (∀ vc, vc < 4 → tgetD (x.port p).credits vc 0 = 256) ∧
      (x.port p).replay = port.replay ∧ (x.port p).txSeq = port.txSeq ∧ x.log = s.log) ∧
    (10 ≤ p ∨ port.state = .up ∨ s.portServes p = false → exec (.fabricPortLinkUp t p) s = .next (s.at t)) ∧
    (isBinary p = true → port.secured = true → 2 ^ 32 ≤ port.underKey →
      (exec (.keyUpdate t p true) s = .next ((s.at t).modPort p (fun x => { x with underKey := 0 }))) ∧
      (∃ x, exec (.keyUpdate t p false) s = .next x ∧ apart x ∧ (x.port p).secured = false ∧ (x.port p).state = port.state)) ∧
    (∀ ok, isBinary p = false ∨ port.secured = false ∨ port.underKey < 2 ^ 32 → exec (.keyUpdate t p ok) s = .next (s.at t)) ∧
    (∀ routes tables, s.const.role = .foreman → s.const.formed = true → (s.port p).state ≠ .up →
      ∃ x, exec (.routeChanged t p routes tables) s = .next x ∧ s.sameRuns x ∧ x.meridian = s.meridian ∧ x.orrery = s.orrery ∧
        (∃ (r : Tbl Nat), x.const = { s.const with routes := r } ∧ (routes = [] → r = []) ∧ ∀ m q, routes = [(m, q)] → tget? r m = some q) ∧
        (∃ (again : List SurveyJob), x.lodestar = { s.lodestar with surveys := s.lodestar.surveys ++ again } ∧ again.length ≤ 1)) ∧
    (∀ routes tables, s.const.role ≠ .foreman ∨ s.const.formed = false ∨ (s.port p).state = .up →
      exec (.routeChanged t p routes tables) s = .next (s.at t)) ∧
    (∀ routes deputy, s.const.role = .hewer → ∃ x, exec (.routeTableReceived t routes deputy) s = .next x ∧ s.sameRuns x ∧ s.sameFrame x ∧
      x.const.routesNext.isSome = true ∧ x.const.routes = s.const.routes ∧ x.const.formed = true ∧
      x.const.deputy = (deputy && s.pair.id.pairId != 0) ∧ x.fabric = s.fabric) ∧
    (∀ routes deputy, s.const.role ≠ .hewer → exec (.routeTableReceived t routes deputy) s = .next (s.at t)))

/-- R61, R94, R113 to R115, R434, R456, R461 to R463, R542: a tick marker is TWIN on a binary port and FAB on a hewer's; a foreman forms, and
surveys its members one after another by 64 exchanges each; an entry goes stale once its member left FAB and TWIN for 2 s or restarted.
The model's own choices in it: notes/assumptions/53, 66. -/
def Obligations.Surveys : Prop :=
  ∀ (s : State) (q : Sqe) (t m : Nat),
    let u := s.at q.t
    let hewers := s.const.members.filter (· != s.const.member)
    (∀ p r from_ sel per, (s.port p).inbox.find? (fun r => leAt r 0 1 == 3) = some r → s.powered 4 = true → isBinary p = true →
      (s.ref .twin).signal = false → ∃ x, exec (.tickMarker t p from_ sel per) s = .next x ∧ (x.ref .twin).lastMark = some t ∧
        (x.ref .twin).signal = true ∧ (x.ref .twin).barred = (sel == 4 || per != s.meridian.period) ∧
        x.pair.markerOff = s.markerOffset t (leAt r 8 8) ∧ x.const = s.const ∧ s.sameRuns x ∧ x.meridian = s.meridian ∧
        x.lodestar.sel = s.lodestar.sel) ∧
    (∀ p r sel per, (s.port p).inbox.find? (fun r => leAt r 0 1 == 3) = some r → s.powered 4 = true → isBinary p = false →
      s.const.role = .hewer → (s.ref .fab).signal = false → ∃ x, exec (.tickMarker t p s.const.foreman sel per) s = .next x ∧
        (x.ref .fab).lastMark = some t ∧ (x.ref .fab).signal = true ∧ (x.ref .fab).barred = (sel == 3 || per != s.meridian.period) ∧
        x.const = { s.const with frameOff := -(s.markerOffset t (leAt r 8 8)) } ∧ s.sameRuns x ∧ x.pair = s.pair) ∧
    (∀ p from_ sel per, (s.port p).inbox.find? (fun r => leAt r 0 1 == 3) = none → exec (.tickMarker t p from_ sel per) s = .next (s.at t)) ∧
    (∀ found clash routes tables, s.takes q = true → q.fn = 0 →
      (q.d10.toNat % 256 ≠ 0 → exec (.surveyForm q found clash routes tables) s = .next (u.complete q .invalidField)) ∧
      (q.d10.toNat % 256 = 0 → s.const.role ≠ .foreman ∨ clash = true →
        exec (.surveyForm q found clash routes tables) s = .next (u.complete q .commandSequence)) ∧
      (q.d10.toNat % 256 = 0 → s.const.role = .foreman → clash = false → s.lodestar.surveys = [] → (∃ h ∈ found, 0 < h ∧ h < 64) →
        ∃ x j, exec (.surveyForm q found clash routes tables) s = .next x ∧ x.lodestar.surveys = [j] ∧ j.form = true ∧ j.fn = q.fn ∧
          j.cid = q.cid ∧ (∀ h, h ∈ j.left ↔ h ∈ found ∧ 0 < h ∧ h < 64) ∧ x.const.members = s.const.member :: j.left ∧
          x.const.savedMembers = j.left ∧ x.const.lost = [] ∧ x.const.foreman = s.const.member ∧ s.sameRuns x ∧ x.link = u.link)) ∧
    (s.takes q = true → q.fn = 0 →
      (q.d10.toNat % 256 ≠ 1 → exec (.survey q) s = .next (u.complete q .invalidField)) ∧
      (q.d10.toNat % 256 = 1 → s.const.role ≠ .foreman ∨ s.const.formed = false →
        exec (.survey q) s = .next (u.complete q .commandSequence)) ∧
      (q.d10.toNat % 256 = 1 → s.const.role = .foreman → s.const.formed = true →
        let one := q.d11.toNat % 64
        (one ≠ 0 → one ∉ hewers → exec (.survey q) s = .next (u.complete q .invalidField)) ∧
        (s.lodestar.surveys = [] → (one ≠ 0 ∧ one ∈ hewers) ∨ (one = 0 ∧ hewers ≠ []) → ∃ x j, exec (.survey q) s = .next x ∧
          x.lodestar = { s.lodestar with surveys := [j] } ∧ j.left = (if one = 0 then hewers else [one]) ∧ j.measured = j.left.length ∧
          j.form = false ∧ j.own = false ∧ s.sameRuns x ∧ x.link = u.link ∧ x.const = s.const))) ∧
    (∀ found routes tables, s.const.savedRole = .foreman → s.const.formed = false → s.const.formAsked = false →
      s.startup.ended.contains .ready = true → s.global.mfault = false →
      (∀ h ∈ s.const.savedMembers, h ∈ found) ∨ s.startup.readyNs + 60000000000 ≤ max s.now t →
      (∃ x, exec (.foremanAutoForm t found true routes tables) s = .next x ∧ x.const = { s.const with formAsked := true } ∧
        x.lodestar = s.lodestar) ∧
      (s.lodestar.surveys = [] → (∃ h ∈ found, 0 < h ∧ h < 64) → ∃ x j, exec (.foremanAutoForm t found false routes tables) s = .next x ∧
        x.const.formAsked = true ∧ x.lodestar.surveys = [j] ∧ j.own = true ∧ j.form = true ∧ s.sameRuns x)) ∧
    (∀ found clash routes tables, s.const.savedRole ≠ .foreman ∨ s.const.formed = true ∨ s.const.formAsked = true →
      exec (.foremanAutoForm t found clash routes tables) s = .next (s.at t)) ∧
    (∀ boot fo xs, s.const.role = .hewer → xs.length = 64 → m = s.const.member → ∃ x, exec (.surveyExchange t m boot fo xs) s = .next x ∧
      x.const = { s.const with frameOff := fo } ∧ (tgetD x.lodestar.survey m {}).valid = true ∧ (tgetD x.lodestar.survey m {}).stale = false ∧
      (tgetD x.lodestar.survey m {}).boot = boot ∧ s.sameRuns x) ∧
    (∀ boot fo xs j rest, s.const.role = .foreman → s.lodestar.surveys = j :: rest → xs.length = 64 → m ∈ j.left →
      (∃ k ∈ j.left, k ≠ m) → ∃ x, exec (.surveyExchange t m boot fo xs) s = .next x ∧
        x.lodestar.surveys = { j with left := j.left.filter (· != m) } :: rest ∧ (tgetD x.lodestar.survey m {}).valid = true ∧
        (tgetD x.lodestar.survey m {}).frameOff = fo ∧ (tgetD x.lodestar.survey m {}).boot = boot ∧ x.const = s.const ∧ x.log = s.log) ∧
    (∀ boot fo xs j, s.const.role = .foreman → s.lodestar.surveys = [j] → xs.length = 64 → j.left = [m] → j.form = true →
      ∃ x, exec (.surveyExchange t m boot fo xs) s = .next x ∧ x.lodestar.surveys = [] ∧ x.const.formed = true ∧
        x.const.routesNext = some j.routes) ∧
    (∀ boot, let e := tgetD s.lodestar.survey m {}
      e.valid = true → e.stale = false → m ≠ s.const.member → boot ≠ some e.boot → ∃ x, exec (.surveyStale t m boot) s = .next x ∧
        x.lodestar = { s.lodestar with survey := tset s.lodestar.survey m { e with stale := true } } ∧ s.sameRuns x ∧ x.const = s.const ∧
        (s.const.role ≠ .foreman → x.log = s.log)) ∧
    (∀ boot, (tgetD s.lodestar.survey m {}).valid = false ∨ (tgetD s.lodestar.survey m {}).stale = true ∨
      boot = some (tgetD s.lodestar.survey m {}).boot → exec (.surveyStale t m boot) s = .next (s.at t))

/-- R466 to R474: a sub-packet waits for its tick on the shard's holder; a shard's result is taken once, and the last one merges the leading
K entries; a marked one faults the merge; a member that is lost sends its shards to their other copies or leaves them missing; a deputy whose
twin is lost becomes foreman; a cancelled sub-packet stops.
The model's own choices in it: notes/assumptions/53. -/
def Obligations.Shards : Prop :=
  ∀ (s : State) (t m tag : Nat) (b : SubPacket) (r : ShardResult),
    s.global.mfault = false → s.powered 4 = true →
    let key := tag / 64
    (s.const.subs.length < 4096 → s.const.role ≠ .none → b.member ≠ s.const.member → ∃ x, exec (.subpacket t b) s = .next x ∧
      x.const = { s.const with subs := s.const.subs ++ [{ b with packet := none }] } ∧ s.sameRuns x ∧ s.sameFrame x ∧ x.fabric = s.fabric) ∧
    (4096 ≤ s.const.subs.length ∨ s.const.role = .none ∨ b.member = s.const.member → exec (.subpacket t b) s = .next (s.at t)) ∧
    (∀ sc p, tget? s.const.scatters key = some sc → s.packet? key = some p → p.phase = .running → r.shard = tag % 64 →
      sc.missing.contains r.shard = false → sc.results.any (fun x => x.shard == r.shard) = false → sc.resend = [] →
      (sc.results.length + 1 + sc.missing.length < sc.shards.length → ∃ x, exec (.result t tag r false) s = .next x ∧
        tget? x.const.scatters key = some { sc with results := sc.results ++ [r] } ∧ x.packets = s.packets ∧ x.cores = s.cores ∧
        x.log = s.log) ∧
      (sc.shards.length ≤ sc.results.length + 1 + sc.missing.length → (∀ y ∈ sc.results ++ [r], y.status = .done) → ∃ x p',
        exec (.result t tag r false) s = .next x ∧ x.packet? key = some p' ∧ p'.phase = .finished ∧ p'.status = .done ∧
        p'.payload = mergedPayload (Search.read p.param).k (sc.results ++ [r]) ∧ p'.partialAns = !sc.missing.isEmpty ∧
        p'.payload.length ≤ 16 * (Search.read p.param).k ∧ ∀ k, k ≠ key → x.packet? k = s.packet? k) ∧
      (sc.shards.length ≤ sc.results.length + 1 + sc.missing.length → (∀ y ∈ sc.results, y.status = .done) → r.status ≠ .done →
        ∃ x p', exec (.result t tag r false) s = .next x ∧ x.packet? key = some p' ∧ p'.phase = .finished ∧ p'.status = r.status ∧
          p'.payload = [])) ∧
    (∀ sc, tget? s.const.scatters key = some sc → sc.results.any (fun x => x.shard == r.shard) = true ∨ r.shard ≠ tag % 64 ∨
      sc.missing.contains r.shard = true → exec (.result t tag r false) s = .next (s.at t)) ∧
    (∀ sc p, tget? s.const.scatters key = some sc → s.packet? key = some p → p.inRun = true → ∃ x p', exec (.result t tag r true) s = .next x ∧
      x.packet? key = some p' ∧ p'.phase = .replaying ∧ p'.fault.map (·.event) = some .poison) ∧
    (∃ x, exec (.subpacketCancel t m tag) s = .next x ∧ x.const.subs = s.const.subs.filter (fun y => !(y.member == m && y.tag == tag)) ∧
      s.sameFrame x ∧ x.objects = s.objects ∧ (∀ y ∈ s.const.subs, y.member = m → y.tag = tag → ∀ k, y.packet = some k →
        x.packet? k = none)) ∧
    (s.const.role = .foreman → m ∈ s.const.members → m ∉ s.const.lost → m ≠ s.const.member → s.const.scatters = [] →
      ∃ x, exec (.memberLost t m) s = .next x ∧ x.const = { s.const with lost := s.const.lost ++ [m] } ∧ s.sameRuns x ∧ s.sameFrame x) ∧
    (∀ sc, s.const.role = .foreman → m ∈ s.const.members → m ∉ s.const.lost → m ≠ s.const.member → s.const.scatters = [(key, sc)] →
      ∃ x sc', exec (.memberLost t m) s = .next x ∧ tget? x.const.scatters key = some sc' ∧ sc'.results = sc.results ∧
        (∀ i sh, sc.shards[i]? = some sh → sc.results.any (fun y => y.shard == i) = false → sc.missing.contains i = false →
          tgetD sc.runner i 0xFF = m →
          (sh.pref = m → sh.alt ≠ 0xFF → sh.alt ∉ s.const.lost → sh.alt ≠ m → tgetD sc'.runner i 0xFF = sh.alt ∧ i ∈ sc'.resend) ∧
          (sh.alt = 0xFF ∨ sh.pref ≠ m → i ∈ sc'.missing))) ∧
    (s.const.role ≠ .foreman ∨ m ∉ s.const.members ∨ m ∈ s.const.lost ∨ m = s.const.member → exec (.memberLost t m) s = .next (s.at t)) ∧
    (∀ spans, s.const.role = .hewer → s.const.deputy = true → s.pair.state = .solo → ∃ x, exec (.foremanChanged t spans) s = .next x ∧
      x.const.role = .foreman ∧ x.const.foreman = s.const.member ∧ x.const.deputy = false ∧ s.const.foreman ∈ x.const.lost ∧
      s.const.member ∈ x.const.members ∧ (∀ y ∈ x.const.subs, y.member ≠ s.const.foreman) ∧ s.sameFrame x) ∧
    (∀ spans, s.const.role ≠ .hewer ∨ s.const.deputy = false ∨ s.pair.state ≠ .solo → exec (.foremanChanged t spans) s = .next (s.at t))

/-- R433, R439, R440, R442, R447 to R456, Table Pair 5: a binary port that comes up with the module's twin at its other end authenticates and
joins it by the solo changes of both; any other module leaves it with VC0. A lost twin leaves SOLO and its records taken over; a partition
leaves side A SOLO and side B FENCED; so does a wait of 30 s that PAIR_DETECT outlasts.
The model's own choices in it: notes/assumptions/36, 54. -/
def Obligations.PairStates : Prop :=
  ∀ (s : State) (t p : Nat),
    let id := s.pair.id
    let st := s.pair.state
    let apart := fun (x : State) => s.sameFrame x ∧ x.objects = s.objects ∧ x.coherence = s.coherence ∧ x.cores = s.cores ∧ x.const = s.const
    (∀ certs key us pid side boot solo split marks changes, isBinary p = true → (s.port p).state ≠ .up → s.portServes p = true →
      let c : Instr := .binaryPortLinkUp t p certs key us pid side boot solo split marks changes
      let ok := certs = true ∧ us = true ∧ key = id.twinKey ∧ pid = id.pairId ∧ side ≠ id.side ∧ pid ≠ 0
      (¬ ok → ∃ x, exec c s = .next x ∧ (x.port p).secured = false ∧ (x.port p).state = .up ∧ x.pair = s.pair ∧ apart x ∧ s.sameRuns x) ∧
      (ok → s.pair.fresh = false → s.pair.sanitized = false → (solo = true ∨ marks = []) →
        ∃ x, exec c s = .next x ∧ (x.port p).secured = true ∧ (x.port p).state = .up ∧ x.pair.auth = true ∧ x.pair.twinBoot = boot ∧ apart x ∧
          (st = .paired ∨ st = .resync ∨ st = .split ∨ st = .conflict ∨ split = true → x.pair.state = st) ∧
          (st ≠ .paired → st ≠ .resync → st ≠ .split → st ≠ .conflict → split = false →
            (s.pair.solo = false → solo = false → x.pair.state = .paired ∧ x.pair.frameOff = s.pair.markerOff) ∧
            (s.pair.solo = true → solo = true → x.pair.state = .conflict) ∧
            (s.pair.solo = true → solo = false → x.pair.state = .resync ∧ x.pair.isSource = true ∧ x.pair.resyncLeft = s.pair.dirty) ∧
            (s.pair.solo = false → solo = true → x.pair.state = .resync ∧ x.pair.isSource = false))) ∧
      (ok → s.pair.fresh = true → ∃ x, exec c s = .next x ∧ x.pair.state = .resync ∧ x.pair.isSource = id.side ∧ x.pair.fresh = false ∧
        x.pair.auth = true ∧ apart x)) ∧
    (∀ held level, 5000 ≤ held → level ≠ s.pair.detectIn → ∃ x, exec (.pairDetectChange t held level) s = .next x ∧
      x.pair = { s.pair with detectIn := level, waitingSince := if st = .waiting then max s.now t else s.pair.waitingSince } ∧ s.sameRuns x ∧ apart x ∧
      (level = true ∨ s.binaryDown = true ∨ s.pair.notice.isSome = true ∨ s.pair.has = false → x.log = s.log)) ∧
    (∀ held level, held < 5000 ∨ level = s.pair.detectIn → exec (.pairDetectChange t held level) s = .next (s.at t)) ∧
    (s.pair.detectIn = false → s.binaryDown = true ∨ s.pair.notice.isSome = true →
      (st = .paired ∨ (st = .resync ∧ s.pair.isSource = true) → ∃ x, exec (.pairLost t) s = .next x ∧ x.pair.state = .solo ∧
        x.pair.auth = false ∧ x.packets.twin = [] ∧ x.pair.takeoverRuns = true ∧ s.sameFrame x ∧ x.coherence = s.coherence ∧ x.cores = s.cores ∧
        x.const = s.const ∧
        (∀ k q, s.packets.twin = [(k, q)] → bitAt q.hdr.flags 2 = true → q.phase ≠ .answered → x.pair.takeoverBegun = some 1 ∧
          ∃ y, x.packet? s.packets.nextKey = some y ∧ y.takenOver = true ∧ y.hdr = q.hdr ∧ y.key = s.packets.nextKey) ∧
        (s.packets.twin = [] → x.packets = s.packets ∧ x.objects = s.objects ∧ x.cage = s.cage ∧ x.pair.takeoverBegun = some 0)) ∧
      (st ≠ .paired → st ≠ .resync ∨ s.pair.isSource = false → exec (.pairLost t) s = .next (s.at t))) ∧
    (s.pair.detectIn = true ∨ (s.binaryDown = false ∧ s.pair.notice = none) → exec (.pairLost t) s = .next (s.at t)) ∧
    (s.binaryDown = true → s.pair.detectIn = true → 2 ≤ s.pair.partitionFrames → st = .paired ∨ (st = .resync ∧ s.pair.isSource = true) →
      ∃ x, exec (.pairPartition t) s = .next x ∧ x.pair.state = (if id.side then .fenced else .solo) ∧ x.objects = s.objects ∧ s.sameFrame x ∧
        (id.side = false → s.sameRuns x) ∧ ((s.packets.live.map (·.1)).Nodup → ∀ k q, s.packet? k = some q → q.inRun = false → x.packet? k = some q)) ∧
    (s.binaryDown = false ∨ s.pair.detectIn = false ∨ s.pair.partitionFrames < 2 → exec (.pairPartition t) s = .next (s.at t)) ∧
    (st = .waiting → s.pair.auth = false → s.pair.waitingSince + 30000000000 ≤ max s.now t → ∃ x, exec (.pairWaitExpiry t) s = .next x ∧
      x.pair.state = (if s.pair.detectIn = true ∧ id.side = true then .fenced else .solo) ∧ s.sameRuns x ∧ apart x) ∧
    (st ≠ .waiting ∨ s.pair.auth = true ∨ max s.now t < s.pair.waitingSince + 30000000000 → exec (.pairWaitExpiry t) s = .next (s.at t))

/-- R404, R406, R426, R443 to R446, R453: what comes over an authenticated binary link is stored, applied and acknowledged: records for the
twin, its events, the sequence numbers that side A gives, its writes and its objects; a resync copies every marked region and listed object
once, and then both are PAIRED with their marks cleared. Without a live link none of it changes anything.
The model's own choices in it: notes/assumptions/11, 54. -/
def Obligations.PairTraffic : Prop :=
  ∀ (s : State) (t key : Nat) (y : Packet),
    let apart := fun (x : State) => s.sameFrame x ∧ x.coherence = s.coherence ∧ x.cores = s.cores ∧ x.const = s.const ∧ x.units = s.units
    (∀ p, s.packet? key = some p → ∃ x, exec (.shiftRecordMirrorAck t key) s = .next x ∧ x.packet? key = some { p with mirrored := true } ∧
      x.objects = s.objects ∧ apart x ∧ ∀ k, k ≠ key → x.packet? k = s.packet? k) ∧
    (s.packet? key = none → exec (.shiftRecordMirrorAck t key) s = .next (s.at t)) ∧
    (s.binaryLive = true → s.packets.twin.length < 16384 → ∃ x, exec (.mirroredShiftRecordReceived t y) s = .next x ∧
      x.packets.live = s.packets.live ∧ apart x ∧ x.objects = s.objects ∧ x.log = s.log ∧ (∀ k, k ≠ y.key → tget? x.packets.twin k = tget? s.packets.twin k) ∧
      (y.phase = .answered → tget? x.packets.twin y.key = none) ∧
      (y.phase ≠ .answered → tget? x.packets.twin y.key = some { y with forTwin := true, mirrored := true, snap := s.twinInputs y })) ∧
    (∀ code tenant seq ns data, s.binaryLive = true → ∃ x, exec (.twinLogRecordReceived t code tenant seq ns data) s = .next x ∧ apart x ∧
      x.log = { s.log with fromTwin := s.log.fromTwin ++ [{ code := code, tenant := tenant, seq := seq, timeNs := ns, data := padTo 22 data }] } ∧
      s.sameRuns x) ∧
    (∀ tag, s.pair.id.side = false → s.mirrors = true → s.binaryLive = true → ∃ x, exec (.pairSequenceRequest t tag) s = .next x ∧
      x.pair = { s.pair with nextSeq := s.pair.nextSeq + 1 } ∧ s.sameRuns x ∧ apart x ∧ ∃ m, x.fabric.sent = s.fabric.sent ++ [m] ∧
        m.typ = MsgType.seqGrant.code ∧ m.body = le 8 s.pair.nextSeq ∧ m.tag = tag) ∧
    (∀ tag, s.pair.id.side = true ∨ s.mirrors = false ∨ s.binaryLive = false → exec (.pairSequenceRequest t tag) s = .next (s.at t)) ∧
    (s.binaryLive = true → s.mirrors = true →
      (∀ seq nsid lba d fua n, tget? s.link.namespaces nsid = some n → ∃ x n', exec (.mirrorWriteReceived t seq (.write nsid lba [some d] fua)) s =
        .next x ∧ apart x ∧ x.packets = s.packets ∧ x.pair.nextSeq = max s.pair.nextSeq (seq + 1) ∧ x.objects = s.objects ∧
        tget? x.link.namespaces nsid = some n' ∧ n'.cut = seq ∧
        (tgetD s.pair.applied (nsid * 2 ^ 48 + lba) 0 ≤ seq → tget? n'.blocks lba = some d) ∧
        (seq < tgetD s.pair.applied (nsid * 2 ^ 48 + lba) 0 → n'.blocks = n.blocks)) ∧
      (∀ seq o old, tget? s.objects.live (o.handle % 2 ^ 48) = some old → ∃ x, exec (.mirrorWriteReceived t seq (.object o)) s = .next x ∧
        tget? x.objects.live (o.handle % 2 ^ 48) = some (o.heldAs old) ∧ x.packets = s.packets ∧ (o.version = old.version → apart x ∧ x.cage = s.cage)) ∧
      (∀ seq h, ∃ x, exec (.mirrorWriteReceived t seq (.remove h)) s = .next x ∧
        (∀ o, tget? s.objects.live (h % 2 ^ 48) = some o →
          (s.readersOf o.handle s.packets.nextKey = [] → tget? x.objects.live (h % 2 ^ 48) = none) ∧
          (s.readersOf o.handle s.packets.nextKey ≠ [] → tget? x.objects.live (h % 2 ^ 48) =
            some { o with dead := true, keepFor := s.readersOf o.handle s.packets.nextKey })) ∧
        (∀ k, k ≠ h % 2 ^ 48 → tget? x.objects.live k = tget? s.objects.live k) ∧ x.packets = s.packets)) ∧
    (∀ item, s.binaryLive = true →
      (item ∈ s.pair.resyncObjects ∨ item ∈ s.pair.toCopy → ∃ x, exec (.resyncRegionCopy t item true) s = .next x ∧ apart x ∧ s.sameRuns x ∧
        item ∉ x.pair.resyncObjects ∧ item ∉ x.pair.toCopy ∧ x.pair.resyncLeft = s.pair.resyncLeft ∧
        ∃ m, x.fabric.sent = s.fabric.sent ++ [m] ∧ m.vc = 3 ∧ m.tag = item) ∧
      (s.pair.state = .resync → s.pair.isSource = true → item ∈ s.pair.resyncLeft → ∃ x, exec (.resyncRegionCopy t item false) s = .next x ∧
        x.pair = { s.pair with resyncLeft := s.pair.resyncLeft.filter (· != item), resyncCopied := s.pair.resyncCopied + 1 } ∧ apart x ∧
        s.sameRuns x ∧ ∃ m, x.fabric.sent = s.fabric.sent ++ [m] ∧ m.vc = 3 ∧ m.typ = MsgType.regionCopy.code) ∧
      (item ∉ s.pair.resyncLeft → exec (.resyncRegionCopy t item false) s = .next (s.at t))) ∧
    (s.pair.state = .resync → s.binaryLive = true → s.pair.isSource = false ∨ (s.pair.resyncLeft = [] ∧ s.pair.resyncObjects = []) →
      ∃ x, exec (.resyncDone t) s = .next x ∧ x.pair.state = .paired ∧ x.pair.dirty = [] ∧ x.pair.changed = [] ∧ x.pair.deleted = [] ∧
        x.pair.solo = false ∧ s.sameRuns x ∧ apart x) ∧
    (s.pair.state ≠ .resync → exec (.resyncDone t) s = .next (s.at t)) ∧
    (s.binaryLive = false → ∀ seq op item o, exec (.mirroredShiftRecordReceived t y) s = .next (s.at t) ∧
      exec (.mirrorWriteReceived t seq op) s = .next (s.at t) ∧ exec (.resyncRegionCopy t item o) s = .next (s.at t) ∧
      exec (.resyncDone t) s = .next (s.at t))

/-- R441, R442, R445, R452 to R458, R461, R465, Tables Pair 4 and Pair 6: on the PF the operations of PAIR CONTROL complete in the states
that permit them and fail with Command Sequence Error in the others, with the pair state, the staged binding, the takeover queue or the mask
that the tables give; a role is set on a module that is not formed, spans are made and deleted on the foreman; and no command of them
changes packets, frames, units or cores.
The model's own choices in it: notes/assumptions/11, 54. -/
def Obligations.PairCommands : Prop :=
  ∀ (s : State) (q : Sqe) (key : List Byte), s.takes q = true → q.fn = 0 →
    let u := s.at q.t
    let st := s.pair.state
    let d11 := q.d11.toNat
    let keeper := d11 % 2 = 0
    let fn := d11 % 65536
    let cq := d11 / 65536
    let c := s.ctrl fn
    let apart := fun (x : State) => s.sameFrame x ∧ x.packets = s.packets ∧ x.coherence = s.coherence ∧ x.cores = s.cores ∧ x.units = s.units
    (q.d10.toNat % 256 ≠ 0 → exec (.pairControlStatus q) s = .next (u.complete q .invalidField)) ∧
    (∃ x, exec (.pairControlStatus q) s = .next x ∧ apart x ∧ x.pair = s.pair ∧ x.const = s.const ∧ x.link.namespaces = s.link.namespaces) ∧
    (s.pair.auth = false → s.pair.has = true → exec (.bindStage q key) s = .next (u.complete q .commandSequence)) ∧
    (s.pair.auth = true ∨ s.pair.has = false → s.almanac.exhausted 3 = false → ∃ x b, exec (.bindStage q key) s = .next x ∧
      x.almanac = { s.almanac with staged := some b } ∧ b.record = 3 ∧ b.firmware = true ∧ 0 < b.code ∧ x.pair = s.pair ∧
      b.data = padTo 64 (pairRecord (leAt q.data 0 8) (bitAt (leAt q.data 8 1) 0) key) ∧ apart x) ∧
    (∀ b, s.almanac.staged = some b → b.firmware = true → b.record = 3 → b.code = d11 → s.almanac.exhausted 3 = false →
      (∀ g, g < 4 → ((s.almanac.gen 3 g).used = true ↔ g < s.almanac.usedCount 3)) → s.almanac.usedCount 3 < 4 →
      ∃ x, exec (.bindCommit q none) s = .next x ∧ x.almanac.staged = none ∧ x.almanac.record 3 = padTo 64 b.data ∧ x.pair.id = x.almanac.pairId ∧
        x.pair.fresh = true ∧ x.pair.state = (if x.pair.id.pairId = 0 then .unpaired else .waiting) ∧ apart x) ∧
    (s.almanac.staged = none → ∀ bad, exec (.bindCommit q bad) s = .next (u.complete q .commandSequence)) ∧
    (d11 ≠ 0x5A5A0C7F → ∀ bad, exec (.unbind q bad) s = .next (u.complete q .invalidField)) ∧
    (d11 = 0x5A5A0C7F → (st = .paired → ∀ bad, exec (.unbind q bad) s = .next (u.complete q .commandSequence)) ∧
      (st ≠ .paired → s.almanac.exhausted 3 = false → ∃ x, exec (.unbind q none) s = .next x ∧ x.pair.state = .unpaired ∧
        x.pair.auth = false ∧ apart x)) ∧
    ((st = .fenced ∨ st = .waiting ∨ (st = .resync ∧ s.pair.isSource = false ∧ keeper ∧ s.binaryDown = true) ∨ (st = .paired ∧ s.packets.twin = [] ∧ ∀ e ∈ s.packets.live, e.2.mirrored = true → e.2.phase = .answered) →
        ∃ x, exec (.split q) s = .next x ∧ (keeper → x.pair.state = .solo ∧ x.pair.twinSplit = true) ∧
          (¬ keeper → x.pair.state = .split ∧ x.pair.twinSplit = false) ∧ apart x) ∧
      (st = .paired → s.packets.twin ≠ [] → exec (.split q) s = .next u) ∧
      (st ≠ .paired → st ≠ .fenced → st ≠ .waiting → st ≠ .resync ∨ s.pair.isSource = true ∨ ¬ keeper → exec (.split q) s = .next (u.complete q .commandSequence)) ∧
      (st = .split → s.pair.auth = false → ∃ x, exec (.rejoin q) s = .next x ∧ x.pair.state = .waiting ∧ apart x) ∧
      (st = .conflict → keeper → ∃ x, exec (.rejoin q) s = .next x ∧ x.pair.state = .resync ∧ x.pair.isSource = true ∧ apart x ∧
        (∀ k, k ∈ s.pair.dirty ∨ k ∈ s.pair.twinDirty → k ∈ x.pair.resyncLeft)) ∧
      (st = .conflict → ¬ keeper → ∃ x, exec (.rejoin q) s = .next x ∧ x.pair.state = .resync ∧ x.pair.isSource = false ∧ apart x) ∧
      (st ≠ .split → st ≠ .conflict → exec (.rejoin q) s = .next (u.complete q .commandSequence))) ∧
    ((63 < fn → exec (.takeoverCq q) s = .next (u.complete q .invalidField)) ∧
      (fn ≤ 63 → cq = 0 → exec (.takeoverCq q) s = .next ((u.setCtrl fn { c with takeoverCq := none }).complete q .success)) ∧
      (fn ≤ 63 → cq ≠ 0 → tget? c.cqs cq = none ∨ (∃ e ∈ c.sqs, e.2.cqid = cq) →
        exec (.takeoverCq q) s = .next (u.complete q .invalidField)) ∧
      (fn ≤ 63 → cq ≠ 0 → (tget? c.cqs cq).isSome = true → (∀ e ∈ c.sqs, e.2.cqid ≠ cq) →
        exec (.takeoverCq q) s = .next ((u.setCtrl fn { c with takeoverCq := some cq }).complete q .success))) ∧
    (st ≠ .paired → exec (.mirrorMask q) s = .next (u.complete q .commandSequence)) ∧
    (st = .paired → ∃ x, exec (.mirrorMask q) s = .next x ∧ x.pair.mask = BitVec.ofNat 64 (leAt q.data 0 8) ∧ x.objects = s.objects ∧ apart x ∧
      (∀ e ∈ s.objects.live, x.pair.mask.getLsbD (handleTenant e.2.handle) = true → s.pair.mask.getLsbD (handleTenant e.2.handle) = false →
        e.1 ∈ x.pair.toCopy)) ∧
    (s.const.formed = true → exec (.role q) s = .next (u.complete q .commandSequence)) ∧
    (s.const.formed = false → 2 < d11 % 4 ∨ 63 < d11 / 65536 % 256 → exec (.role q) s = .next (u.complete q .invalidField)) ∧
    (s.const.formed = false → d11 % 4 ≤ 2 → d11 / 65536 % 256 ≤ 63 → ∃ x, exec (.role q) s = .next x ∧ apart x ∧ x.pair = s.pair ∧
      x.const.role = (if d11 % 4 = 1 then .foreman else if d11 % 4 = 2 then .hewer else .none) ∧ x.const.savedRole = x.const.role ∧
      x.const.id = d11 / 256 % 256 ∧ x.const.member = d11 / 65536 % 256 ∧ x.const.savedId = x.const.id ∧ x.const.savedMember = x.const.member) ∧
    (s.const.role ≠ .foreman → exec (.spanSet q) s = .next (u.complete q .commandSequence) ∧
      exec (.spanClear q) s = .next (u.complete q .commandSequence)) ∧
    (s.const.role = .foreman →
      (∃ x, exec (.spanClear q) s = .next x ∧ tget? x.const.spans (q.d11.toNat + q.d12.toNat * 2 ^ 32) = none ∧ apart x ∧ x.pair = s.pair) ∧
      (leAt q.data 9 1 = 0 ∨ 64 < leAt q.data 9 1 → exec (.spanSet q) s = .next (u.complete q .invalidField)) ∧
      (∀ o, 0 < leAt q.data 9 1 → leAt q.data 9 1 ≤ 64 → tget? s.objects.live (leAt q.data 0 8 % 2 ^ 48) = some o →
        o.handle = leAt q.data 0 8 → handleTenant o.handle = leAt q.data 8 1 % 64 → o.dead = false → s.const.spans.length < 1024 →
        (∀ h ∈ spanShards q.data, h.pref ∈ s.const.members ∧ (h.alt = 0xFF ∨ h.alt ∈ s.const.members)) →
        ∃ x, exec (.spanSet q) s = .next x ∧ apart x ∧ x.pair = s.pair ∧ tget? x.const.spans (leAt q.data 0 8) =
          some { key := leAt q.data 0 8, tenant := leAt q.data 8 1 % 64, shards := spanShards q.data }))

/-- R119, R122, R139 to R141, R406, R532, R534: an enabled controller has the queues that its host creates and fetches once stage 7 is past; a
reset of any kind ends every packet of its functions that is not answered, retires its record and leaves the queues gone; the firmware
flash goes back after one of the PF; the VFs that SR-IOV no longer counts are out of reach.
The model's own choices in it: notes/assumptions/50. -/
def Obligations.ControllerResets : Prop :=
  ∀ (s : State) (t fn : Nat), s.power.off = false →
    let mine := fun (p : Packet) => p.takenOver = false ∧ p.sub = false ∧ p.open_ = true
    let ended := fun (x : State) (fns : Nat → Prop) => (∀ k p, s.packet? k = some p → mine p → fns p.fn → x.packet? k = none) ∧
      ((s.packets.live.map (·.1)).Nodup → (∀ e ∈ s.packets.live, e.2.overdue s.meridian.frame = false) →
        ∀ k p, s.packet? k = some p → p.open_ = true → ¬ fns p.fn → x.packet? k = some p)
    let apart := fun (x : State) => x.meridian.frame = s.meridian.frame ∧ x.orrery = s.orrery ∧ x.cores = s.cores ∧ x.coherence = s.coherence ∧
      x.saved = s.saved ∧ x.link.namespaces = s.link.namespaces ∧ x.almanac = s.almanac
    (∀ mps queues depths, s.power.lossDeclared = none → s.link.up = true → fn = 0 ∨ fn ∈ s.link.vfEnabled → (s.ctrl fn).enabled = false → mps ≤ 4 →
      ∃ x, exec (.controllerEnable t fn mps queues depths) s = .next x ∧ apart x ∧ x.packets = s.packets ∧ (x.ctrl fn).enabled = true ∧
        (x.ctrl fn).pageBits = 12 + mps ∧ (x.ctrl fn).ready = (s.done .ready && !s.global.mfault) ∧ (∀ k, k ≠ fn → x.ctrl k = s.ctrl k) ∧
        (queues = [] → (x.ctrl fn).sqs = [(0, {})]) ∧ (∀ a b, queues = [(a, b)] → 0 < a → (x.ctrl fn).cqOf a = b) ∧
        (s.done .ready = true → s.global.mfault = false → s.startup.noSlot = false → s.power.lantern = .none → x.fetches fn = true)) ∧
    (∀ mps queues depths, s.link.up = false ∨ (fn ≠ 0 ∧ fn ∉ s.link.vfEnabled) ∨ (s.ctrl fn).enabled = true ∨ 4 < mps →
      exec (.controllerEnable t fn mps queues depths) s = .next (s.at t)) ∧
    ((s.ctrl fn).enabled = true → ∃ x, exec (.controllerLevelReset t fn) s = .next x ∧ ended x (· = fn) ∧ apart x ∧
      (x.ctrl fn).enabled = false ∧ (x.ctrl fn).sqs = ({} : Controller).sqs ∧ (x.ctrl fn).cfs = s.global.mfault ∧ x.fetches fn = false ∧
      (∀ a ∈ x.packets.aborts, a.fn ≠ fn) ∧ (fn = 0 → s.flash.hostOwns = true → x.flash.resetAsked = true)) ∧
    ((s.ctrl fn).enabled = false → exec (.controllerLevelReset t fn) s = .next (s.at t)) ∧
    (fn ∈ s.link.vfEnabled → fn ≠ 0 → ∃ x, exec (.functionLevelReset t fn) s = .next x ∧ ended x (· = fn) ∧ apart x ∧ x.fetches fn = false ∧
      x.link.vfEnabled = s.link.vfEnabled ∧ x.flash = s.flash) ∧
    (∃ x, exec (.functionLevelReset t 0) s = .next x ∧ ended x (fun f => f = 0 ∨ f ∈ s.link.vfEnabled) ∧ apart x ∧ x.link.vfEnabled = [] ∧
      (∀ f, f = 0 ∨ f ∈ s.link.vfEnabled → x.fetches f = false) ∧ tget? x.manage.sessions 0 = none) ∧
    (fn ≠ 0 → fn ∉ s.link.vfEnabled → exec (.functionLevelReset t fn) s = .next (s.at t)) ∧
    (s.link.up = true → ∃ x, exec (.surpriseLinkDown t) s = .next x ∧ ended x (fun f => f = 0 ∨ f ∈ s.link.vfEnabled) ∧ apart x ∧
      x.link.up = false ∧ x.link.ideSecure = false ∧ x.link.vfEnabled = [] ∧
      (s.powered 4 = true → s.lodestar.ptm.signal = true → x.lodestar.ptm.signal = false)) ∧
    (s.link.up = false → exec (.surpriseLinkDown t) s = .next (s.at t)) ∧
    (∀ n, n ≤ 63 → s.link.up = true → ∃ x, exec (.vfEnable t n) s = .next x ∧ ended x (fun f => f ∈ s.link.vfEnabled ∧ n < f) ∧ apart x ∧
      (∀ f, f ∈ x.link.vfEnabled ↔ 0 < f ∧ f ≤ n) ∧ (∀ f, n < f → f ≠ 0 → x.fetches f = false)) ∧
    (∀ n, 63 < n ∨ s.link.up = false → exec (.vfEnable t n) s = .next (s.at t))

/-- R141, R517, R518, R550: a shutdown stops the fetching of what it reaches, and SHST reads 10b once every packet is answered and the data
durable, at once after an abrupt one; a cold module reset starts the module again from what Table Unit 6 lets survive, with frame numbers
and powered time from zero, after a checkpoint unless it follows a module fault.
R117, R599: data that comes poisoned fails its command with Data Transfer Error; a failed integrity check leaves the stream Insecure and
ends the packets whose TLPs are dropped; IDE_KM programs key slots, starts a stream on a whole key set, and stops it.
The model's own choices in it: notes/assumptions/50, 52. -/
def Obligations.ShutdownsAndLinkIntegrity : Prop :=
  (∀ (s : State) (t fn : Nat), s.power.off = false →
    let apart := fun (x : State) => s.sameFrame x ∧ x.objects.live.length = s.objects.live.length ∧ x.cores = s.cores ∧ x.saved = s.saved ∧
      x.almanac = s.almanac
    let again := fun (x : State) => x.now = 0 ∧ x.meridian = { bootCount := s.saved.bootCount, period := s.saved.period } ∧ x.packets.live = [] ∧
      x.packets.twin = [] ∧ x.cores = [] ∧ x.link.controllers = [] ∧ x.link.namespaces.map (·.1) = s.link.namespaces.map (·.1) ∧ x.saved = s.saved ∧
      x.almanac.gens = s.almanac.gens ∧ x.orrery.classes = s.saved.classes ∧ x.units = ({} : Units) ∧ x.startup.ended = [] ∧
      x.global.mfault = false ∧ x.global.serial = s.global.serial ∧ x.power.off = false ∧ x.pending = s.pending
    ((s.ctrl fn).enabled = true → (s.ctrl fn).shst ≠ 2 → s.global.mfault = false →
      (s.shutWaits fn = true → ∃ x, exec (.normalShutdown t fn) s = .next x ∧ fn ∈ x.startup.shutdowns ∧ x.packets = s.packets ∧ apart x ∧
        (s.startup.shutdowns.contains fn = false → (x.ctrl fn).shst = 1 ∧ x.fetches fn = false)) ∧
      (s.shutWaits fn = false → ∃ x, exec (.normalShutdown t fn) s = .next x ∧ (x.ctrl fn).shst = 2 ∧ x.fetches fn = false ∧
        fn ∉ x.startup.shutdowns ∧ x.packets = s.packets ∧ apart x ∧ (fn = 0 → x.startup.shutdownDone = true ∧ x.startup.shutdowns = [] ∧
          x.media.buffer = [] ∧ x.tally.persisted = s.tally.parts)) ∧
      (∃ x, exec (.abruptShutdown t fn) s = .next x ∧ (x.ctrl fn).shst = 2 ∧ x.fetches fn = false ∧ x.orrery = s.orrery ∧
        x.meridian.frame = s.meridian.frame ∧ x.cores = s.cores ∧
        ∀ k p, s.packet? k = some p → p.fn = fn → p.takenOver = false → p.sub = false → p.open_ = true → x.packet? k = none)) ∧
    ((s.ctrl fn).enabled = false ∨ s.global.mfault = true → exec (.normalShutdown t fn) s = .next (s.at t) ∧
      exec (.abruptShutdown t fn) s = .next (s.at t)) ∧
    (∀ q, s.takes q = true → q.fn = 0 →
      (q.d11.toNat = 0x5A5A0C9D → ∃ x, exec (.coldReset q) s = .next x ∧ again x ∧ x.startup.clean = true) ∧
      (q.d11.toNat ≠ 0x5A5A0C9D → exec (.coldReset q) s = .next ((s.at q.t).complete q .invalidField))) ∧
    (∀ f, s.power.lossDeclared = none → s.done .d0 = true → s.power.lantern = .none →
      ∃ x, exec (.nvmSubsystemReset t f) s = .next x ∧ again x ∧ (s.global.mfault = false → x.startup.clean = true) ∧
        (s.global.mfault = true → x.startup.clean = (f.complete && f.delta))) ∧
    (∀ f, s.power.lossDeclared.isSome = true ∨ s.done .d0 = false ∨ s.power.lantern = .asleep ∨ s.power.lantern = .waking →
      exec (.nvmSubsystemReset t f) s = .next (s.at t))) ∧
  (∀ (s : State) (t arg : Nat),
    (∀ q, s.fetches q.fn = true → exec (.poisonedTlpReceived q) s = .next ((s.at q.t).complete q .dataTransfer)) ∧
    (∀ dropped, s.link.ideSecure = true → ∃ x, exec (.ideFailure t dropped) s = .next x ∧ x.link.ideSecure = false ∧ x.link.ideKeys = [] ∧
      s.sameFrame x ∧ x.cores = s.cores ∧ (∀ k ∈ dropped, ∀ p, s.packet? k = some p → p.open_ = true → p.takenOver = false → p.sub = false →
        x.packet? k = none) ∧ (∀ k p, k ∉ dropped → s.packet? k = some p → ∃ p', x.packet? k = some p' ∧ p'.phase = p.phase)) ∧
    (∀ dropped, s.link.ideSecure = false → exec (.ideFailure t dropped) s = .next (s.at t)) ∧
    (s.power.off = false → s.link.up = true → tgetD s.manage.sessions 0 0 ≠ 0 →
      let l := s.link
      (arg < 12 → ∃ x, exec (.ideKm t 2 arg) s = .next x ∧ (∀ k, k ∈ x.link.ideKeys ↔ k = arg ∨ k ∈ l.ideKeys) ∧ x.link.ideSecure = l.ideSecure ∧
        s.sameRuns x ∧ s.sameFrame x) ∧
      (arg < 2 → (∀ k ∈ ideSlots arg, k ∈ l.ideKeys) → ∃ x, exec (.ideKm t 4 arg) s = .next x ∧ x.link = { l with ideSecure := true } ∧
        s.sameRuns x ∧ s.sameFrame x) ∧
      (arg < 2 → (∃ k ∈ ideSlots arg, k ∉ l.ideKeys) → exec (.ideKm t 4 arg) s = .next (s.at t)) ∧
      (arg < 2 → ∃ x, exec (.ideKm t 5 arg) s = .next x ∧ x.link.ideSecure = false ∧ (∀ k ∈ ideSlots arg, k ∉ x.link.ideKeys) ∧
        s.sameRuns x ∧ s.sameFrame x)) ∧
    (∀ msg, s.link.up = false ∨ tgetD s.manage.sessions 0 0 = 0 → exec (.ideKm t msg arg) s = .next (s.at t)))

/-- R134, R136, R137, R361, R584: a memory range set of at most 32 valid ranges is created under an unused identifier, changed and deleted;
Memory Read sends every byte of a valid place, a unit that nothing has written as zeros, and completes with Unrecovered Read Error when a
unit is uncorrectable; it waits for lodes in Tier F.
R137, R335, R339, R362, R363: a Memory Write of whole units to an object that nothing holds back commits it before its completion: the
units it covers hold its data, every other byte of the object is as before, and no other object changes. Where the media takes no writes it
fails, and where a packet changes or deletes the object it is out of sequence.
The model's own choices in it: notes/assumptions/19, 51, 67. -/
def Obligations.MemoryNamespaces : Prop :=
  (∀ (s : State) (q : Sqe) (set handle off len id : Nat) (ranges : List MemRange), s.takes q = true →
    let u := s.at q.t
    let c := s.computeOf q.fn
    let put := fun (k : Nat) => u.setCompute q.fn { c with rangeSets := tset c.rangeSets k ranges }
    let ok := ranges.length ≤ 32 ∧ ∀ r ∈ ranges, s.rangeOk q.fn r = true
    let r : MemRange := { handle := handle, offset := off, length := len }
    (ok → c.rangeSets.length < 16 → exec (.memoryRangeSetManagement q 0 id ranges) s = .next ((put c.freeSet).complete q .success c.freeSet) ∧
      0 < c.freeSet ∧ tget? c.rangeSets c.freeSet = none) ∧
    (¬ ok ∨ 16 ≤ c.rangeSets.length → exec (.memoryRangeSetManagement q 0 id ranges) s = .next (u.complete q .invalidField)) ∧
    ((tget? c.rangeSets id).isSome = true →
      (ok → exec (.memoryRangeSetManagement q 1 id ranges) s = .next ((put id).complete q .success)) ∧
      exec (.memoryRangeSetManagement q 2 id ranges) s =
        .next ((u.setCompute q.fn { c with rangeSets := terase c.rangeSets id }).complete q .success)) ∧
    ((tget? c.rangeSets id).isSome = false → ∀ op, 0 < op →
      exec (.memoryRangeSetManagement q op id ranges) s = .next (u.complete q .invalidField)) ∧
    (s.placeOk q.fn set r = false → exec (.memoryRead q set handle off len) s = .next (u.complete q .invalidField)) ∧
    (s.placeOk q.fn set r = true → handle = ringHandle →
      exec (.memoryRead q set handle off len) s = .next ((u.toHost q (s.ringBytes off len)).complete q .success)) ∧
    (∀ o, s.placeOk q.fn set r = true → handle ≠ ringHandle → s.objects.named handle = some o →
      (s.cage.allResident (o.wlodes off len) = false → exec (.memoryRead q set handle off len) s = .next (u.wantLodes o off len)) ∧
      (s.cage.allResident (o.wlodes off len) = true →
        let y := (u.wantLodes o off len).snoopObject o off len
        let sent := y.toHost q (o.travel y.cage off len)
        (y.badUnits o off len = [] → exec (.memoryRead q set handle off len) s = .next (sent.complete q .success)) ∧
        (y.badUnits o off len ≠ [] → ∃ (z : State), exec (.memoryRead q set handle off len) s = .next (z.complete q .unrecoveredRead) ∧
          z.link.mem = sent.link.mem ∧ z.link.poisonedSent.length = s.link.poisonedSent.length + (y.badUnits o off len).length ∧
          z.objects = s.objects ∧ z.packets = s.packets ∧ z.cores = s.cores) ∧
        (o.body = .buffer → o.zeroed = false → ∀ i, i < len → (off + i) / 64 ∉ o.units →
          (o.travel y.cage off len)[i]? = some 0 ∧ (off % 64 = 0 → len % 64 = 0 → (off + i) / 64 ∈ y.badUnits o off len))))) ∧
  (∀ (s : State) (q : Sqe) (set handle off : Nat) (swaps : List (Nat × Nat)) (placed : List (Nat × Nat × Nat)) (ack : Bool) (o : Object),
    s.takes q = true → s.objects.named handle = some o → handle ≠ ringHandle → o.frozen = false →
    s.placeOk q.fn set { handle := handle, offset := off, length := q.data.length } = true →
    let u := s.at q.t
    let n := q.data.length
    let cmd := exec (.memoryWrite q set handle off swaps placed ack) s
    (o.changingBy.isSome = true ∨ o.deletingBy.isSome = true → cmd = .next (u.complete q .commandSequence)) ∧
    (o.changingBy = none → o.deletingBy = none →
      (s.media.wp = true → cmd = .next ((u.setWriting (objNumber handle) false).complete q .writeProtected)) ∧
      (s.media.wp = false → s.cage.allResident (o.wlodes off n) = false →
        cmd = .next ((u.wantLodes o off n).setWriting (objNumber handle) true)) ∧
      (s.media.wp = false → s.cage.allResident (o.wlodes off n) = true → u.mirrorReady handle ack = true → cellsWf o.bytes = true →
        ∃ (y : State) (p : Object), cmd = .next (y.complete q .success) ∧ tget? y.objects.live (objNumber handle) = some p ∧
          p.version = o.version + 1 ∧ p.handle = o.handle ∧ p.size = o.size ∧ objNumber handle ∉ y.objects.writing ∧ cellsWf p.bytes = true ∧
          (∀ a, cget p.bytes a = if off ≤ a ∧ a < off + n then q.data.getD (a - off) 0 else cget o.bytes a) ∧
          (∀ i, i < n / 64 → off / 64 + i ∈ p.units) ∧ (∀ k ∈ o.units, k ∈ p.units) ∧
          (∀ k, k ≠ objNumber handle → tget? y.objects.live k = tget? s.objects.live k) ∧
          y.packets = s.packets ∧ y.cores = s.cores ∧ s.sameFrame y ∧ s.sameBoard y ∧ y.link = s.link ∧ y.media = s.media)))

/-- R134, R135, R286: a program of a slot is loaded as a new object, activated, run and unloaded. A load that meets a running program of
the slot waits; a slot that does not exist or holds nothing fails. EXECUTE PROGRAM of an active slot becomes a best-effort RUN PROGRAM
packet on the slot's object.
The model's own choices in it: notes/assumptions/51. -/
def Obligations.ProgramSlots : Prop :=
  ∀ (s : State) (q : Sqe) (slot : Nat) (swaps : List (Nat × Nat)) (placed : List (Nat × Nat × Nat)) (ack : Bool), s.takes q = true →
    let u := s.at q.t
    let c := s.computeOf q.fn
    let load := fun (vendor unload : Bool) => exec (.loadProgram q slot vendor unload swaps placed ack) s
    (63 < slot → ∀ v n, load v n = .next (u.complete q .invalidField)) ∧
    (slot ≤ 63 → load false false = .next (u.complete q .invalidField)) ∧
    (tget? c.slots slot = none → slot ≤ 63 →
      load true true = .next (u.complete q .invalidField) ∧
      (∀ b, exec (.programActivationManagement q slot b) s = .next (u.complete q .invalidField)) ∧
      (∀ set e k i o, exec (.executeProgram q slot set e k i o) s = .next (u.complete q .invalidField)) ∧
      (∀ o, q.data.length ≤ 1572864 → programOk q.data q.data.length = true → u.programObject q.fn q.data = some o → o.cls ≠ .pinnedH →
        u.mirrorReady o.handle ack = true → tget? s.objects.live (objNumber o.handle) = none →
        ∃ (y : State) (p : Object), load true false = .next (y.complete q .success) ∧
          y.link = { s.link with compute := tset s.link.compute q.fn { c with slots := tset c.slots slot { handle := o.handle } } } ∧
          tget? y.objects.live (objNumber o.handle) = some p ∧ p.handle = o.handle ∧ p.body = .program ∧
          (∀ i, i < q.data.length → cget p.bytes i = q.data.getD i 0) ∧
          (∀ k, k ≠ objNumber o.handle → tget? y.objects.live k = tget? s.objects.live k) ∧
          y.packets = s.packets ∧ y.cores = s.cores ∧ s.sameFrame y ∧ s.sameBoard y)) ∧
    (∀ x, tget? c.slots slot = some x → slot ≤ 63 →
      let runs := s.programRuns q.fn x.handle
      (runs = true → load true true = .next u ∧ exec (.programActivationManagement q slot false) s = .next u) ∧
      (runs = false → load true true = .next ((u.setCompute q.fn { c with slots := terase c.slots slot }).complete q .success) ∧
        exec (.programActivationManagement q slot false) s =
          .next ((u.setCompute q.fn { c with slots := tset c.slots slot { x with active := false } }).complete q .success)) ∧
      exec (.programActivationManagement q slot true) s =
        .next ((u.setCompute q.fn { c with slots := tset c.slots slot { x with active := true } }).complete q .success) ∧
      (x.active = false → ∀ set e k i o, exec (.executeProgram q slot set e k i o) s = .next (u.complete q .invalidField)) ∧
      (x.active = true → q.data.length ≤ 192 → ∀ (set entry cores : Nat) (d : List Byte),
        let block := le 2 entry ++ le 2 cores ++ le 4 q.data.length ++ le 8 0 ++ le 8 0 ++ le 8 0 ++ q.data
        let h : Header := { opcode := 0x0601, version := 1, packetId := u.spareId q.fn, paramAddr := 4096, paramLen := block.length, answerLen := 0, primary := x.handle, secondary := 0 }
        u.validate q.fn h [] (some block) 4096 = .ok d →
        ∃ y p, exec (.executeProgram q slot set entry cores none none) s = .next y ∧ y.packet? s.packets.nextKey = some p ∧
          p.viaExecute = true ∧ p.hdr = h ∧ p.param = d ∧ p.fn = q.fn ∧ p.sqid = q.sqid ∧ p.cid = q.cid ∧ p.contracted = false ∧
          (∀ k, k ≠ s.packets.nextKey → y.packet? k = s.packet? k) ∧ y.link = s.link ∧ y.cores = s.cores ∧ s.sameFrame y))

/-- R322, R324, R327, R329, R331 to R334, R341: what the Cage does to one lode. A missed lode of a PAGED object within its quota enters its
chain in transit; at the end of the fill it is resident with the marks of its Tier F copy; a dirty lode is scrubbed; a hold ends after its
last frame; an accepted quota takes effect at the tick after it; and a clean lode with an uncorrectable error leaves the map.
The model's own choices in it: notes/assumptions/9, 65. -/
def Obligations.CageChanges : Prop :=
  ∀ (s : State) (t w h n a : Nat),
    let c := s.cage
    let e := c.entry h
    let apart := fun (x : State) => x.packets = s.packets ∧ s.sameFrame x ∧ x.units = s.units ∧ x.media = s.media ∧ x.cores = s.cores
    let others := fun (x : State) => ∀ k, k ≠ h → x.cage.entry k = c.entry k
    (∀ o, c.prepared = true → h < tierHLodes → c.isCheck h = false → c.find w = none → s.objectAt w = some o → fillState o w e.state = true →
      o.lodeClass w = .paged → s.charge (handleTenant o.handle) < s.quota (handleTenant o.handle) →
      ∃ x, exec (.pageIn t w h none false) s = .next x ∧ apart x ∧ others x ∧ x.objects = s.objects ∧ x.coherence = s.coherence ∧
        w ∈ x.cage.wanted ∧ x.cage.find w = some h ∧
        x.cage.entry h = { wlode := w, state := .transit, cls := .paged, tenant := handleTenant o.handle, missNs := max s.now t, pageKind := 3 }) ∧
    (c.find w = some h → e.state = .transit →
      (∀ o, s.objectAt w = some o → ∃ x, exec (.pageInComplete t w) s = .next x ∧ apart x ∧ others x ∧ x.objects = s.objects ∧
        w ∉ x.cage.wanted ∧ x.cage.entry h = { e with state := .resident, poison := (o.lodeMarks w).foldl (fun m x => tset m x.1 x.2) e.poison } ∧
        ∀ k, e.clock = some k → (tgetD x.cage.clocks k {}).lodes = (tgetD c.clocks k {}).lodes ++ [h]) ∧
      (s.objectAt w = none → ∃ x, exec (.pageInComplete t w) s = .next x ∧ apart x ∧ others x ∧ x.objects = s.objects ∧ x.cage.entry h = {})) ∧
    (∀ zero, c.prepared = true → h < tierHLodes → e.state = .dirty → (∀ r ∈ c.retained, r.1 ≠ h) →
      ∃ x, exec (.scrubLode t h zero) s = .next x ∧ apart x ∧ others x ∧ x.objects = s.objects ∧ x.coherence = s.coherence ∧
        x.cage.entry h = { state := if zero then .zeroed else .scrubbed, dirty := false }) ∧
    (∀ f, c.find w = some h → e.hold = some f →
      (f < s.meridian.frame → ∃ x, exec (.holdEnd t w) s = .next x ∧ apart x ∧ others x ∧ x.objects = s.objects ∧
        x.cage.entry h = { e with hold := none }) ∧
      (s.meridian.frame ≤ f → exec (.holdEnd t w) s = .next (s.at t))) ∧
    (∀ v f, tget? c.quotaPending n = some (v, f) →
      (f < s.meridian.frame → ∃ x, exec (.quotaEffect t n) s = .next x ∧ apart x ∧ x.quota n = v ∧ tget? x.cage.quotaPending n = none ∧
        (∀ m, m ≠ n → x.quota m = s.quota m) ∧ x.link = s.link) ∧
      (s.meridian.frame ≤ f → exec (.quotaEffect t n) s = .next (s.at t))) ∧
    (h = a / lodeBytes → h < tierHLodes →
      (e.state = .resident → e.dirty = false → ∃ x, exec (.heccUncorrectable t a true none) s = .next x ∧ apart x ∧ others x ∧
        x.objects = s.objects ∧ x.cage.ueCnt = satAdd 32 c.ueCnt 1 ∧ x.cage.entry h = {} ∧ (e.reservedClass = true → e.wlode ∈ x.cage.wanted)) ∧
      (e.state ≠ .resident → e.state ≠ .transit → s.jobOfLode h = none → ∃ x, exec (.heccUncorrectable t a true none) s = .next x ∧ apart x ∧
        others x ∧ x.objects = s.objects ∧ x.cage.ueCnt = satAdd 32 c.ueCnt 1 ∧ a / 64 ∈ x.coherence.hPoison))

/-- R313, R346, R347, R350, R354: a steward's load of a place it may reach completes with that many bytes, and, of a line that no cache
holds, with the bytes of its tier; a store waits in program order; FENCE.SL makes every earlier store visible, a line stored to being
Modified in its own L1 alone. No command reaches an address outside the map, or Tier S or the Tier F window, through a steward: these
accesses fault (the fault is the model's, notes/assumptions/60.md).
The model's own choices in it: notes/assumptions/8. -/
def Obligations.Stewards : Prop :=
  ∀ (s : State) (t core addr n : Nat) (bytes : List Byte),
    let apart := fun (x : State) => x.objects = s.objects ∧ x.packets = s.packets ∧ s.sameFrame x ∧ x.units = s.units ∧ x.cores = s.cores ∧
      x.link = s.link
    let alone := s.coherence.copy? (addr / 64) = none ∧ s.coherence.lines.length < l2Lines ∧ 0 < n ∧ addr % 64 + n ≤ 64
    let idle := ∀ m, m < 16 → (s.steward m).stores = []
    (tierOf addr = none → exec (.stewardLoad t core addr n) s = .fault (.noSuchAddress addr) ∧
      exec (.stewardStore t core addr bytes) s = .fault (.noSuchAddress addr)) ∧
    (tierOf addr = some .s ∨ tierOf addr = some .f → exec (.stewardLoad t core addr n) s = .fault (.notReached addr) ∧
      exec (.stewardStore t core addr bytes) s = .fault (.notReached addr)) ∧
    (tierOf addr = some .h ∨ tierOf addr = some .c ∨ tierOf addr = some .regs →
      (∃ x, exec (.stewardLoad t core addr n) s = .next x ∧ (x.steward core).loaded.length = n ∧ apart x) ∧
      (∃ x, exec (.stewardStore t core addr bytes) s = .next x ∧ apart x ∧
        (x.steward core).stores.getLast? = some { addr := addr, bytes := bytes } ∧ (x.steward core).loaded = (s.steward core).loaded)) ∧
    (tierOf addr = some .h ∨ tierOf addr = some .c → idle → (s.steward core).stores = [] → alone → ∃ x, exec (.stewardLoad t core addr n) s = .next x ∧
      (x.steward core).loaded = (List.range n).map (fun i => s.tierByte (addr + i)) ∧ (∀ m, m ≠ core → x.steward m = s.steward m) ∧
      ∃ l, x.coherence.copy? (addr / 64) = some l ∧ l.state = .shared ∧ l.sharers = sharerBit core) ∧
    (∃ x, exec (.fenceSl t core) s = .next x ∧ apart x ∧ (x.steward core).stores = [] ∧ (x.steward core).loaded = (s.steward core).loaded ∧
      (∀ m, m ≠ core → x.steward m = s.steward m) ∧
      ((tierOf addr = some .h ∨ tierOf addr = some .c) → alone → bytes.length = n → (s.steward core).stores = [{ addr := addr, bytes := bytes }] →
        ∃ l, x.coherence.copy? (addr / 64) = some l ∧ l.state = .modified ∧ l.sharers = sharerBit core ∧
          ∀ i, i < 64 → l.data.getD i 0 = if addr % 64 ≤ i ∧ i < addr % 64 + n then bytes.getD (i - addr % 64) 0
            else s.tierByte (64 * (addr / 64) + i)))

/-- R373 to R379, R381, R383, R391, R392: an operation starts only on a die that runs none and has no frame-critical slot pending, and a
program of data only on a quad that a checkpoint lists; frame-critical slots suspend it as one suspension up to its limit, and it resumes
when none is pending; its end counts the erase or the pages, and a failed plane uses a spare or withdraws the quad. A read counts for its
quad, and a sector that stays uncorrectable is lost to its namespace.
The model's own choices in it: notes/assumptions/58. -/
def Obligations.DieOperations : Prop :=
  ∀ (s : State) (t c i b p : Nat),
    let now := max s.now t
    let d := s.media.drift c
    let x := d.die i
    let die := fun (y : State) => (y.media.drift c).die i
    let quad := fun (y : State) => (y.media.drift c).quad i b
    let recent := x.slotTimes.filter (fun z => decide (now < z + 64000000))
    let apart := fun (y : State) => s.sameRuns y ∧ s.sameFrame y ∧ y.units = s.units ∧ s.samePeers y ∧ (∀ k, k ≠ c → y.media.drift k = s.media.drift k) ∧
      ∀ j, j ≠ i → (y.media.drift c).die j = d.die j
    let kept := fun (y : State) => y.link.namespaces = s.link.namespaces ∧ y.media.buffer = s.media.buffer ∧ y.media.seqNo = s.media.seqNo
    (x.op.isSome = true ∨ x.critical ≠ 0 ∨ 256 < recent.length → ∀ e u, exec (.nandOperationStart t c i b e u p) s = .next (s.at t)) ∧
    (c < 64 → i < 16 → x.op = none → x.critical = 0 → recent.length ≤ 256 →
      let began := { x with op := some .erase, endNs := p, suspensions := 0, suspended := false, limited := false, slotTimes := recent, opBlock := b }
      (∀ u, ∃ y, exec (.nandOperationStart t c i b true u p) s = .next y ∧ apart y ∧ kept y ∧ die y = began ∧ quad y = d.quad i b) ∧
      (∀ u, (u = true → b ∈ x.openQuads.map (·.1) ∨ b ∈ x.nextQuads) → ∃ y, exec (.nandOperationStart t c i b false u p) s = .next y ∧ apart y ∧
        kept y ∧ (quad y).opened = true ∧ (quad y).valid = (d.quad i b).valid ∧
        die y = { began with op := some .program, erased := if (d.quad i b).opened then x.erased else x.erased - 1 } ∧
        ((d.quad i b).opened = false → x.erased ≤ 3 → (y.media.drift c).waiting = true)) ∧
      (b ∉ x.openQuads.map (·.1) → b ∉ x.nextQuads → exec (.nandOperationStart t c i b false true p) s = .next (s.at t))) ∧
    (∀ o n, x.op = some o → x.suspended = false → 0 < n →
      let met := { x with critical := x.critical + n, slotTimes := x.slotTimes ++ List.replicate n now }
      (x.suspensions < o.limit → ∃ y, exec (.nandSuspend t c i n) s = .next y ∧ apart y ∧ kept y ∧
        die y = { met with suspended := true, suspensions := x.suspensions + 1 } ∧ (y.media.drift c).suspCnt = satAdd 32 d.suspCnt 1) ∧
      (o.limit ≤ x.suspensions → x.limited = false → ∃ y, exec (.nandSuspend t c i n) s = .next y ∧ apart y ∧ kept y ∧
        die y = { met with limited := true } ∧ (y.media.drift c).limitCnt = satAdd 16 d.limitCnt 1)) ∧
    (x.suspended = true → x.critical = 0 → ∃ y, exec (.nandResume t c i p) s = .next y ∧ apart y ∧ kept y ∧
      die y = { x with suspended := false, endNs := p }) ∧
    (x.suspended = false ∨ x.critical ≠ 0 → exec (.nandResume t c i p) s = .next (s.at t)) ∧
    (∀ n f l, x.op = none ∨ x.suspended = true → exec (.nandOperationComplete t c i n f l) s = .next (s.at t)) ∧
    (x.suspended = false → x.opBlock = b →
      let ended := { x with op := none, limited := false, suspensions := 0 }
      let q := d.quad i b
      (∀ n l, x.op = some .erase → ∃ y, exec (.nandOperationComplete t c i n none l) s = .next y ∧ apart y ∧ kept y ∧
        die y = { ended with erased := x.erased + 1 } ∧ quad y = { valid := 0, erases := q.erases + 1, withdrawn := q.withdrawn, writtenNs := now }) ∧
      (∀ n l, x.op = some .program → ∃ y, exec (.nandOperationComplete t c i n none l) s = .next y ∧ apart y ∧ die y = ended ∧
        quad y = { q with valid := q.valid + n, writtenNs := now } ∧ y.media.seqNo = s.media.seqNo + n ∧
        y.media.buffer = s.media.buffer.filter (fun e => !l.contains (e.nsid, e.lba)) ∧ y.link.namespaces = s.link.namespaces) ∧
      (∀ n l pl, x.op = some .program → ∃ y, exec (.nandOperationComplete t c i n (some pl) l) s = .next y ∧ apart y ∧ die y = ended ∧
        y.media.buffer = s.media.buffer ∧ y.link.namespaces = s.link.namespaces ∧
        (0 < tgetD d.spares (i * 4 + pl) 40 → tgetD (y.media.drift c).spares (i * 4 + pl) 40 + 1 = tgetD d.spares (i * 4 + pl) 40 ∧
          (quad y).withdrawn = q.withdrawn) ∧
        (tgetD d.spares (i * 4 + pl) 40 = 0 → (quad y).withdrawn = true ∧ (quad y).valid = 0))) ∧
    (∀ pl pg sec lv pat rec o,
      (lv < 4 → ∃ y, exec (.nandReadComplete t c i pl b pg sec lv true pat rec o) s = .next y ∧ apart y ∧ kept y ∧
        die y = { x with critical := x.critical - 1 } ∧ (quad y).reads = (d.quad i b).reads + 1 ∧ (quad y).valid = (d.quad i b).valid ∧
        (quad y).decodedHigh = ((d.quad i b).decodedHigh || decide (2 ≤ lv)) ∧
        (y.media.drift c).retryCnt = (if 0 < lv then satAdd 32 d.retryCnt 1 else d.retryCnt) ∧ y.log = s.log) ∧
      (∀ nsid sector (n : Namespace), 4 ≤ lv → o = .space nsid sector → tget? s.link.namespaces nsid = some n →
        ∃ y m, exec (.nandReadComplete t c i pl b pg sec lv false pat rec o) s = .next y ∧ apart y ∧
          (y.media.drift c).ueCnt = satAdd 16 d.ueCnt 1 ∧ tget? y.link.namespaces nsid = some m ∧ (rec = true → m = n) ∧
          (rec = false → tget? m.blocks (sector / (n.lbaBytes / 4096)) = some .lost) ∧
          (∀ a, a ≠ sector / (n.lbaBytes / 4096) → tget? m.blocks a = tget? n.blocks a) ∧
          ∀ k, k ≠ nsid → tget? y.link.namespaces k = tget? s.link.namespaces k))

/-- R130, R381 to R383, R387 to R391: a checkpoint begins every 64 ms or when a die needs a fifth quad, and at its end what it marked is
durable and the Flushes that waited for it are answered; a patrol period, a refresh and garbage collection do what their causes ask; a
capacitor test decides whether hold-up is degraded or restored, which takes effect at the tick after.
The model's own choices in it: notes/assumptions/57, 58. -/
def Obligations.MediaUpkeep : Prop :=
  ∀ (s : State) (t c i b dest : Nat),
    let now := max s.now t
    let m := s.media
    let d := m.drift c
    let frame := s.meridian.frame
    let apart := fun (y : State) => s.sameRuns y ∧ s.sameFrame y ∧ y.units = s.units ∧ s.samePeers y ∧ y.link.compute = s.link.compute
    let moved := fun (y : State) (b : Nat) => apart y ∧ y.link.namespaces = s.link.namespaces ∧ (y.media.drift c).quad i b =
        { valid := 0, erases := (d.quad i b).erases + 1, withdrawn := (d.quad i b).withdrawn, writtenNs := now } ∧
      ((y.media.drift c).quad i dest).valid = (d.quad i dest).valid + (d.quad i b).valid ∧ ((y.media.drift c).quad i dest).opened = true ∧
      ((y.media.drift c).die i).erased = (d.die i).erased + 1 ∧ y.media.seqNo = m.seqNo + (d.quad i b).valid
    (∀ f, m.ckptRunning = none → (f = true ∨ m.ckptBegan + 64000000 ≤ now) → ∃ y, exec (.checkpointBegin t f) s = .next y ∧ apart y ∧
      y.media.ckptRunning = some (m.ckptDone + 1) ∧ y.media.ckptBegan = now ∧ y.media.ckptDone = m.ckptDone ∧ y.media.flushes = m.flushes ∧
      (∀ e ∈ y.media.buffer, e.marked = true) ∧ y.media.buffer.length = m.buffer.length ∧
      ∀ k, tget? y.link.namespaces k = (tget? s.link.namespaces k).map (fun n => { n with volatile := n.volatile.map (fun v => { v with marked := true }) })) ∧
    (∀ f, m.ckptRunning.isSome = true ∨ (f = false ∧ now < m.ckptBegan + 64000000) → exec (.checkpointBegin t f) s = .next (s.at t)) ∧
    (∀ n, m.ckptRunning = some n → ∃ y, exec (.checkpointComplete t []) s = .next y ∧ apart y ∧ y.media.ckptRunning = none ∧ y.media.ckptDone = n ∧
      y.media.flushes = m.flushes.filter (fun f => decide (n < f.needs)) ∧ y.media.drifts = m.drifts ∧
      ∀ k, tget? y.link.namespaces k = (tget? s.link.namespaces k).map Namespace.commitMarked) ∧
    (∀ l, m.ckptRunning = none → exec (.checkpointComplete t l) s = .next (s.at t)) ∧
    (m.patrolStart + m.patrolHours * 3600000000000 ≤ now → ∃ y, exec (.patrolDone t) s = .next y ∧ apart y ∧ y.link.namespaces = s.link.namespaces ∧
      y.media = { m with patrolStart := now, patrolPages := 0, patrolHigh := 0 }) ∧
    (now < m.patrolStart + m.patrolHours * 3600000000000 → exec (.patrolDone t) s = .next (s.at t)) ∧
    (dest ≠ b →
      ((d.quad i b).decodedHigh = true → ∃ y, exec (.refresh t c i b dest 0 none) s = .next y ∧ moved y b) ∧
      (m.readLimit ≤ (d.quad i b).reads → ∃ y, exec (.refresh t c i b dest 1 none) s = .next y ∧ moved y b) ∧
      ((d.quad i b).writtenNs + m.ageDays * 86400000000000 < now → ∃ y, exec (.refresh t c i b dest 2 none) s = .next y ∧ moved y b) ∧
      ((d.quad i b).decodedHigh = false → ∀ a, exec (.refresh t c i b dest 0 a) s = .next (s.at t)) ∧
      ((d.quad i b).reads < m.readLimit → ∀ a, exec (.refresh t c i b dest 1 a) s = .next (s.at t))) ∧
    (∀ v, d.victim i dest = some v → ∃ y, exec (.garbageCollection t c i dest) s = .next y ∧ moved y v ∧ v ≠ dest) ∧
    (d.victim i dest = none → exec (.garbageCollection t c i dest) s = .next (s.at t)) ∧
    (∀ done h cap res, ∃ y, exec (.capTest t done h cap res) s = .next y ∧ apart y ∧ y.media.healthPct = h ∧ y.media.capTestAt = some now ∧
      y.media.holdupDegr = m.holdupDegr ∧ y.media.drifts = m.drifts ∧
      (done = false ∨ h < 100 → (m.holdupDegr = true → y.media.restorePending = none) ∧ (m.holdupDegr = false → y.media.degrPending.isSome = true)) ∧
      (done = true → 100 ≤ h → (m.holdupDegr = true → y.media.restorePending = some frame) ∧ (m.holdupDegr = false → y.media.degrPending = none))) ∧
    (∀ k f, m.degrPending = some (k, f) →
      (f < frame → s.startup.ended.contains .ready = true → ∃ y, exec (.holdupDegraded t) s = .next y ∧ apart y ∧
        y.media = { m with holdupDegr := true, degrPending := none }) ∧
      (frame ≤ f → exec (.holdupDegraded t) s = .next (s.at t))) ∧
    (∀ f, m.restorePending = some f →
      (f < frame → ∃ y, exec (.holdupRestored t) s = .next y ∧ apart y ∧ y.media = { m with holdupDegr := false, restorePending := none }) ∧
      (frame ≤ f → exec (.holdupRestored t) s = .next (s.at t))) ∧
    (∀ w, 100000000 < w → s.power.lossDeclared = none → s.power.off = false → m.holdupDegr = false → m.degrPending = none →
      exec (.bankVoltageLow t w) s = .next { s.at t with media := { m with degrPending := some (2, frame) } }) ∧
    (∀ w, w ≤ 100000000 → exec (.bankVoltageLow t w) s = .next (s.at t))

/-- R522, R524 to R530: only the owner of the flash block reaches it. Two writes arm it, and a command uses the arming up; a program or an erase
runs on the staging bank; suspend and resume act on what runs; the array-mode sequences do the same; at its end a program leaves each byte
the AND of what it held and the data, and an erase leaves its sector at 0xFF.
The model's own choices in it: notes/assumptions/39. -/
def Obligations.FlashBlock : Prop :=
  ∀ (s : State) (t : Nat) (host : Bool), (host = true → s.powered 4 = true) →
    let u := s.at t
    let f := s.flash
    let put := fun (g : Flash) => (.next { u with flash := g } : Host.Outcome State Fault Refusal)
    let all := fun (v : BitVec 16) (o : Nat) (d : BitVec 32) => ([.fwfKey t host v, .fwfProgram t host, .fwfSectorErase t host, .fwfSuspend t host,
      .fwfResume t host, .arrayProgram t host o d, .arrayErase t host o, .arraySuspend t host o, .arrayResume t host o,
      .arrayAbandon t host o] : List Instr)
    (host ≠ f.hostOwns → ∀ v o d, ∀ c ∈ all v o d, exec c s = put (if host then { f with errOwn := true } else f)) ∧
    (host = f.hostOwns →
      (f.arm = 0 → exec (.fwfKey t host 0x5A3C) s = put { f with arm := 1 }) ∧
      (f.arm = 1 → exec (.fwfKey t host 0xC3A5) s = put { f with arm := 2 }) ∧
      (∀ v, v ≠ 0x5A3C → (f.arm ≠ 1 ∨ v ≠ 0xC3A5) → exec (.fwfKey t host v) s = put { f with arm := 0, errKey := true }) ∧
      (f.arm ≠ 2 → exec (.fwfProgram t host) s = put { f with arm := 0, cycles := [], errKey := true } ∧
        exec (.fwfSectorErase t host) s = put { f with arm := 0, cycles := [], errKey := true }) ∧
      (f.arm = 2 → f.busy = none → f.susp = none → (host = true → f.addr < areaBase) →
        let run := fun (o : FlashOp) => put { f with arm := 0, cycles := [], busy := some o, suspCnt := 0 }
        (f.addr % 256 = 0 → exec (.fwfProgram t host) s = run { op := 1, bank := f.staging, addr := f.addr, data := f.buffer }) ∧
        (f.addr % 256 ≠ 0 → exec (.fwfProgram t host) s = put { f with arm := 0, cycles := [], errSeq := true }) ∧
        exec (.fwfSectorErase t host) s = run { op := 2, bank := f.staging, addr := f.addr, data := [] }) ∧
      (host = true → areaBase ≤ 65536 * f.win → f.arm = 0 → ∀ o d, exec (.arrayProgram t host o d) s = put { f with errOwn := true } ∧
        exec (.arrayErase t host o) s = put { f with errOwn := true } ∧ exec (.arrayAbandon t host o) s = put { f with errOwn := true }) ∧
      (f.arm = 0 → ∀ o a, f.busy = some o → o.op ≠ 3 → (host = true → 65536 * f.win + 65536 ≤ areaBase) →
        exec (.fwfSuspend t host) s = put { f with cycles := [], busy := none, susp := some o, suspCnt := satAdd 32 f.suspCnt 1 } ∧
        (f.cycles = [] → exec (.arraySuspend t host a) s = put { f with busy := none, susp := some o, suspCnt := satAdd 32 f.suspCnt 1 })) ∧
      (f.arm = 0 → f.busy = none → exec (.fwfSuspend t host) s = put { f with cycles := [], errSeq := true }) ∧
      (f.arm = 0 → ∀ o a, f.busy = none → f.susp = some o → (host = true → 65536 * f.win + 65536 ≤ areaBase) →
        exec (.fwfResume t host) s = put { f with cycles := [], busy := some o, susp := none } ∧
        (f.cycles = [] → exec (.arrayResume t host a) s = put { f with busy := some o, susp := none })) ∧
      (f.arm = 0 → f.cycles = [] → f.busy = none → f.susp = none → (host = true → 65536 * f.win + 65536 ≤ areaBase) → ∀ (off : Nat) (d : BitVec 32),
        (off % 4 = 0 → exec (.arrayProgram t host off d) s =
          put { f with busy := some { op := 1, bank := f.staging, addr := 65536 * f.win + off % 65536, data := le 4 d.toNat }, suspCnt := 0 }) ∧
        (off % 4 ≠ 0 → exec (.arrayProgram t host off d) s = put { f with errSeq := true }) ∧
        exec (.arrayErase t host off) s = put { f with busy := some { op := 2, bank := f.staging, addr := 65536 * f.win, data := [] }, suspCnt := 0 }) ∧
      (f.arm = 0 → f.cycles ≠ [0xAA, 0x55, 0xA0] → (host = true → 65536 * f.win + 65536 ≤ areaBase) → ∀ off, exec (.arrayAbandon t host off) s = put { f with cycles := [] })) ∧
    (f.busy = none → exec (.flashOperationEnd t) s = .next u) ∧
    (∀ o, f.busy = some o → cellsWf (f.bank o.bank).bytes = true → ∃ y, exec (.flashOperationEnd t) s = .next y ∧ y.flash.busy = none ∧
      y.flash.susp = f.susp ∧ (∀ k, k ≠ o.bank → y.flash.bank k = f.bank k) ∧
      (o.op = 2 → ∀ a, (y.flash.bank o.bank).byte a = if a / 65536 = o.addr / 65536 then 0xFF else (f.bank o.bank).byte a) ∧
      (o.op ≠ 2 → ∀ a, (y.flash.bank o.bank).byte a = if o.addr ≤ a ∧ a < o.addr + o.data.length
        then (f.bank o.bank).byte a &&& o.data.getD (a - o.addr) 0xFF else (f.bank o.bank).byte a) ∧
      (o.addr < areaBase → (y.flash.bank o.bank).image = none) ∧ s.sameRuns y ∧ s.sameFrame y ∧ y.link = s.link ∧ y.log = s.log)

/-- R510, R520, R529, R532, R594, R603: FLASH OWN and FLASH RELEASE move the ownership where nothing is outstanding; after a reset of the PF
firmware takes it back and empties the staging slot. A download writes the staging slot; a commit of a verified image of permitted security
version replaces the staging slot, and names the slot to start from where it activates at the next reset.
The model's own choices in it: notes/assumptions/38, 39. -/
def Obligations.FirmwareImages : Prop :=
  ∀ (s : State) (q : Sqe) (t : Nat) (i : ImageInfo), s.takes q = true → q.fn = 0 →
    let u := s.at q.t
    let f := s.flash
    let dw := s.unitDw0 (dwField q.d11 0 16)
    let free := f.hostOwns = false ∧ s.activation.outstanding = false
    let slot := s.commitSlot q
    let held := fun (k : Nat) => f.modBank (slotBank k) (fun b => { b with image := some i })
    let named := fun (g : Flash) (k : Nat) => g.modBank g.runningBank (fun b => { b with bootSlot := k })
    let done := fun (g : Flash) => (.next (({ u with flash := g } : State).complete q .success) : Host.Outcome State Fault Refusal)
    let commits := ([.firmwareCommitReplace q i, .firmwareCommitReplaceActivateReset q i, .firmwareCommitActivateNow q i] : List Instr)
    let d := q.data.take (4 * (q.d10.toNat + 1))
    let off := 4 * q.d11.toNat
    (free → f.oldAreas = false → ∃ y : State, exec (.flashOwn q false) s = .next (y.complete q .success dw) ∧ y.flash = { f with hostOwns := true } ∧
      s.sameRuns y ∧ s.sameFrame y ∧ y.units = s.units) ∧
    (¬ free ∨ f.oldAreas = true → exec (.flashOwn q false) s = .next (u.complete q .commandSequence)) ∧
    (f.hostOwns = true → f.busy = none → f.susp = none → ∃ y : State, exec (.flashRelease q) s = .next (y.complete q .success dw) ∧
      y.flash = { f with hostOwns := false } ∧ s.sameRuns y ∧ s.sameFrame y ∧ y.units = s.units) ∧
    (f.hostOwns = false ∨ f.busy.isSome = true ∨ f.susp.isSome = true → exec (.flashRelease q) s = .next (u.complete q .commandSequence)) ∧
    (f.resetAsked = false → exec (.flashOwnerReset t) s = .next (s.at t)) ∧
    (f.resetAsked = true → ∃ y, exec (.flashOwnerReset t) s = .next y ∧ y.flash.hostOwns = false ∧ y.flash.arm = 0 ∧ y.flash.resetAsked = false ∧
      (f.busy = none → y.flash.busy = f.susp ∧ y.flash.susp = none) ∧ (f.busy ≠ none → y.flash.busy = f.busy ∧ y.flash.susp = f.susp) ∧
      (y.flash.bank f.staging).image = none ∧ (∀ k, k ≠ f.staging → y.flash.bank k = f.bank k) ∧ s.sameRuns y ∧ s.sameFrame y) ∧
    (¬ free ∨ s.manage.updating = true → exec (.firmwareImageDownload q true) s = .next (u.complete q .commandSequence) ∧
      exec (.firmwareCommitActivateReset q i) s = .next (u.complete q .commandSequence) ∧
      ∀ c ∈ commits, exec c s = .next (u.complete q .commandSequence)) ∧
    (free → s.manage.updating = false →
      (∀ rb, areaBase < off + d.length → exec (.firmwareImageDownload q rb) s = .next (u.complete q .invalidField)) ∧
      (∀ rb, off + d.length ≤ areaBase → cellsWf (f.bank f.staging).bytes = true → ∃ y : State, exec (.firmwareImageDownload q rb) s =
        .next (y.complete q (if rb then .success else .imageDownload)) ∧ (y.flash.bank f.staging).image = none ∧
        (∀ a, (y.flash.bank f.staging).byte a = if off ≤ a ∧ a < off + d.length then d.getD (a - off) 0 else (f.bank f.staging).byte a) ∧
        (∀ k, k ≠ f.staging → y.flash.bank k = f.bank k) ∧ s.sameRuns y ∧ s.sameFrame y ∧ y.link = s.link) ∧
      (slot ≠ f.stagingSlot → ∀ c ∈ commits, exec c s = .next (u.complete q .invalidSlot)) ∧
      (s.imageOk i = false → slot = f.stagingSlot → ∀ c ∈ commits, exec c s = .next (u.complete q .invalidImage)) ∧
      (s.imageOk i = true → slot = f.stagingSlot → exec (.firmwareCommitReplace q i) s = done (held slot) ∧
        exec (.firmwareCommitReplaceActivateReset q i) s = done (named (held slot) slot) ∧
        exec (.firmwareCommitActivateNow q i) s = .next { u with flash := held slot, activation := { s.activation with step := 1, fn := 0, sqid := q.sqid, cid := q.cid, slot := slot, since := s.meridian.frame } }) ∧
      (slot ≤ 2 → s.imageOk i = true → exec (.firmwareCommitActivateReset q i) s = done (named (held slot) slot)) ∧
      (slot ≤ 2 → s.imageOk i = false → exec (.firmwareCommitActivateReset q i) s = .next (u.complete q .invalidImage)) ∧
      (2 < slot → exec (.firmwareCommitActivateReset q i) s = .next (u.complete q .invalidSlot)))

/-- R521 to R523 (Table Unit 8): an activation without a reset closes admission at the tick after the Commit; it starts when no contracted
packet is outstanding, within 2 s, with the boot and log areas copied to the new bank unsealed; within 2 s more the seal makes the new bank
the running one; admission reopens at the tick after. A start that comes too late fails the Commit, and an end that comes too late is a cold
reset from the slot that ran before.
The model's own choices in it: notes/assumptions/38. -/
def Obligations.ActivationSteps : Prop :=
  ∀ (s : State) (t : Nat),
    let u := s.at t
    let a := s.activation
    let f := s.flash
    let now := max s.now t
    let frame := s.meridian.frame
    let bank := slotBank a.slot
    (a.step = 1 → a.since < frame → exec (.activationAdmissionClose t) s = .next { u with activation := { a with step := 2, t2 := now } }) ∧
    (a.step ≠ 1 ∨ frame ≤ a.since → exec (.activationAdmissionClose t) s = .next u) ∧
    (a.step = 2 → s.contractedOut = false → now ≤ a.t2 + 2000000000 → ∃ y, exec (.activationStart t) s = .next y ∧
      y.activation = { a with step := 4, t3 := now, pp := true } ∧ (y.flash.bank bank).sealed = false ∧ (y.flash.bank bank).bootSlot = a.slot ∧
      (y.flash.bank bank).areaSeq = (f.bank f.runningBank).areaSeq + 1 ∧ (y.flash.bank bank).image = (f.bank bank).image ∧
      (∀ k, k ≠ bank → y.flash.bank k = f.bank k) ∧ y.flash.runningBank = f.runningBank ∧ y.flash.runningSlot = f.runningSlot ∧
      y.objects = s.objects ∧ s.sameFrame y ∧ y.saved = s.saved ∧ y.almanac = s.almanac) ∧
    (a.step ≠ 2 ∨ s.contractedOut = true ∨ a.t2 + 2000000000 < now → exec (.activationStart t) s = .next u) ∧
    (∀ bad, a.step = 4 → now ≤ a.t3 + 2000000000 → ∃ y, exec (.fwActivated t bad) s = .next y ∧
      y.activation = { a with step := 5, pp := false, since := frame } ∧ y.flash.runningSlot = a.slot ∧ y.flash.runningBank = bank ∧
      (y.flash.bank bank).sealed = true ∧ y.flash.oldAreas = true ∧ (∀ k, k ≠ bank → y.flash.bank k = f.bank k) ∧
      y.objects = s.objects ∧ y.packets = s.packets ∧ s.sameFrame y) ∧
    (∀ bad, a.step ≠ 4 ∨ a.t3 + 2000000000 < now → exec (.fwActivated t bad) s = .next u) ∧
    (a.step = 5 → a.since < frame → exec (.activationAdmissionReopen t) s = .next { u with activation := { a with step := 0 } }) ∧
    (a.step ≠ 5 ∨ frame ≤ a.since → exec (.activationAdmissionReopen t) s = .next u) ∧
    (a.step = 2 → a.t2 + 2000000000 < now → exec (.activationTimeout t) s =
      .next (({ u with activation := { a with step := 5, since := frame } } : State).completeOn a.fn a.sqid a.cid .maxTimeViolation 0 0)) ∧
    (a.step ≠ 2 ∨ now ≤ a.t2 + 2000000000 → exec (.activationTimeout t) s = .next u) ∧
    (∀ e, a.step = 4 → a.t3 + 2000000000 < now → ∃ y, exec (.fwActivateFailed t e) s = .next y ∧ y.activation = { failed := some (a.slot, 4) } ∧
      y.flash.runningSlot = f.runningSlot ∧ y.flash.runningBank = f.runningBank ∧ y.startup.ended = [] ∧ y.saved = s.saved ∧
      y.almanac.gens = s.almanac.gens ∧ y.power.off = false ∧ y.packets.live = []) ∧
    (∀ e, a.step ≠ 4 ∨ now ≤ a.t3 + 2000000000 → exec (.fwActivateFailed t e) s = .next u)

/-- R110, R516, R522, R533 to R538: each stage of start-up runs once, after the stages that it follows, and ends with the effects the spec
gives it: the Almanac and PAIR_DETECT, the slot that verifies, the boot count and the saved table, the stewards, Tier H with the saved quotas,
the mounted media, CSTS.RDY, and the residency; a module fault with cause 2 or CSTS.CFS where a stage cannot end.
The model's own choices in it: notes/assumptions/25, 56. -/
def Obligations.StartUpStages : Prop :=
  ∀ (s : State) (t : Nat), s.power.off = false → s.global.mfault = false →
    let u := s.at t
    let ends := fun (y : State) (g : Stage) => y.startup.ended = s.startup.ended ++ [g]
    let ready := fun (g : Stage) (after : List Stage) => s.done g = false ∧ ∀ x ∈ after, s.done x = true
    let not := fun (g : Stage) (after : List Stage) => s.done g = true ∨ ∃ x ∈ after, s.done x = false
    let fault := fun (y : State) => y.global.mfault = true ∧ y.global.cause = 2 ∧ y.startup.ended = s.startup.ended ∧ y.objects = s.objects
    (s.done .d0 = true → exec .startUp s = .next (s.at 0)) ∧
    (s.done .d0 = false → ∃ y, exec .startUp s = .next y ∧ ends y .d0 ∧ y.now = 0 ∧ y.power.domains = 0x003 ∧ y.almanac.read = true ∧
      y.pair.detectOut = true ∧ y.pair.id = s.almanac.pairId ∧ y.saved = s.saved ∧ y.link = s.link ∧ y.media = s.media) ∧
    (∀ i j, not .boot [.d0] → exec (.boot t i j) s = .next u) ∧
    (∀ i j, ready .boot [.d0] →
      let run := s.flash.sealedBank
      let slot := if (s.flash.bank run).bootSlot = 2 then 2 else 1
      let image := fun (n : Nat) => if n = 2 then j else i
      ∃ y, exec (.boot t i j) s = .next y ∧ y.flash.runningBank = run ∧ s.sameRuns y ∧
        (s.imageOk (image slot) = true → ends y .boot ∧ y.flash.runningSlot = slot ∧ y.startup.fallback = s.startup.fallback) ∧
        (s.imageOk (image slot) = false → s.imageOk (image (3 - slot)) = true → ends y .boot ∧ y.flash.runningSlot = 3 - slot ∧
          (y.flash.bank run).bootSlot = 3 - slot ∧ y.startup.fallback = some (3 - slot)) ∧
        (s.imageOk i = false → s.imageOk j = false → y.startup.ended = s.startup.ended ∧ y.startup.noSlot = true ∧ (y.ctrl 0).cfs = true)) ∧
    (not .count [.boot] → exec (.bootCountWrite t) s = .next u) ∧
    (ready .count [.boot] → ∃ y, exec (.bootCountWrite t) s = .next y ∧ ends y .count ∧
      y.meridian.bootCount = min (s.saved.bootCount + 1) (2 ^ 32 - 1) ∧ y.saved = { s.saved with bootCount := y.meridian.bootCount } ∧
      y.meridian.period = s.saved.period ∧ y.orrery.active.period = (match s.saved.orrery with
        | some o => if o.period = s.saved.period then o.period else s.saved.period
        | none => s.saved.period) ∧ (∀ o, s.saved.orrery = some o → o.period = s.saved.period → y.orrery.active = o) ∧ s.sameRuns y ∧ y.link = s.link) ∧
    (∀ ok bad, not .stewards [.count] → exec (.stewardsStart t ok bad) s = .next u) ∧
    (∀ ok bad, ready .stewards [.count] → ∃ y, exec (.stewardsStart t ok bad) s = .next y ∧ ends y .stewards ∧
      y.power.domains = s.power.domains ||| 0xF9C ∧ (∀ n, n < 16 → (y.steward n).started = true) ∧ y.flash.runningBank = slotBank s.flash.runningSlot ∧
      y.objects = s.objects ∧ y.media = s.media ∧ y.activation.failed = none ∧ (ok = false → y.log.stage = 3)) ∧
    (∀ ok, not .tierH [.stewards] → exec (.tierHPrepare t ok) s = .next u) ∧
    (ready .tierH [.stewards] → (∃ y, exec (.tierHPrepare t false) s = .next y ∧ fault y) ∧
      ∃ y, exec (.tierHPrepare t true) s = .next y ∧ ends y .tierH ∧ y.power.domains = s.power.domains ||| 0x060 ∧ y.cage.prepared = true ∧
        y.cage.h2 = s.saved.heccLevel ∧ y.cage.poolSize = s.saved.poolSize ∧ y.cage.tailings = s.saved.trcSize ∧
        (s.saved.quotas = [] → y.cage.quotas = [(0, y.cage.quotable)] ∧ y.saved.quotas = [(0, y.cage.quotable)]) ∧
        (s.saved.quotas ≠ [] → sumNat (s.saved.quotas.map (·.2)) ≤ y.cage.quotable → y.cage.quotas = s.saved.quotas ∧ y.saved = s.saved) ∧
        (∀ n, n < 256 → (y.core n).kernelStore = true ∧ (y.core n).packet = none) ∧ y.objects = s.objects ∧ y.packets = s.packets) ∧
    (∀ ok n l, not .mount [.tierH] → exec (.mount t ok n l) s = .next u) ∧
    (∀ n l, ready .mount [.tierH] → (∃ y, exec (.mount t false n l) s = .next y ∧ fault y) ∧
      ∃ y, exec (.mount t true n l) s = .next y ∧ ends y .mount ∧ y.media.mounted = true ∧ y.media.unflushed = [] ∧ y.manage.internalKey ≠ 0 ∧
        (∀ k x, tget? y.link.namespaces k = some x → x.volatile = [] ∧ x.blocks = x.durable) ∧ y.packets = s.packets ∧ s.sameFrame y) ∧
    (not .ready [.holdup, .mount] → exec (.stageReady t) s = .next u) ∧
    (ready .ready [.holdup, .mount] → ∃ y, exec (.stageReady t) s = .next y ∧ ends y .ready ∧ y.startup.readyNs = max s.now t ∧
      (s.pair.has = false → y.link = { s.link with controllers := tmapv s.link.controllers (fun _ c => { c with ready := c.enabled }) } ∧ y.pair = s.pair) ∧
      (s.pair.has = true → y.pair.state = .waiting ∧ y.pair.waitingSince = max s.now t) ∧ y.objects = s.objects ∧ y.packets = s.packets) ∧
    (ready .residency [.ready] → (s.residencyWhole = false → exec (.residencyComplete t) s = .next u) ∧
      (s.residencyWhole = true → exec (.residencyComplete t) s =
        .next { u with startup := { s.startup with ended := s.startup.ended ++ [.residency] } })) ∧
    exec (.configRequest t) s = .next { u with link := { s.link with configRetried := some (!s.done .stewards) } }

/-- R117, R440, R616 to R619, R626, R631: input power that has held for 10 ms with PWRDIS low begins start-up; a loss of it ends fetching and
the outstanding packets and takes the listed domains down, and the end of the flush takes the rest; what the spec keeps over a loss is kept.
PWRDIS high for 10 µs is a loss; PERST# low for 1 µs is a cold reset; the link trains, at 32 GT/s without FLIT mode; and a cage assembly above
3.5 W stays in low-power mode with its port down.
The model's own choices in it: notes/assumptions/27, 37. -/
def Obligations.SupplyInputs : Prop :=
  ∀ (s : State) (t held low : Nat) (e : FlushEnd),
    let u := s.at t
    let p := s.power
    let now := max s.now t
    let lost := fun (y : State) => y.power.lossDeclared = some now ∧ y.power.domains = p.domains &&& 0xE19 ∧ y.link.up = false ∧
      y.link.controllers = [] ∧ y.packets.live = [] ∧ y.cores = [] ∧ y.link.namespaces = s.link.namespaces ∧ y.objects = s.objects ∧
      y.media = s.media ∧ y.flash = s.flash ∧ y.saved.unsafeShutdowns = s.saved.unsafeShutdowns + (if s.startup.shutdownDone then 0 else 1)
    let cold := fun (y : State) => y.startup.ended = [] ∧ y.link.namespaces = s.link.namespaces ∧ y.link.controllers = [] ∧ y.packets.live = [] ∧
      y.saved = s.saved ∧ y.almanac.gens = s.almanac.gens ∧ y.flash.runningSlot = s.flash.runningSlot ∧ y.global.mfault = false ∧
      ∀ k o, tget? s.objects.live k = some o → o.dead = false → (s.objects.live.map (·.1)).Nodup → tget? y.objects.live k = some o.restored
    (p.off = true → 10000000 ≤ held → p.pwrdis = false → 10000000 ≤ low → exec (.inputPowerGood held low) s =
      .next { s with power := { p with off := false }, saved := { s.saved with powerCycles := s.saved.powerCycles + 1 } }) ∧
    (p.off = false ∨ held < 10000000 ∨ p.pwrdis = true ∨ low < 10000000 → exec (.inputPowerGood held low) s = .next s) ∧
    (p.off = false → p.lossDeclared = none → (∃ y, exec (.inputPowerLoss t) s = .next y ∧ lost y ∧ y.power.pwrdis = p.pwrdis) ∧
      (10000 ≤ held → ∃ y, exec (.pwrdis t held true) s = .next y ∧ lost y ∧ y.power.pwrdis = true)) ∧
    (p.off = true ∨ p.lossDeclared.isSome = true → exec (.inputPowerLoss t) s = .next u) ∧
    (held < 10000 → exec (.pwrdis t held true) s = .next u) ∧
    exec (.pwrdis t held false) s = .next { u with power := { p with pwrdis := false } } ∧
    (p.lossDeclared = none → exec (.holdupFlushEnd t e) s = .next u) ∧
    (∀ d, p.lossDeclared = some d →
      (e.complete = false → now < d + 45000000 → exec (.holdupFlushEnd t e) s = .next u) ∧
      (e.complete = true ∨ d + 45000000 ≤ now → ∃ y, exec (.holdupFlushEnd t e) s = .next y ∧ cold y ∧ y.power.off = true ∧ y.power.domains = 0 ∧
        y.startup.clean = (s.startup.shutdownDone || (e.complete && e.delta)))) ∧
    (low < 1000 ∨ p.lossDeclared.isSome = true → exec (.perst t low e) s = .next u) ∧
    (1000 ≤ low → p.lossDeclared = none →
      (p.off = true → exec (.perst t low e) s = .next { u with power := { p with perst := true } }) ∧
      (p.off = false → ∃ y, exec (.perst t low e) s = .next y ∧ cold y ∧ y.power.perst = true ∧ y.power.off = false ∧
        y.startup.clean = (e.complete && e.delta))) ∧
    exec (.perstDeassert t) s = .next { u with power := { p with perst := false }, link := { s.link with training := !p.off } } ∧
    (∀ rate width flit, p.off = false → p.perst = false → rate ∈ [16, 32, 64] → width ∈ [1, 2, 4, 8, 16] →
      exec (.linkRateChange t rate width flit) s = .next { u with link := { s.link with up := true, training := false, rateGt := if rate = 64 ∧ flit = false then 32 else rate, width := width, flit := flit } }) ∧
    (∀ rate width flit, p.off = true ∨ p.perst = true ∨ rate ∉ [16, 32, 64] ∨ width ∉ [1, 2, 4, 8, 16] →
      exec (.linkRateChange t rate width flit) s = .next u) ∧
    (∀ b, exec (.mgmtVioChange t b) s = .next { u with power := { p with mgmtVio := b }, manage := { s.manage with hiZ := !b } }) ∧
    (∀ k w, (12 ≤ k → exec (.cageAssemblyInserted t k w) s = .next u) ∧
      (k < 12 → ∃ y, exec (.cageAssemblyInserted t k w) s = .next y ∧ (∀ m, m ≠ k → y.port m = s.port m) ∧ s.sameRuns y ∧ s.sameFrame y ∧
        y.port k = { s.port k with cagePower := some w, cageRefused := decide (35 < w), state := if 35 < w ∨ 3 ≤ p.cur then .down else .training } ∧
        (w ≤ 35 → y.log = s.log)))
end

