-- ==== Sys2Proof/Laws/Commands.lean ====
section
/-!
SUPPORT. What the shared wrapper of admin and NVM commands does when the command is taken.
-/
namespace Sys2Proof.Machine

@[simp] theorem State.at_fetches (s : State) (t fn : Nat) : (s.at t).fetches fn = s.fetches fn := rfl

/-- Outside step 1 of a Lantern entry nothing is abandoned. -/
theorem State.abandonEntry_fetching {s : State} {fn : Nat} (h : s.fetches fn = true) : s.abandonEntry = s := by
  simp only [State.fetches, Bool.and_eq_true, Bool.or_eq_true, beq_iff_eq, Bool.not_eq_true'] at h
  unfold State.abandonEntry
  rw [if_neg]
  obtain ⟨⟨_, h⟩, _⟩ := h
  rcases h with h | h <;> simp [h]

/-- A command that a sanitize does not turn away runs at its time when its function fetches. -/
theorem State.command_serves {s : State} {q : Sqe} (k : State → State) (h : s.fetches q.fn = true) :
    s.command q true k = k (s.at q.t) := by
  have : (s.at q.t).abandonEntry = s.at q.t := State.abandonEntry_fetching (fn := q.fn) h
  unfold State.command
  simp only [this, ite_self, State.at_fetches, h]
  simp

/-- A command that is taken runs at its time. -/
theorem State.command_takes {s : State} {q : Sqe} (d : Bool) (k : State → State) (h : s.takes q = true) :
    s.command q d k = k (s.at q.t) := by
  simp only [State.takes, Bool.and_eq_true, Bool.not_eq_true'] at h
  have e : (s.at q.t).abandonEntry = s.at q.t := State.abandonEntry_fetching (fn := q.fn) h.1
  have m : (s.at q.t).manage.sanitize.running = false := h.2
  unfold State.command
  simp only [e, ite_self, State.at_fetches, h.1, m]
  simp

/-- A command of the PF that is taken runs at its time. -/
theorem State.pfCommand_takes {s : State} {q : Sqe} (k : State → State) (h : s.takes q = true) (hf : q.fn = 0) :
    s.pfCommand q k = k (s.at q.t) := by
  unfold State.pfCommand
  rw [State.command_takes _ _ h]
  simp [hf]

/-- On a VF it fails with Invalid Command Opcode (R138). -/
theorem State.pfCommand_vf {s : State} {q : Sqe} (k : State → State) (h : s.takes q = true) (hf : q.fn ≠ 0) :
    s.pfCommand q k = (s.at q.t).complete q .invalidOpcode := by
  unfold State.pfCommand
  rw [State.command_takes _ _ h]
  simp [hf]

end Sys2Proof.Machine
end

