-- ==== Sys2Proof/Laws/Ruhaic.lean ====
section
/-!
SUPPORT. What taking a slot leaves alone, and what issuing an operation does when the slot is open.
-/
namespace Sys2Proof.Machine

@[simp] theorem RCore.occupy_acts (c : RCore) (sl d g) : (c.occupy sl d).acts g = c.acts g := rfl
@[simp] theorem RCore.occupy_lanes (c : RCore) (sl d g) : (c.occupy sl d).lanes g = c.lanes g := rfl
@[simp] theorem RCore.occupy_readX (c : RCore) (sl d n) : (c.occupy sl d).readX n = c.readX n := rfl
@[simp] theorem RCore.occupy_readV (c : RCore) (sl d n) : (c.occupy sl d).readV n = c.readV n := rfl
@[simp] theorem RCore.occupy_readA (c : RCore) (sl d n) : (c.occupy sl d).readA n = c.readA n := rfl
@[simp] theorem RCore.occupy_readP (c : RCore) (sl d n) : (c.occupy sl d).readP n = c.readP n := rfl
@[simp] theorem RCore.occupy_chainBase (c : RCore) (sl d n) : (c.occupy sl d).chainBase n = c.chainBase n := rfl
@[simp] theorem RCore.occupy_writable (c : RCore) (sl d a n) : (c.occupy sl d).writable a n = c.writable a n := rfl
@[simp] theorem RCore.occupy_bankByte (c : RCore) (sl d a) : (c.occupy sl d).bankByte a = c.bankByte a := rfl
@[simp] theorem mAddress_occupy (c : RCore) (sl d x o p) : mAddress (c.occupy sl d) x o p = mAddress c x o p := rfl
@[simp] theorem RCore.occupy_fault (c : RCore) (sl d) : (c.occupy sl d).fault = c.fault := rfl
@[simp] theorem RCore.occupy_pc (c : RCore) (sl d) : (c.occupy sl d).pc = c.pc := rfl
@[simp] theorem RCore.occupy_branch (c : RCore) (sl d) : (c.occupy sl d).branch = c.branch := rfl
@[simp] theorem RCore.occupy_loops (c : RCore) (sl d) : (c.occupy sl d).loops = c.loops := rfl
@[simp] theorem RCore.occupy_packet (c : RCore) (sl d) : (c.occupy sl d).packet = c.packet := rfl
@[simp] theorem RCore.occupy_index (c : RCore) (sl d) : (c.occupy sl d).index = c.index := rfl
@[simp] theorem RCore.occupy_streams (c : RCore) (sl d) : (c.occupy sl d).streams = c.streams := rfl
@[simp] theorem RCore.occupy_tokens (c : RCore) (sl d) : (c.occupy sl d).tokens = c.tokens := rfl
@[simp] theorem RCore.occupy_pending (c : RCore) (sl d) : (c.occupy sl d).pending = c.pending := rfl
@[simp] theorem RCore.occupy_bundles (c : RCore) (sl d) : (c.occupy sl d).bundles = c.bundles := rfl
@[simp] theorem RCore.occupy_tables (c : RCore) (sl d) : (c.occupy sl d).tables = c.tables := rfl
@[simp] theorem RCore.occupy_tablePoison (c : RCore) (sl d) : (c.occupy sl d).tablePoison = c.tablePoison := rfl
@[simp] theorem RCore.occupy_firstPoison (c : RCore) (sl d) : (c.occupy sl d).firstPoison = c.firstPoison := rfl
@[simp] theorem RCore.occupy_bank (c : RCore) (sl d) : (c.occupy sl d).bank = c.bank := rfl

@[simp] theorem RCore.occupy_bankRead (c : RCore) (sl d a n) : (c.occupy sl d).bankRead a n = c.bankRead a n := by
  induction n generalizing a <;> simp_all [RCore.bankRead]

/-- Issuing through an open slot is taking it. -/
theorem State.issueOn_open {s : State} {n : Nat} {sl : Slot} {d : Option Dest} (k : RCore → RCore)
    (h : s.openSlot n sl d = true) : s.issueOn n sl d k = s.took n sl d k := by
  simp only [State.openSlot, Bool.and_eq_true, Bool.or_eq_true, Bool.not_eq_true', beq_iff_eq, decide_eq_true_eq] at h
  obtain ⟨⟨⟨h1, h2⟩, h3⟩, h4⟩ := h
  have h5 : ¬ ((s.core n).codeLen ≠ 0 ∧ (s.core n).codeLen ≤ 64 * (s.core n).pc) := by omega
  unfold State.issueOn RCore.inSlot State.took
  cases d with
  | none => simp only [h1, h2, if_neg h5]; rfl
  | some x =>
    simp only [Option.elim, Bool.not_eq_true'] at h4
    simp only [h1, h2, if_neg h5, h4]; rfl

/-- A core that does not issue takes nothing. -/
theorem State.issueOn_idle {s : State} {n : Nat} {sl : Slot} {d : Option Dest} (k : RCore → RCore)
    (h : (s.core n).issuing = false) : s.issueOn n sl d k = s := by
  simp [State.issueOn, h]

/-- Two effects that agree on the core with the slot taken agree. -/
theorem State.took_congr {s : State} {n : Nat} {sl : Slot} {d : Option Dest} {k k' : RCore → RCore}
    (h : k ((s.core n).occupy sl d) = k' ((s.core n).occupy sl d)) : s.took n sl d k = s.took n sl d k' := by
  simp only [State.took, h]

end Sys2Proof.Machine
end

