-- ==== Sys2Proof/Laws/State.lean ====
section
/-!
SUPPORT. What each update of one part of the state leaves alone, field by field; and for the operations that post, trace and raise, one lemma
that says all they can change, with its consequences field by field.
-/
namespace Sys2Proof.Machine

/-! `at` -/

@[simp] theorem State.at_free (s : State) (t) : (s.at t).free = s.free := rfl
@[simp] theorem State.at_meridian (s : State) (t) : (s.at t).meridian = s.meridian := rfl
@[simp] theorem State.at_orrery (s : State) (t) : (s.at t).orrery = s.orrery := rfl
@[simp] theorem State.at_lodestar (s : State) (t) : (s.at t).lodestar = s.lodestar := rfl
@[simp] theorem State.at_link (s : State) (t) : (s.at t).link = s.link := rfl
@[simp] theorem State.at_packets (s : State) (t) : (s.at t).packets = s.packets := rfl
@[simp] theorem State.at_objects (s : State) (t) : (s.at t).objects = s.objects := rfl
@[simp] theorem State.at_cage (s : State) (t) : (s.at t).cage = s.cage := rfl
@[simp] theorem State.at_coherence (s : State) (t) : (s.at t).coherence = s.coherence := rfl
@[simp] theorem State.at_cores (s : State) (t) : (s.at t).cores = s.cores := rfl
@[simp] theorem State.at_assay (s : State) (t) : (s.at t).assay = s.assay := rfl
@[simp] theorem State.at_media (s : State) (t) : (s.at t).media = s.media := rfl
@[simp] theorem State.at_log (s : State) (t) : (s.at t).log = s.log := rfl
@[simp] theorem State.at_fabric (s : State) (t) : (s.at t).fabric = s.fabric := rfl
@[simp] theorem State.at_pair (s : State) (t) : (s.at t).pair = s.pair := rfl
@[simp] theorem State.at_const (s : State) (t) : (s.at t).const = s.const := rfl
@[simp] theorem State.at_power (s : State) (t) : (s.at t).power = s.power := rfl
@[simp] theorem State.at_units (s : State) (t) : (s.at t).units = s.units := rfl
@[simp] theorem State.at_flash (s : State) (t) : (s.at t).flash = s.flash := rfl
@[simp] theorem State.at_activation (s : State) (t) : (s.at t).activation = s.activation := rfl
@[simp] theorem State.at_startup (s : State) (t) : (s.at t).startup = s.startup := rfl
@[simp] theorem State.at_saved (s : State) (t) : (s.at t).saved = s.saved := rfl
@[simp] theorem State.at_almanac (s : State) (t) : (s.at t).almanac = s.almanac := rfl
@[simp] theorem State.at_global (s : State) (t) : (s.at t).global = s.global := rfl
@[simp] theorem State.at_blocks (s : State) (t) : (s.at t).blocks = s.blocks := rfl
@[simp] theorem State.at_tally (s : State) (t) : (s.at t).tally = s.tally := rfl
@[simp] theorem State.at_tailings (s : State) (t) : (s.at t).tailings = s.tailings := rfl
@[simp] theorem State.at_manage (s : State) (t) : (s.at t).manage = s.manage := rfl
@[simp] theorem State.at_pending (s : State) (t) : (s.at t).pending = s.pending := rfl

/-! `setCtrl` -/

@[simp] theorem State.setCtrl_now (s : State) (fn c) : (s.setCtrl fn c).now = s.now := rfl
@[simp] theorem State.setCtrl_free (s : State) (fn c) : (s.setCtrl fn c).free = s.free := rfl
@[simp] theorem State.setCtrl_meridian (s : State) (fn c) : (s.setCtrl fn c).meridian = s.meridian := rfl
@[simp] theorem State.setCtrl_orrery (s : State) (fn c) : (s.setCtrl fn c).orrery = s.orrery := rfl
@[simp] theorem State.setCtrl_lodestar (s : State) (fn c) : (s.setCtrl fn c).lodestar = s.lodestar := rfl
@[simp] theorem State.setCtrl_packets (s : State) (fn c) : (s.setCtrl fn c).packets = s.packets := rfl
@[simp] theorem State.setCtrl_objects (s : State) (fn c) : (s.setCtrl fn c).objects = s.objects := rfl
@[simp] theorem State.setCtrl_cage (s : State) (fn c) : (s.setCtrl fn c).cage = s.cage := rfl
@[simp] theorem State.setCtrl_coherence (s : State) (fn c) : (s.setCtrl fn c).coherence = s.coherence := rfl
@[simp] theorem State.setCtrl_cores (s : State) (fn c) : (s.setCtrl fn c).cores = s.cores := rfl
@[simp] theorem State.setCtrl_assay (s : State) (fn c) : (s.setCtrl fn c).assay = s.assay := rfl
@[simp] theorem State.setCtrl_media (s : State) (fn c) : (s.setCtrl fn c).media = s.media := rfl
@[simp] theorem State.setCtrl_log (s : State) (fn c) : (s.setCtrl fn c).log = s.log := rfl
@[simp] theorem State.setCtrl_fabric (s : State) (fn c) : (s.setCtrl fn c).fabric = s.fabric := rfl
@[simp] theorem State.setCtrl_pair (s : State) (fn c) : (s.setCtrl fn c).pair = s.pair := rfl
@[simp] theorem State.setCtrl_const (s : State) (fn c) : (s.setCtrl fn c).const = s.const := rfl
@[simp] theorem State.setCtrl_power (s : State) (fn c) : (s.setCtrl fn c).power = s.power := rfl
@[simp] theorem State.setCtrl_units (s : State) (fn c) : (s.setCtrl fn c).units = s.units := rfl
@[simp] theorem State.setCtrl_flash (s : State) (fn c) : (s.setCtrl fn c).flash = s.flash := rfl
@[simp] theorem State.setCtrl_activation (s : State) (fn c) : (s.setCtrl fn c).activation = s.activation := rfl
@[simp] theorem State.setCtrl_startup (s : State) (fn c) : (s.setCtrl fn c).startup = s.startup := rfl
@[simp] theorem State.setCtrl_saved (s : State) (fn c) : (s.setCtrl fn c).saved = s.saved := rfl
@[simp] theorem State.setCtrl_almanac (s : State) (fn c) : (s.setCtrl fn c).almanac = s.almanac := rfl
@[simp] theorem State.setCtrl_global (s : State) (fn c) : (s.setCtrl fn c).global = s.global := rfl
@[simp] theorem State.setCtrl_blocks (s : State) (fn c) : (s.setCtrl fn c).blocks = s.blocks := rfl
@[simp] theorem State.setCtrl_tally (s : State) (fn c) : (s.setCtrl fn c).tally = s.tally := rfl
@[simp] theorem State.setCtrl_tailings (s : State) (fn c) : (s.setCtrl fn c).tailings = s.tailings := rfl
@[simp] theorem State.setCtrl_manage (s : State) (fn c) : (s.setCtrl fn c).manage = s.manage := rfl
@[simp] theorem State.setCtrl_pending (s : State) (fn c) : (s.setCtrl fn c).pending = s.pending := rfl

/-! `setCompute` -/

@[simp] theorem State.setCompute_now (s : State) (fn c) : (s.setCompute fn c).now = s.now := rfl
@[simp] theorem State.setCompute_free (s : State) (fn c) : (s.setCompute fn c).free = s.free := rfl
@[simp] theorem State.setCompute_meridian (s : State) (fn c) : (s.setCompute fn c).meridian = s.meridian := rfl
@[simp] theorem State.setCompute_orrery (s : State) (fn c) : (s.setCompute fn c).orrery = s.orrery := rfl
@[simp] theorem State.setCompute_lodestar (s : State) (fn c) : (s.setCompute fn c).lodestar = s.lodestar := rfl
@[simp] theorem State.setCompute_packets (s : State) (fn c) : (s.setCompute fn c).packets = s.packets := rfl
@[simp] theorem State.setCompute_objects (s : State) (fn c) : (s.setCompute fn c).objects = s.objects := rfl
@[simp] theorem State.setCompute_cage (s : State) (fn c) : (s.setCompute fn c).cage = s.cage := rfl
@[simp] theorem State.setCompute_coherence (s : State) (fn c) : (s.setCompute fn c).coherence = s.coherence := rfl
@[simp] theorem State.setCompute_cores (s : State) (fn c) : (s.setCompute fn c).cores = s.cores := rfl
@[simp] theorem State.setCompute_assay (s : State) (fn c) : (s.setCompute fn c).assay = s.assay := rfl
@[simp] theorem State.setCompute_media (s : State) (fn c) : (s.setCompute fn c).media = s.media := rfl
@[simp] theorem State.setCompute_log (s : State) (fn c) : (s.setCompute fn c).log = s.log := rfl
@[simp] theorem State.setCompute_fabric (s : State) (fn c) : (s.setCompute fn c).fabric = s.fabric := rfl
@[simp] theorem State.setCompute_pair (s : State) (fn c) : (s.setCompute fn c).pair = s.pair := rfl
@[simp] theorem State.setCompute_const (s : State) (fn c) : (s.setCompute fn c).const = s.const := rfl
@[simp] theorem State.setCompute_power (s : State) (fn c) : (s.setCompute fn c).power = s.power := rfl
@[simp] theorem State.setCompute_units (s : State) (fn c) : (s.setCompute fn c).units = s.units := rfl
@[simp] theorem State.setCompute_flash (s : State) (fn c) : (s.setCompute fn c).flash = s.flash := rfl
@[simp] theorem State.setCompute_activation (s : State) (fn c) : (s.setCompute fn c).activation = s.activation := rfl
@[simp] theorem State.setCompute_startup (s : State) (fn c) : (s.setCompute fn c).startup = s.startup := rfl
@[simp] theorem State.setCompute_saved (s : State) (fn c) : (s.setCompute fn c).saved = s.saved := rfl
@[simp] theorem State.setCompute_almanac (s : State) (fn c) : (s.setCompute fn c).almanac = s.almanac := rfl
@[simp] theorem State.setCompute_global (s : State) (fn c) : (s.setCompute fn c).global = s.global := rfl
@[simp] theorem State.setCompute_blocks (s : State) (fn c) : (s.setCompute fn c).blocks = s.blocks := rfl
@[simp] theorem State.setCompute_tally (s : State) (fn c) : (s.setCompute fn c).tally = s.tally := rfl
@[simp] theorem State.setCompute_tailings (s : State) (fn c) : (s.setCompute fn c).tailings = s.tailings := rfl
@[simp] theorem State.setCompute_manage (s : State) (fn c) : (s.setCompute fn c).manage = s.manage := rfl
@[simp] theorem State.setCompute_pending (s : State) (fn c) : (s.setCompute fn c).pending = s.pending := rfl

/-! `setCore` -/

@[simp] theorem State.setCore_now (s : State) (n c) : (s.setCore n c).now = s.now := rfl
@[simp] theorem State.setCore_free (s : State) (n c) : (s.setCore n c).free = s.free := rfl
@[simp] theorem State.setCore_meridian (s : State) (n c) : (s.setCore n c).meridian = s.meridian := rfl
@[simp] theorem State.setCore_orrery (s : State) (n c) : (s.setCore n c).orrery = s.orrery := rfl
@[simp] theorem State.setCore_lodestar (s : State) (n c) : (s.setCore n c).lodestar = s.lodestar := rfl
@[simp] theorem State.setCore_link (s : State) (n c) : (s.setCore n c).link = s.link := rfl
@[simp] theorem State.setCore_packets (s : State) (n c) : (s.setCore n c).packets = s.packets := rfl
@[simp] theorem State.setCore_objects (s : State) (n c) : (s.setCore n c).objects = s.objects := rfl
@[simp] theorem State.setCore_cage (s : State) (n c) : (s.setCore n c).cage = s.cage := rfl
@[simp] theorem State.setCore_coherence (s : State) (n c) : (s.setCore n c).coherence = s.coherence := rfl
@[simp] theorem State.setCore_assay (s : State) (n c) : (s.setCore n c).assay = s.assay := rfl
@[simp] theorem State.setCore_media (s : State) (n c) : (s.setCore n c).media = s.media := rfl
@[simp] theorem State.setCore_log (s : State) (n c) : (s.setCore n c).log = s.log := rfl
@[simp] theorem State.setCore_fabric (s : State) (n c) : (s.setCore n c).fabric = s.fabric := rfl
@[simp] theorem State.setCore_pair (s : State) (n c) : (s.setCore n c).pair = s.pair := rfl
@[simp] theorem State.setCore_const (s : State) (n c) : (s.setCore n c).const = s.const := rfl
@[simp] theorem State.setCore_power (s : State) (n c) : (s.setCore n c).power = s.power := rfl
@[simp] theorem State.setCore_units (s : State) (n c) : (s.setCore n c).units = s.units := rfl
@[simp] theorem State.setCore_flash (s : State) (n c) : (s.setCore n c).flash = s.flash := rfl
@[simp] theorem State.setCore_activation (s : State) (n c) : (s.setCore n c).activation = s.activation := rfl
@[simp] theorem State.setCore_startup (s : State) (n c) : (s.setCore n c).startup = s.startup := rfl
@[simp] theorem State.setCore_saved (s : State) (n c) : (s.setCore n c).saved = s.saved := rfl
@[simp] theorem State.setCore_almanac (s : State) (n c) : (s.setCore n c).almanac = s.almanac := rfl
@[simp] theorem State.setCore_global (s : State) (n c) : (s.setCore n c).global = s.global := rfl
@[simp] theorem State.setCore_blocks (s : State) (n c) : (s.setCore n c).blocks = s.blocks := rfl
@[simp] theorem State.setCore_tally (s : State) (n c) : (s.setCore n c).tally = s.tally := rfl
@[simp] theorem State.setCore_tailings (s : State) (n c) : (s.setCore n c).tailings = s.tailings := rfl
@[simp] theorem State.setCore_manage (s : State) (n c) : (s.setCore n c).manage = s.manage := rfl
@[simp] theorem State.setCore_pending (s : State) (n c) : (s.setCore n c).pending = s.pending := rfl

/-! `modSteward` -/

@[simp] theorem State.modSteward_now (s : State) (n f) : (s.modSteward n f).now = s.now := rfl
@[simp] theorem State.modSteward_free (s : State) (n f) : (s.modSteward n f).free = s.free := rfl
@[simp] theorem State.modSteward_meridian (s : State) (n f) : (s.modSteward n f).meridian = s.meridian := rfl
@[simp] theorem State.modSteward_orrery (s : State) (n f) : (s.modSteward n f).orrery = s.orrery := rfl
@[simp] theorem State.modSteward_lodestar (s : State) (n f) : (s.modSteward n f).lodestar = s.lodestar := rfl
@[simp] theorem State.modSteward_link (s : State) (n f) : (s.modSteward n f).link = s.link := rfl
@[simp] theorem State.modSteward_packets (s : State) (n f) : (s.modSteward n f).packets = s.packets := rfl
@[simp] theorem State.modSteward_objects (s : State) (n f) : (s.modSteward n f).objects = s.objects := rfl
@[simp] theorem State.modSteward_cage (s : State) (n f) : (s.modSteward n f).cage = s.cage := rfl
@[simp] theorem State.modSteward_cores (s : State) (n f) : (s.modSteward n f).cores = s.cores := rfl
@[simp] theorem State.modSteward_assay (s : State) (n f) : (s.modSteward n f).assay = s.assay := rfl
@[simp] theorem State.modSteward_media (s : State) (n f) : (s.modSteward n f).media = s.media := rfl
@[simp] theorem State.modSteward_log (s : State) (n f) : (s.modSteward n f).log = s.log := rfl
@[simp] theorem State.modSteward_fabric (s : State) (n f) : (s.modSteward n f).fabric = s.fabric := rfl
@[simp] theorem State.modSteward_pair (s : State) (n f) : (s.modSteward n f).pair = s.pair := rfl
@[simp] theorem State.modSteward_const (s : State) (n f) : (s.modSteward n f).const = s.const := rfl
@[simp] theorem State.modSteward_power (s : State) (n f) : (s.modSteward n f).power = s.power := rfl
@[simp] theorem State.modSteward_units (s : State) (n f) : (s.modSteward n f).units = s.units := rfl
@[simp] theorem State.modSteward_flash (s : State) (n f) : (s.modSteward n f).flash = s.flash := rfl
@[simp] theorem State.modSteward_activation (s : State) (n f) : (s.modSteward n f).activation = s.activation := rfl
@[simp] theorem State.modSteward_startup (s : State) (n f) : (s.modSteward n f).startup = s.startup := rfl
@[simp] theorem State.modSteward_saved (s : State) (n f) : (s.modSteward n f).saved = s.saved := rfl
@[simp] theorem State.modSteward_almanac (s : State) (n f) : (s.modSteward n f).almanac = s.almanac := rfl
@[simp] theorem State.modSteward_global (s : State) (n f) : (s.modSteward n f).global = s.global := rfl
@[simp] theorem State.modSteward_blocks (s : State) (n f) : (s.modSteward n f).blocks = s.blocks := rfl
@[simp] theorem State.modSteward_tally (s : State) (n f) : (s.modSteward n f).tally = s.tally := rfl
@[simp] theorem State.modSteward_tailings (s : State) (n f) : (s.modSteward n f).tailings = s.tailings := rfl
@[simp] theorem State.modSteward_manage (s : State) (n f) : (s.modSteward n f).manage = s.manage := rfl
@[simp] theorem State.modSteward_pending (s : State) (n f) : (s.modSteward n f).pending = s.pending := rfl

/-! `modDrift` -/

@[simp] theorem State.modDrift_now (s : State) (c f) : (s.modDrift c f).now = s.now := rfl
@[simp] theorem State.modDrift_free (s : State) (c f) : (s.modDrift c f).free = s.free := rfl
@[simp] theorem State.modDrift_meridian (s : State) (c f) : (s.modDrift c f).meridian = s.meridian := rfl
@[simp] theorem State.modDrift_orrery (s : State) (c f) : (s.modDrift c f).orrery = s.orrery := rfl
@[simp] theorem State.modDrift_lodestar (s : State) (c f) : (s.modDrift c f).lodestar = s.lodestar := rfl
@[simp] theorem State.modDrift_link (s : State) (c f) : (s.modDrift c f).link = s.link := rfl
@[simp] theorem State.modDrift_packets (s : State) (c f) : (s.modDrift c f).packets = s.packets := rfl
@[simp] theorem State.modDrift_objects (s : State) (c f) : (s.modDrift c f).objects = s.objects := rfl
@[simp] theorem State.modDrift_cage (s : State) (c f) : (s.modDrift c f).cage = s.cage := rfl
@[simp] theorem State.modDrift_coherence (s : State) (c f) : (s.modDrift c f).coherence = s.coherence := rfl
@[simp] theorem State.modDrift_cores (s : State) (c f) : (s.modDrift c f).cores = s.cores := rfl
@[simp] theorem State.modDrift_assay (s : State) (c f) : (s.modDrift c f).assay = s.assay := rfl
@[simp] theorem State.modDrift_log (s : State) (c f) : (s.modDrift c f).log = s.log := rfl
@[simp] theorem State.modDrift_fabric (s : State) (c f) : (s.modDrift c f).fabric = s.fabric := rfl
@[simp] theorem State.modDrift_pair (s : State) (c f) : (s.modDrift c f).pair = s.pair := rfl
@[simp] theorem State.modDrift_const (s : State) (c f) : (s.modDrift c f).const = s.const := rfl
@[simp] theorem State.modDrift_power (s : State) (c f) : (s.modDrift c f).power = s.power := rfl
@[simp] theorem State.modDrift_units (s : State) (c f) : (s.modDrift c f).units = s.units := rfl
@[simp] theorem State.modDrift_flash (s : State) (c f) : (s.modDrift c f).flash = s.flash := rfl
@[simp] theorem State.modDrift_activation (s : State) (c f) : (s.modDrift c f).activation = s.activation := rfl
@[simp] theorem State.modDrift_startup (s : State) (c f) : (s.modDrift c f).startup = s.startup := rfl
@[simp] theorem State.modDrift_saved (s : State) (c f) : (s.modDrift c f).saved = s.saved := rfl
@[simp] theorem State.modDrift_almanac (s : State) (c f) : (s.modDrift c f).almanac = s.almanac := rfl
@[simp] theorem State.modDrift_global (s : State) (c f) : (s.modDrift c f).global = s.global := rfl
@[simp] theorem State.modDrift_blocks (s : State) (c f) : (s.modDrift c f).blocks = s.blocks := rfl
@[simp] theorem State.modDrift_tally (s : State) (c f) : (s.modDrift c f).tally = s.tally := rfl
@[simp] theorem State.modDrift_tailings (s : State) (c f) : (s.modDrift c f).tailings = s.tailings := rfl
@[simp] theorem State.modDrift_manage (s : State) (c f) : (s.modDrift c f).manage = s.manage := rfl
@[simp] theorem State.modDrift_pending (s : State) (c f) : (s.modDrift c f).pending = s.pending := rfl

/-! `modDie` -/

@[simp] theorem State.modDie_now (s : State) (c i f) : (s.modDie c i f).now = s.now := rfl
@[simp] theorem State.modDie_free (s : State) (c i f) : (s.modDie c i f).free = s.free := rfl
@[simp] theorem State.modDie_meridian (s : State) (c i f) : (s.modDie c i f).meridian = s.meridian := rfl
@[simp] theorem State.modDie_orrery (s : State) (c i f) : (s.modDie c i f).orrery = s.orrery := rfl
@[simp] theorem State.modDie_lodestar (s : State) (c i f) : (s.modDie c i f).lodestar = s.lodestar := rfl
@[simp] theorem State.modDie_link (s : State) (c i f) : (s.modDie c i f).link = s.link := rfl
@[simp] theorem State.modDie_packets (s : State) (c i f) : (s.modDie c i f).packets = s.packets := rfl
@[simp] theorem State.modDie_objects (s : State) (c i f) : (s.modDie c i f).objects = s.objects := rfl
@[simp] theorem State.modDie_cage (s : State) (c i f) : (s.modDie c i f).cage = s.cage := rfl
@[simp] theorem State.modDie_coherence (s : State) (c i f) : (s.modDie c i f).coherence = s.coherence := rfl
@[simp] theorem State.modDie_cores (s : State) (c i f) : (s.modDie c i f).cores = s.cores := rfl
@[simp] theorem State.modDie_assay (s : State) (c i f) : (s.modDie c i f).assay = s.assay := rfl
@[simp] theorem State.modDie_log (s : State) (c i f) : (s.modDie c i f).log = s.log := rfl
@[simp] theorem State.modDie_fabric (s : State) (c i f) : (s.modDie c i f).fabric = s.fabric := rfl
@[simp] theorem State.modDie_pair (s : State) (c i f) : (s.modDie c i f).pair = s.pair := rfl
@[simp] theorem State.modDie_const (s : State) (c i f) : (s.modDie c i f).const = s.const := rfl
@[simp] theorem State.modDie_power (s : State) (c i f) : (s.modDie c i f).power = s.power := rfl
@[simp] theorem State.modDie_units (s : State) (c i f) : (s.modDie c i f).units = s.units := rfl
@[simp] theorem State.modDie_flash (s : State) (c i f) : (s.modDie c i f).flash = s.flash := rfl
@[simp] theorem State.modDie_activation (s : State) (c i f) : (s.modDie c i f).activation = s.activation := rfl
@[simp] theorem State.modDie_startup (s : State) (c i f) : (s.modDie c i f).startup = s.startup := rfl
@[simp] theorem State.modDie_saved (s : State) (c i f) : (s.modDie c i f).saved = s.saved := rfl
@[simp] theorem State.modDie_almanac (s : State) (c i f) : (s.modDie c i f).almanac = s.almanac := rfl
@[simp] theorem State.modDie_global (s : State) (c i f) : (s.modDie c i f).global = s.global := rfl
@[simp] theorem State.modDie_blocks (s : State) (c i f) : (s.modDie c i f).blocks = s.blocks := rfl
@[simp] theorem State.modDie_tally (s : State) (c i f) : (s.modDie c i f).tally = s.tally := rfl
@[simp] theorem State.modDie_tailings (s : State) (c i f) : (s.modDie c i f).tailings = s.tailings := rfl
@[simp] theorem State.modDie_manage (s : State) (c i f) : (s.modDie c i f).manage = s.manage := rfl
@[simp] theorem State.modDie_pending (s : State) (c i f) : (s.modDie c i f).pending = s.pending := rfl

/-! `modQuad` -/

@[simp] theorem State.modQuad_now (s : State) (c i b f) : (s.modQuad c i b f).now = s.now := rfl
@[simp] theorem State.modQuad_free (s : State) (c i b f) : (s.modQuad c i b f).free = s.free := rfl
@[simp] theorem State.modQuad_meridian (s : State) (c i b f) : (s.modQuad c i b f).meridian = s.meridian := rfl
@[simp] theorem State.modQuad_orrery (s : State) (c i b f) : (s.modQuad c i b f).orrery = s.orrery := rfl
@[simp] theorem State.modQuad_lodestar (s : State) (c i b f) : (s.modQuad c i b f).lodestar = s.lodestar := rfl
@[simp] theorem State.modQuad_link (s : State) (c i b f) : (s.modQuad c i b f).link = s.link := rfl
@[simp] theorem State.modQuad_packets (s : State) (c i b f) : (s.modQuad c i b f).packets = s.packets := rfl
@[simp] theorem State.modQuad_objects (s : State) (c i b f) : (s.modQuad c i b f).objects = s.objects := rfl
@[simp] theorem State.modQuad_cage (s : State) (c i b f) : (s.modQuad c i b f).cage = s.cage := rfl
@[simp] theorem State.modQuad_coherence (s : State) (c i b f) : (s.modQuad c i b f).coherence = s.coherence := rfl
@[simp] theorem State.modQuad_cores (s : State) (c i b f) : (s.modQuad c i b f).cores = s.cores := rfl
@[simp] theorem State.modQuad_assay (s : State) (c i b f) : (s.modQuad c i b f).assay = s.assay := rfl
@[simp] theorem State.modQuad_log (s : State) (c i b f) : (s.modQuad c i b f).log = s.log := rfl
@[simp] theorem State.modQuad_fabric (s : State) (c i b f) : (s.modQuad c i b f).fabric = s.fabric := rfl
@[simp] theorem State.modQuad_pair (s : State) (c i b f) : (s.modQuad c i b f).pair = s.pair := rfl
@[simp] theorem State.modQuad_const (s : State) (c i b f) : (s.modQuad c i b f).const = s.const := rfl
@[simp] theorem State.modQuad_power (s : State) (c i b f) : (s.modQuad c i b f).power = s.power := rfl
@[simp] theorem State.modQuad_units (s : State) (c i b f) : (s.modQuad c i b f).units = s.units := rfl
@[simp] theorem State.modQuad_flash (s : State) (c i b f) : (s.modQuad c i b f).flash = s.flash := rfl
@[simp] theorem State.modQuad_activation (s : State) (c i b f) : (s.modQuad c i b f).activation = s.activation := rfl
@[simp] theorem State.modQuad_startup (s : State) (c i b f) : (s.modQuad c i b f).startup = s.startup := rfl
@[simp] theorem State.modQuad_saved (s : State) (c i b f) : (s.modQuad c i b f).saved = s.saved := rfl
@[simp] theorem State.modQuad_almanac (s : State) (c i b f) : (s.modQuad c i b f).almanac = s.almanac := rfl
@[simp] theorem State.modQuad_global (s : State) (c i b f) : (s.modQuad c i b f).global = s.global := rfl
@[simp] theorem State.modQuad_blocks (s : State) (c i b f) : (s.modQuad c i b f).blocks = s.blocks := rfl
@[simp] theorem State.modQuad_tally (s : State) (c i b f) : (s.modQuad c i b f).tally = s.tally := rfl
@[simp] theorem State.modQuad_tailings (s : State) (c i b f) : (s.modQuad c i b f).tailings = s.tailings := rfl
@[simp] theorem State.modQuad_manage (s : State) (c i b f) : (s.modQuad c i b f).manage = s.manage := rfl
@[simp] theorem State.modQuad_pending (s : State) (c i b f) : (s.modQuad c i b f).pending = s.pending := rfl

/-! `modUnit` -/

@[simp] theorem State.modUnit_now (s : State) (u f) : (s.modUnit u f).now = s.now := rfl
@[simp] theorem State.modUnit_free (s : State) (u f) : (s.modUnit u f).free = s.free := rfl
@[simp] theorem State.modUnit_meridian (s : State) (u f) : (s.modUnit u f).meridian = s.meridian := rfl
@[simp] theorem State.modUnit_orrery (s : State) (u f) : (s.modUnit u f).orrery = s.orrery := rfl
@[simp] theorem State.modUnit_lodestar (s : State) (u f) : (s.modUnit u f).lodestar = s.lodestar := rfl
@[simp] theorem State.modUnit_link (s : State) (u f) : (s.modUnit u f).link = s.link := rfl
@[simp] theorem State.modUnit_packets (s : State) (u f) : (s.modUnit u f).packets = s.packets := rfl
@[simp] theorem State.modUnit_objects (s : State) (u f) : (s.modUnit u f).objects = s.objects := rfl
@[simp] theorem State.modUnit_cage (s : State) (u f) : (s.modUnit u f).cage = s.cage := rfl
@[simp] theorem State.modUnit_coherence (s : State) (u f) : (s.modUnit u f).coherence = s.coherence := rfl
@[simp] theorem State.modUnit_cores (s : State) (u f) : (s.modUnit u f).cores = s.cores := rfl
@[simp] theorem State.modUnit_assay (s : State) (u f) : (s.modUnit u f).assay = s.assay := rfl
@[simp] theorem State.modUnit_media (s : State) (u f) : (s.modUnit u f).media = s.media := rfl
@[simp] theorem State.modUnit_log (s : State) (u f) : (s.modUnit u f).log = s.log := rfl
@[simp] theorem State.modUnit_fabric (s : State) (u f) : (s.modUnit u f).fabric = s.fabric := rfl
@[simp] theorem State.modUnit_pair (s : State) (u f) : (s.modUnit u f).pair = s.pair := rfl
@[simp] theorem State.modUnit_const (s : State) (u f) : (s.modUnit u f).const = s.const := rfl
@[simp] theorem State.modUnit_power (s : State) (u f) : (s.modUnit u f).power = s.power := rfl
@[simp] theorem State.modUnit_flash (s : State) (u f) : (s.modUnit u f).flash = s.flash := rfl
@[simp] theorem State.modUnit_activation (s : State) (u f) : (s.modUnit u f).activation = s.activation := rfl
@[simp] theorem State.modUnit_startup (s : State) (u f) : (s.modUnit u f).startup = s.startup := rfl
@[simp] theorem State.modUnit_saved (s : State) (u f) : (s.modUnit u f).saved = s.saved := rfl
@[simp] theorem State.modUnit_almanac (s : State) (u f) : (s.modUnit u f).almanac = s.almanac := rfl
@[simp] theorem State.modUnit_global (s : State) (u f) : (s.modUnit u f).global = s.global := rfl
@[simp] theorem State.modUnit_blocks (s : State) (u f) : (s.modUnit u f).blocks = s.blocks := rfl
@[simp] theorem State.modUnit_tally (s : State) (u f) : (s.modUnit u f).tally = s.tally := rfl
@[simp] theorem State.modUnit_tailings (s : State) (u f) : (s.modUnit u f).tailings = s.tailings := rfl
@[simp] theorem State.modUnit_manage (s : State) (u f) : (s.modUnit u f).manage = s.manage := rfl
@[simp] theorem State.modUnit_pending (s : State) (u f) : (s.modUnit u f).pending = s.pending := rfl

/-! `modPacket` -/

@[simp] theorem State.modPacket_now (s : State) (key f) : (s.modPacket key f).now = s.now := rfl
@[simp] theorem State.modPacket_free (s : State) (key f) : (s.modPacket key f).free = s.free := rfl
@[simp] theorem State.modPacket_meridian (s : State) (key f) : (s.modPacket key f).meridian = s.meridian := rfl
@[simp] theorem State.modPacket_orrery (s : State) (key f) : (s.modPacket key f).orrery = s.orrery := rfl
@[simp] theorem State.modPacket_lodestar (s : State) (key f) : (s.modPacket key f).lodestar = s.lodestar := rfl
@[simp] theorem State.modPacket_link (s : State) (key f) : (s.modPacket key f).link = s.link := rfl
@[simp] theorem State.modPacket_objects (s : State) (key f) : (s.modPacket key f).objects = s.objects := rfl
@[simp] theorem State.modPacket_cage (s : State) (key f) : (s.modPacket key f).cage = s.cage := rfl
@[simp] theorem State.modPacket_coherence (s : State) (key f) : (s.modPacket key f).coherence = s.coherence := rfl
@[simp] theorem State.modPacket_cores (s : State) (key f) : (s.modPacket key f).cores = s.cores := rfl
@[simp] theorem State.modPacket_assay (s : State) (key f) : (s.modPacket key f).assay = s.assay := rfl
@[simp] theorem State.modPacket_media (s : State) (key f) : (s.modPacket key f).media = s.media := rfl
@[simp] theorem State.modPacket_log (s : State) (key f) : (s.modPacket key f).log = s.log := rfl
@[simp] theorem State.modPacket_fabric (s : State) (key f) : (s.modPacket key f).fabric = s.fabric := rfl
@[simp] theorem State.modPacket_pair (s : State) (key f) : (s.modPacket key f).pair = s.pair := rfl
@[simp] theorem State.modPacket_const (s : State) (key f) : (s.modPacket key f).const = s.const := rfl
@[simp] theorem State.modPacket_power (s : State) (key f) : (s.modPacket key f).power = s.power := rfl
@[simp] theorem State.modPacket_units (s : State) (key f) : (s.modPacket key f).units = s.units := rfl
@[simp] theorem State.modPacket_flash (s : State) (key f) : (s.modPacket key f).flash = s.flash := rfl
@[simp] theorem State.modPacket_activation (s : State) (key f) : (s.modPacket key f).activation = s.activation := rfl
@[simp] theorem State.modPacket_startup (s : State) (key f) : (s.modPacket key f).startup = s.startup := rfl
@[simp] theorem State.modPacket_saved (s : State) (key f) : (s.modPacket key f).saved = s.saved := rfl
@[simp] theorem State.modPacket_almanac (s : State) (key f) : (s.modPacket key f).almanac = s.almanac := rfl
@[simp] theorem State.modPacket_global (s : State) (key f) : (s.modPacket key f).global = s.global := rfl
@[simp] theorem State.modPacket_blocks (s : State) (key f) : (s.modPacket key f).blocks = s.blocks := rfl
@[simp] theorem State.modPacket_tally (s : State) (key f) : (s.modPacket key f).tally = s.tally := rfl
@[simp] theorem State.modPacket_tailings (s : State) (key f) : (s.modPacket key f).tailings = s.tailings := rfl
@[simp] theorem State.modPacket_manage (s : State) (key f) : (s.modPacket key f).manage = s.manage := rfl
@[simp] theorem State.modPacket_pending (s : State) (key f) : (s.modPacket key f).pending = s.pending := rfl

/-! `modPort` -/

@[simp] theorem State.modPort_now (s : State) (p f) : (s.modPort p f).now = s.now := rfl
@[simp] theorem State.modPort_free (s : State) (p f) : (s.modPort p f).free = s.free := rfl
@[simp] theorem State.modPort_meridian (s : State) (p f) : (s.modPort p f).meridian = s.meridian := rfl
@[simp] theorem State.modPort_orrery (s : State) (p f) : (s.modPort p f).orrery = s.orrery := rfl
@[simp] theorem State.modPort_lodestar (s : State) (p f) : (s.modPort p f).lodestar = s.lodestar := rfl
@[simp] theorem State.modPort_link (s : State) (p f) : (s.modPort p f).link = s.link := rfl
@[simp] theorem State.modPort_packets (s : State) (p f) : (s.modPort p f).packets = s.packets := rfl
@[simp] theorem State.modPort_objects (s : State) (p f) : (s.modPort p f).objects = s.objects := rfl
@[simp] theorem State.modPort_cage (s : State) (p f) : (s.modPort p f).cage = s.cage := rfl
@[simp] theorem State.modPort_coherence (s : State) (p f) : (s.modPort p f).coherence = s.coherence := rfl
@[simp] theorem State.modPort_cores (s : State) (p f) : (s.modPort p f).cores = s.cores := rfl
@[simp] theorem State.modPort_assay (s : State) (p f) : (s.modPort p f).assay = s.assay := rfl
@[simp] theorem State.modPort_media (s : State) (p f) : (s.modPort p f).media = s.media := rfl
@[simp] theorem State.modPort_log (s : State) (p f) : (s.modPort p f).log = s.log := rfl
@[simp] theorem State.modPort_pair (s : State) (p f) : (s.modPort p f).pair = s.pair := rfl
@[simp] theorem State.modPort_const (s : State) (p f) : (s.modPort p f).const = s.const := rfl
@[simp] theorem State.modPort_power (s : State) (p f) : (s.modPort p f).power = s.power := rfl
@[simp] theorem State.modPort_units (s : State) (p f) : (s.modPort p f).units = s.units := rfl
@[simp] theorem State.modPort_flash (s : State) (p f) : (s.modPort p f).flash = s.flash := rfl
@[simp] theorem State.modPort_activation (s : State) (p f) : (s.modPort p f).activation = s.activation := rfl
@[simp] theorem State.modPort_startup (s : State) (p f) : (s.modPort p f).startup = s.startup := rfl
@[simp] theorem State.modPort_saved (s : State) (p f) : (s.modPort p f).saved = s.saved := rfl
@[simp] theorem State.modPort_almanac (s : State) (p f) : (s.modPort p f).almanac = s.almanac := rfl
@[simp] theorem State.modPort_global (s : State) (p f) : (s.modPort p f).global = s.global := rfl
@[simp] theorem State.modPort_blocks (s : State) (p f) : (s.modPort p f).blocks = s.blocks := rfl
@[simp] theorem State.modPort_tally (s : State) (p f) : (s.modPort p f).tally = s.tally := rfl
@[simp] theorem State.modPort_tailings (s : State) (p f) : (s.modPort p f).tailings = s.tailings := rfl
@[simp] theorem State.modPort_manage (s : State) (p f) : (s.modPort p f).manage = s.manage := rfl
@[simp] theorem State.modPort_pending (s : State) (p f) : (s.modPort p f).pending = s.pending := rfl

/-! `reply` -/

@[simp] theorem State.reply_now (s : State) (st bytes) : (s.reply st bytes).now = s.now := rfl
@[simp] theorem State.reply_free (s : State) (st bytes) : (s.reply st bytes).free = s.free := rfl
@[simp] theorem State.reply_meridian (s : State) (st bytes) : (s.reply st bytes).meridian = s.meridian := rfl
@[simp] theorem State.reply_orrery (s : State) (st bytes) : (s.reply st bytes).orrery = s.orrery := rfl
@[simp] theorem State.reply_lodestar (s : State) (st bytes) : (s.reply st bytes).lodestar = s.lodestar := rfl
@[simp] theorem State.reply_link (s : State) (st bytes) : (s.reply st bytes).link = s.link := rfl
@[simp] theorem State.reply_packets (s : State) (st bytes) : (s.reply st bytes).packets = s.packets := rfl
@[simp] theorem State.reply_objects (s : State) (st bytes) : (s.reply st bytes).objects = s.objects := rfl
@[simp] theorem State.reply_cage (s : State) (st bytes) : (s.reply st bytes).cage = s.cage := rfl
@[simp] theorem State.reply_coherence (s : State) (st bytes) : (s.reply st bytes).coherence = s.coherence := rfl
@[simp] theorem State.reply_cores (s : State) (st bytes) : (s.reply st bytes).cores = s.cores := rfl
@[simp] theorem State.reply_assay (s : State) (st bytes) : (s.reply st bytes).assay = s.assay := rfl
@[simp] theorem State.reply_media (s : State) (st bytes) : (s.reply st bytes).media = s.media := rfl
@[simp] theorem State.reply_log (s : State) (st bytes) : (s.reply st bytes).log = s.log := rfl
@[simp] theorem State.reply_fabric (s : State) (st bytes) : (s.reply st bytes).fabric = s.fabric := rfl
@[simp] theorem State.reply_pair (s : State) (st bytes) : (s.reply st bytes).pair = s.pair := rfl
@[simp] theorem State.reply_const (s : State) (st bytes) : (s.reply st bytes).const = s.const := rfl
@[simp] theorem State.reply_power (s : State) (st bytes) : (s.reply st bytes).power = s.power := rfl
@[simp] theorem State.reply_units (s : State) (st bytes) : (s.reply st bytes).units = s.units := rfl
@[simp] theorem State.reply_flash (s : State) (st bytes) : (s.reply st bytes).flash = s.flash := rfl
@[simp] theorem State.reply_activation (s : State) (st bytes) : (s.reply st bytes).activation = s.activation := rfl
@[simp] theorem State.reply_startup (s : State) (st bytes) : (s.reply st bytes).startup = s.startup := rfl
@[simp] theorem State.reply_saved (s : State) (st bytes) : (s.reply st bytes).saved = s.saved := rfl
@[simp] theorem State.reply_almanac (s : State) (st bytes) : (s.reply st bytes).almanac = s.almanac := rfl
@[simp] theorem State.reply_global (s : State) (st bytes) : (s.reply st bytes).global = s.global := rfl
@[simp] theorem State.reply_blocks (s : State) (st bytes) : (s.reply st bytes).blocks = s.blocks := rfl
@[simp] theorem State.reply_tally (s : State) (st bytes) : (s.reply st bytes).tally = s.tally := rfl
@[simp] theorem State.reply_tailings (s : State) (st bytes) : (s.reply st bytes).tailings = s.tailings := rfl
@[simp] theorem State.reply_pending (s : State) (st bytes) : (s.reply st bytes).pending = s.pending := rfl

/-! `smart` -/

@[simp] theorem State.smart_now (s : State) (fn f) : (s.smart fn f).now = s.now := rfl
@[simp] theorem State.smart_free (s : State) (fn f) : (s.smart fn f).free = s.free := rfl
@[simp] theorem State.smart_meridian (s : State) (fn f) : (s.smart fn f).meridian = s.meridian := rfl
@[simp] theorem State.smart_orrery (s : State) (fn f) : (s.smart fn f).orrery = s.orrery := rfl
@[simp] theorem State.smart_lodestar (s : State) (fn f) : (s.smart fn f).lodestar = s.lodestar := rfl
@[simp] theorem State.smart_link (s : State) (fn f) : (s.smart fn f).link = s.link := rfl
@[simp] theorem State.smart_packets (s : State) (fn f) : (s.smart fn f).packets = s.packets := rfl
@[simp] theorem State.smart_objects (s : State) (fn f) : (s.smart fn f).objects = s.objects := rfl
@[simp] theorem State.smart_cage (s : State) (fn f) : (s.smart fn f).cage = s.cage := rfl
@[simp] theorem State.smart_coherence (s : State) (fn f) : (s.smart fn f).coherence = s.coherence := rfl
@[simp] theorem State.smart_cores (s : State) (fn f) : (s.smart fn f).cores = s.cores := rfl
@[simp] theorem State.smart_assay (s : State) (fn f) : (s.smart fn f).assay = s.assay := rfl
@[simp] theorem State.smart_media (s : State) (fn f) : (s.smart fn f).media = s.media := rfl
@[simp] theorem State.smart_log (s : State) (fn f) : (s.smart fn f).log = s.log := rfl
@[simp] theorem State.smart_fabric (s : State) (fn f) : (s.smart fn f).fabric = s.fabric := rfl
@[simp] theorem State.smart_pair (s : State) (fn f) : (s.smart fn f).pair = s.pair := rfl
@[simp] theorem State.smart_const (s : State) (fn f) : (s.smart fn f).const = s.const := rfl
@[simp] theorem State.smart_power (s : State) (fn f) : (s.smart fn f).power = s.power := rfl
@[simp] theorem State.smart_units (s : State) (fn f) : (s.smart fn f).units = s.units := rfl
@[simp] theorem State.smart_flash (s : State) (fn f) : (s.smart fn f).flash = s.flash := rfl
@[simp] theorem State.smart_activation (s : State) (fn f) : (s.smart fn f).activation = s.activation := rfl
@[simp] theorem State.smart_startup (s : State) (fn f) : (s.smart fn f).startup = s.startup := rfl
@[simp] theorem State.smart_saved (s : State) (fn f) : (s.smart fn f).saved = s.saved := rfl
@[simp] theorem State.smart_almanac (s : State) (fn f) : (s.smart fn f).almanac = s.almanac := rfl
@[simp] theorem State.smart_global (s : State) (fn f) : (s.smart fn f).global = s.global := rfl
@[simp] theorem State.smart_blocks (s : State) (fn f) : (s.smart fn f).blocks = s.blocks := rfl
@[simp] theorem State.smart_tally (s : State) (fn f) : (s.smart fn f).tally = s.tally := rfl
@[simp] theorem State.smart_tailings (s : State) (fn f) : (s.smart fn f).tailings = s.tailings := rfl
@[simp] theorem State.smart_pending (s : State) (fn f) : (s.smart fn f).pending = s.pending := rfl

/-! `count` -/

@[simp] theorem State.count_now (s : State) (n r f v) : (s.count n r f v).now = s.now := rfl
@[simp] theorem State.count_free (s : State) (n r f v) : (s.count n r f v).free = s.free := rfl
@[simp] theorem State.count_meridian (s : State) (n r f v) : (s.count n r f v).meridian = s.meridian := rfl
@[simp] theorem State.count_orrery (s : State) (n r f v) : (s.count n r f v).orrery = s.orrery := rfl
@[simp] theorem State.count_lodestar (s : State) (n r f v) : (s.count n r f v).lodestar = s.lodestar := rfl
@[simp] theorem State.count_link (s : State) (n r f v) : (s.count n r f v).link = s.link := rfl
@[simp] theorem State.count_packets (s : State) (n r f v) : (s.count n r f v).packets = s.packets := rfl
@[simp] theorem State.count_objects (s : State) (n r f v) : (s.count n r f v).objects = s.objects := rfl
@[simp] theorem State.count_cage (s : State) (n r f v) : (s.count n r f v).cage = s.cage := rfl
@[simp] theorem State.count_coherence (s : State) (n r f v) : (s.count n r f v).coherence = s.coherence := rfl
@[simp] theorem State.count_cores (s : State) (n r f v) : (s.count n r f v).cores = s.cores := rfl
@[simp] theorem State.count_assay (s : State) (n r f v) : (s.count n r f v).assay = s.assay := rfl
@[simp] theorem State.count_media (s : State) (n r f v) : (s.count n r f v).media = s.media := rfl
@[simp] theorem State.count_log (s : State) (n r f v) : (s.count n r f v).log = s.log := rfl
@[simp] theorem State.count_fabric (s : State) (n r f v) : (s.count n r f v).fabric = s.fabric := rfl
@[simp] theorem State.count_pair (s : State) (n r f v) : (s.count n r f v).pair = s.pair := rfl
@[simp] theorem State.count_const (s : State) (n r f v) : (s.count n r f v).const = s.const := rfl
@[simp] theorem State.count_power (s : State) (n r f v) : (s.count n r f v).power = s.power := rfl
@[simp] theorem State.count_units (s : State) (n r f v) : (s.count n r f v).units = s.units := rfl
@[simp] theorem State.count_flash (s : State) (n r f v) : (s.count n r f v).flash = s.flash := rfl
@[simp] theorem State.count_activation (s : State) (n r f v) : (s.count n r f v).activation = s.activation := rfl
@[simp] theorem State.count_startup (s : State) (n r f v) : (s.count n r f v).startup = s.startup := rfl
@[simp] theorem State.count_saved (s : State) (n r f v) : (s.count n r f v).saved = s.saved := rfl
@[simp] theorem State.count_almanac (s : State) (n r f v) : (s.count n r f v).almanac = s.almanac := rfl
@[simp] theorem State.count_global (s : State) (n r f v) : (s.count n r f v).global = s.global := rfl
@[simp] theorem State.count_blocks (s : State) (n r f v) : (s.count n r f v).blocks = s.blocks := rfl
@[simp] theorem State.count_tailings (s : State) (n r f v) : (s.count n r f v).tailings = s.tailings := rfl
@[simp] theorem State.count_manage (s : State) (n r f v) : (s.count n r f v).manage = s.manage := rfl
@[simp] theorem State.count_pending (s : State) (n r f v) : (s.count n r f v).pending = s.pending := rfl

/-! `busyBegin` -/

@[simp] theorem State.busyBegin_now (s : State) (fn) : (s.busyBegin fn).now = s.now := rfl
@[simp] theorem State.busyBegin_free (s : State) (fn) : (s.busyBegin fn).free = s.free := rfl
@[simp] theorem State.busyBegin_meridian (s : State) (fn) : (s.busyBegin fn).meridian = s.meridian := rfl
@[simp] theorem State.busyBegin_orrery (s : State) (fn) : (s.busyBegin fn).orrery = s.orrery := rfl
@[simp] theorem State.busyBegin_lodestar (s : State) (fn) : (s.busyBegin fn).lodestar = s.lodestar := rfl
@[simp] theorem State.busyBegin_link (s : State) (fn) : (s.busyBegin fn).link = s.link := rfl
@[simp] theorem State.busyBegin_packets (s : State) (fn) : (s.busyBegin fn).packets = s.packets := rfl
@[simp] theorem State.busyBegin_objects (s : State) (fn) : (s.busyBegin fn).objects = s.objects := rfl
@[simp] theorem State.busyBegin_cage (s : State) (fn) : (s.busyBegin fn).cage = s.cage := rfl
@[simp] theorem State.busyBegin_coherence (s : State) (fn) : (s.busyBegin fn).coherence = s.coherence := rfl
@[simp] theorem State.busyBegin_cores (s : State) (fn) : (s.busyBegin fn).cores = s.cores := rfl
@[simp] theorem State.busyBegin_assay (s : State) (fn) : (s.busyBegin fn).assay = s.assay := rfl
@[simp] theorem State.busyBegin_media (s : State) (fn) : (s.busyBegin fn).media = s.media := rfl
@[simp] theorem State.busyBegin_log (s : State) (fn) : (s.busyBegin fn).log = s.log := rfl
@[simp] theorem State.busyBegin_fabric (s : State) (fn) : (s.busyBegin fn).fabric = s.fabric := rfl
@[simp] theorem State.busyBegin_pair (s : State) (fn) : (s.busyBegin fn).pair = s.pair := rfl
@[simp] theorem State.busyBegin_const (s : State) (fn) : (s.busyBegin fn).const = s.const := rfl
@[simp] theorem State.busyBegin_power (s : State) (fn) : (s.busyBegin fn).power = s.power := rfl
@[simp] theorem State.busyBegin_units (s : State) (fn) : (s.busyBegin fn).units = s.units := rfl
@[simp] theorem State.busyBegin_flash (s : State) (fn) : (s.busyBegin fn).flash = s.flash := rfl
@[simp] theorem State.busyBegin_activation (s : State) (fn) : (s.busyBegin fn).activation = s.activation := rfl
@[simp] theorem State.busyBegin_startup (s : State) (fn) : (s.busyBegin fn).startup = s.startup := rfl
@[simp] theorem State.busyBegin_saved (s : State) (fn) : (s.busyBegin fn).saved = s.saved := rfl
@[simp] theorem State.busyBegin_almanac (s : State) (fn) : (s.busyBegin fn).almanac = s.almanac := rfl
@[simp] theorem State.busyBegin_global (s : State) (fn) : (s.busyBegin fn).global = s.global := rfl
@[simp] theorem State.busyBegin_blocks (s : State) (fn) : (s.busyBegin fn).blocks = s.blocks := rfl
@[simp] theorem State.busyBegin_tally (s : State) (fn) : (s.busyBegin fn).tally = s.tally := rfl
@[simp] theorem State.busyBegin_tailings (s : State) (fn) : (s.busyBegin fn).tailings = s.tailings := rfl
@[simp] theorem State.busyBegin_pending (s : State) (fn) : (s.busyBegin fn).pending = s.pending := rfl

/-! `offWrite` -/

@[simp] theorem State.offWrite_now (s : State) : (s.offWrite).now = s.now := rfl
@[simp] theorem State.offWrite_free (s : State) : (s.offWrite).free = s.free := rfl
@[simp] theorem State.offWrite_meridian (s : State) : (s.offWrite).meridian = s.meridian := rfl
@[simp] theorem State.offWrite_orrery (s : State) : (s.offWrite).orrery = s.orrery := rfl
@[simp] theorem State.offWrite_lodestar (s : State) : (s.offWrite).lodestar = s.lodestar := rfl
@[simp] theorem State.offWrite_link (s : State) : (s.offWrite).link = s.link := rfl
@[simp] theorem State.offWrite_packets (s : State) : (s.offWrite).packets = s.packets := rfl
@[simp] theorem State.offWrite_objects (s : State) : (s.offWrite).objects = s.objects := rfl
@[simp] theorem State.offWrite_cage (s : State) : (s.offWrite).cage = s.cage := rfl
@[simp] theorem State.offWrite_coherence (s : State) : (s.offWrite).coherence = s.coherence := rfl
@[simp] theorem State.offWrite_cores (s : State) : (s.offWrite).cores = s.cores := rfl
@[simp] theorem State.offWrite_assay (s : State) : (s.offWrite).assay = s.assay := rfl
@[simp] theorem State.offWrite_media (s : State) : (s.offWrite).media = s.media := rfl
@[simp] theorem State.offWrite_log (s : State) : (s.offWrite).log = s.log := rfl
@[simp] theorem State.offWrite_fabric (s : State) : (s.offWrite).fabric = s.fabric := rfl
@[simp] theorem State.offWrite_pair (s : State) : (s.offWrite).pair = s.pair := rfl
@[simp] theorem State.offWrite_const (s : State) : (s.offWrite).const = s.const := rfl
@[simp] theorem State.offWrite_units (s : State) : (s.offWrite).units = s.units := rfl
@[simp] theorem State.offWrite_flash (s : State) : (s.offWrite).flash = s.flash := rfl
@[simp] theorem State.offWrite_activation (s : State) : (s.offWrite).activation = s.activation := rfl
@[simp] theorem State.offWrite_startup (s : State) : (s.offWrite).startup = s.startup := rfl
@[simp] theorem State.offWrite_saved (s : State) : (s.offWrite).saved = s.saved := rfl
@[simp] theorem State.offWrite_almanac (s : State) : (s.offWrite).almanac = s.almanac := rfl
@[simp] theorem State.offWrite_global (s : State) : (s.offWrite).global = s.global := rfl
@[simp] theorem State.offWrite_blocks (s : State) : (s.offWrite).blocks = s.blocks := rfl
@[simp] theorem State.offWrite_tally (s : State) : (s.offWrite).tally = s.tally := rfl
@[simp] theorem State.offWrite_tailings (s : State) : (s.offWrite).tailings = s.tailings := rfl
@[simp] theorem State.offWrite_manage (s : State) : (s.offWrite).manage = s.manage := rfl
@[simp] theorem State.offWrite_pending (s : State) : (s.offWrite).pending = s.pending := rfl

/-! `setWriting` -/

@[simp] theorem State.setWriting_now (s : State) (num on) : (s.setWriting num on).now = s.now := rfl
@[simp] theorem State.setWriting_free (s : State) (num on) : (s.setWriting num on).free = s.free := rfl
@[simp] theorem State.setWriting_meridian (s : State) (num on) : (s.setWriting num on).meridian = s.meridian := rfl
@[simp] theorem State.setWriting_orrery (s : State) (num on) : (s.setWriting num on).orrery = s.orrery := rfl
@[simp] theorem State.setWriting_lodestar (s : State) (num on) : (s.setWriting num on).lodestar = s.lodestar := rfl
@[simp] theorem State.setWriting_link (s : State) (num on) : (s.setWriting num on).link = s.link := rfl
@[simp] theorem State.setWriting_packets (s : State) (num on) : (s.setWriting num on).packets = s.packets := rfl
@[simp] theorem State.setWriting_cage (s : State) (num on) : (s.setWriting num on).cage = s.cage := rfl
@[simp] theorem State.setWriting_coherence (s : State) (num on) : (s.setWriting num on).coherence = s.coherence := rfl
@[simp] theorem State.setWriting_cores (s : State) (num on) : (s.setWriting num on).cores = s.cores := rfl
@[simp] theorem State.setWriting_assay (s : State) (num on) : (s.setWriting num on).assay = s.assay := rfl
@[simp] theorem State.setWriting_media (s : State) (num on) : (s.setWriting num on).media = s.media := rfl
@[simp] theorem State.setWriting_log (s : State) (num on) : (s.setWriting num on).log = s.log := rfl
@[simp] theorem State.setWriting_fabric (s : State) (num on) : (s.setWriting num on).fabric = s.fabric := rfl
@[simp] theorem State.setWriting_pair (s : State) (num on) : (s.setWriting num on).pair = s.pair := rfl
@[simp] theorem State.setWriting_const (s : State) (num on) : (s.setWriting num on).const = s.const := rfl
@[simp] theorem State.setWriting_power (s : State) (num on) : (s.setWriting num on).power = s.power := rfl
@[simp] theorem State.setWriting_units (s : State) (num on) : (s.setWriting num on).units = s.units := rfl
@[simp] theorem State.setWriting_flash (s : State) (num on) : (s.setWriting num on).flash = s.flash := rfl
@[simp] theorem State.setWriting_activation (s : State) (num on) : (s.setWriting num on).activation = s.activation := rfl
@[simp] theorem State.setWriting_startup (s : State) (num on) : (s.setWriting num on).startup = s.startup := rfl
@[simp] theorem State.setWriting_saved (s : State) (num on) : (s.setWriting num on).saved = s.saved := rfl
@[simp] theorem State.setWriting_almanac (s : State) (num on) : (s.setWriting num on).almanac = s.almanac := rfl
@[simp] theorem State.setWriting_global (s : State) (num on) : (s.setWriting num on).global = s.global := rfl
@[simp] theorem State.setWriting_blocks (s : State) (num on) : (s.setWriting num on).blocks = s.blocks := rfl
@[simp] theorem State.setWriting_tally (s : State) (num on) : (s.setWriting num on).tally = s.tally := rfl
@[simp] theorem State.setWriting_tailings (s : State) (num on) : (s.setWriting num on).tailings = s.tailings := rfl
@[simp] theorem State.setWriting_manage (s : State) (num on) : (s.setWriting num on).manage = s.manage := rfl
@[simp] theorem State.setWriting_pending (s : State) (num on) : (s.setWriting num on).pending = s.pending := rfl

/-! `wantLodes` -/

@[simp] theorem State.wantLodes_now (s : State) (o off n) : (s.wantLodes o off n).now = s.now := rfl
@[simp] theorem State.wantLodes_free (s : State) (o off n) : (s.wantLodes o off n).free = s.free := rfl
@[simp] theorem State.wantLodes_meridian (s : State) (o off n) : (s.wantLodes o off n).meridian = s.meridian := rfl
@[simp] theorem State.wantLodes_orrery (s : State) (o off n) : (s.wantLodes o off n).orrery = s.orrery := rfl
@[simp] theorem State.wantLodes_lodestar (s : State) (o off n) : (s.wantLodes o off n).lodestar = s.lodestar := rfl
@[simp] theorem State.wantLodes_link (s : State) (o off n) : (s.wantLodes o off n).link = s.link := rfl
@[simp] theorem State.wantLodes_packets (s : State) (o off n) : (s.wantLodes o off n).packets = s.packets := rfl
@[simp] theorem State.wantLodes_objects (s : State) (o off n) : (s.wantLodes o off n).objects = s.objects := rfl
@[simp] theorem State.wantLodes_coherence (s : State) (o off n) : (s.wantLodes o off n).coherence = s.coherence := rfl
@[simp] theorem State.wantLodes_cores (s : State) (o off n) : (s.wantLodes o off n).cores = s.cores := rfl
@[simp] theorem State.wantLodes_assay (s : State) (o off n) : (s.wantLodes o off n).assay = s.assay := rfl
@[simp] theorem State.wantLodes_media (s : State) (o off n) : (s.wantLodes o off n).media = s.media := rfl
@[simp] theorem State.wantLodes_log (s : State) (o off n) : (s.wantLodes o off n).log = s.log := rfl
@[simp] theorem State.wantLodes_fabric (s : State) (o off n) : (s.wantLodes o off n).fabric = s.fabric := rfl
@[simp] theorem State.wantLodes_pair (s : State) (o off n) : (s.wantLodes o off n).pair = s.pair := rfl
@[simp] theorem State.wantLodes_const (s : State) (o off n) : (s.wantLodes o off n).const = s.const := rfl
@[simp] theorem State.wantLodes_power (s : State) (o off n) : (s.wantLodes o off n).power = s.power := rfl
@[simp] theorem State.wantLodes_units (s : State) (o off n) : (s.wantLodes o off n).units = s.units := rfl
@[simp] theorem State.wantLodes_flash (s : State) (o off n) : (s.wantLodes o off n).flash = s.flash := rfl
@[simp] theorem State.wantLodes_activation (s : State) (o off n) : (s.wantLodes o off n).activation = s.activation := rfl
@[simp] theorem State.wantLodes_startup (s : State) (o off n) : (s.wantLodes o off n).startup = s.startup := rfl
@[simp] theorem State.wantLodes_saved (s : State) (o off n) : (s.wantLodes o off n).saved = s.saved := rfl
@[simp] theorem State.wantLodes_almanac (s : State) (o off n) : (s.wantLodes o off n).almanac = s.almanac := rfl
@[simp] theorem State.wantLodes_global (s : State) (o off n) : (s.wantLodes o off n).global = s.global := rfl
@[simp] theorem State.wantLodes_blocks (s : State) (o off n) : (s.wantLodes o off n).blocks = s.blocks := rfl
@[simp] theorem State.wantLodes_tally (s : State) (o off n) : (s.wantLodes o off n).tally = s.tally := rfl
@[simp] theorem State.wantLodes_tailings (s : State) (o off n) : (s.wantLodes o off n).tailings = s.tailings := rfl
@[simp] theorem State.wantLodes_manage (s : State) (o off n) : (s.wantLodes o off n).manage = s.manage := rfl
@[simp] theorem State.wantLodes_pending (s : State) (o off n) : (s.wantLodes o off n).pending = s.pending := rfl

/-! `nameSlot` -/

@[simp] theorem State.nameSlot_now (s : State) (k) : (s.nameSlot k).now = s.now := rfl
@[simp] theorem State.nameSlot_free (s : State) (k) : (s.nameSlot k).free = s.free := rfl
@[simp] theorem State.nameSlot_meridian (s : State) (k) : (s.nameSlot k).meridian = s.meridian := rfl
@[simp] theorem State.nameSlot_orrery (s : State) (k) : (s.nameSlot k).orrery = s.orrery := rfl
@[simp] theorem State.nameSlot_lodestar (s : State) (k) : (s.nameSlot k).lodestar = s.lodestar := rfl
@[simp] theorem State.nameSlot_link (s : State) (k) : (s.nameSlot k).link = s.link := rfl
@[simp] theorem State.nameSlot_packets (s : State) (k) : (s.nameSlot k).packets = s.packets := rfl
@[simp] theorem State.nameSlot_objects (s : State) (k) : (s.nameSlot k).objects = s.objects := rfl
@[simp] theorem State.nameSlot_cage (s : State) (k) : (s.nameSlot k).cage = s.cage := rfl
@[simp] theorem State.nameSlot_coherence (s : State) (k) : (s.nameSlot k).coherence = s.coherence := rfl
@[simp] theorem State.nameSlot_cores (s : State) (k) : (s.nameSlot k).cores = s.cores := rfl
@[simp] theorem State.nameSlot_assay (s : State) (k) : (s.nameSlot k).assay = s.assay := rfl
@[simp] theorem State.nameSlot_media (s : State) (k) : (s.nameSlot k).media = s.media := rfl
@[simp] theorem State.nameSlot_log (s : State) (k) : (s.nameSlot k).log = s.log := rfl
@[simp] theorem State.nameSlot_fabric (s : State) (k) : (s.nameSlot k).fabric = s.fabric := rfl
@[simp] theorem State.nameSlot_pair (s : State) (k) : (s.nameSlot k).pair = s.pair := rfl
@[simp] theorem State.nameSlot_const (s : State) (k) : (s.nameSlot k).const = s.const := rfl
@[simp] theorem State.nameSlot_power (s : State) (k) : (s.nameSlot k).power = s.power := rfl
@[simp] theorem State.nameSlot_units (s : State) (k) : (s.nameSlot k).units = s.units := rfl
@[simp] theorem State.nameSlot_activation (s : State) (k) : (s.nameSlot k).activation = s.activation := rfl
@[simp] theorem State.nameSlot_startup (s : State) (k) : (s.nameSlot k).startup = s.startup := rfl
@[simp] theorem State.nameSlot_saved (s : State) (k) : (s.nameSlot k).saved = s.saved := rfl
@[simp] theorem State.nameSlot_almanac (s : State) (k) : (s.nameSlot k).almanac = s.almanac := rfl
@[simp] theorem State.nameSlot_global (s : State) (k) : (s.nameSlot k).global = s.global := rfl
@[simp] theorem State.nameSlot_blocks (s : State) (k) : (s.nameSlot k).blocks = s.blocks := rfl
@[simp] theorem State.nameSlot_tally (s : State) (k) : (s.nameSlot k).tally = s.tally := rfl
@[simp] theorem State.nameSlot_tailings (s : State) (k) : (s.nameSlot k).tailings = s.tailings := rfl
@[simp] theorem State.nameSlot_manage (s : State) (k) : (s.nameSlot k).manage = s.manage := rfl
@[simp] theorem State.nameSlot_pending (s : State) (k) : (s.nameSlot k).pending = s.pending := rfl

/-! ### Operations that post, trace and raise -/

theorem State.postOn_changes (s : State) (fn cq e pk) : ∃ l, s.postOn fn cq e pk = { s with link := l } := by
  unfold State.postOn
  split
  · exact ⟨_, rfl⟩
  · exact ⟨s.link, rfl⟩

theorem State.completeOn_changes (s : State) (fn sq cid st a b) : ∃ l, s.completeOn fn sq cid st a b = { s with link := l } :=
  State.postOn_changes s _ _ _ _

theorem State.complete_changes (s : State) (q st a b) : ∃ l, s.complete q st a b = { s with link := l } := State.completeOn_changes s _ _ _ _ _ _

theorem State.toHost_changes (s : State) (q d) : ∃ l, s.toHost q d = { s with link := l } := by
  unfold State.toHost
  split
  · exact ⟨s.link, rfl⟩
  · exact ⟨_, rfl⟩

theorem State.trace_changes (s : State) (k n r d c) : ∃ l, s.trace k n r d c = { s with tailings := l } := by
  unfold State.trace
  dsimp only
  repeat' split
  all_goals first
    | exact ⟨s.tailings, rfl⟩
    | exact ⟨_, rfl⟩

theorem State.announceOn_changes (s : State) (fn) : ∃ l, s.announceOn fn = { s with link := l } := by
  unfold State.announceOn
  dsimp only
  repeat' split
  · exact ⟨s.link, rfl⟩
  · exact State.completeOn_changes _ _ _ _ _ _ _
  · exact ⟨s.link, rfl⟩

theorem State.announce_changes (s : State) (n) : ∃ l, s.announce n = { s with link := l } := by
  unfold State.announce
  generalize (s.link.controllers.map (·.1)).filter (fun fn => eventVisible fn n) = fns
  induction fns generalizing s with
  | nil => exact ⟨s.link, rfl⟩
  | cons fn fns ih =>
    obtain ⟨l, h⟩ := State.announceOn_changes s fn
    obtain ⟨l', h'⟩ := ih (s.announceOn fn)
    exact ⟨l', by rw [List.foldl_cons, h', h]⟩

theorem State.enter_changes (s : State) (code n t d) : ∃ l g, s.enter code n t d = { s with link := l, log := g } := by
  unfold State.enter
  dsimp only
  split
  · exact ⟨s.link, _, rfl⟩
  · obtain ⟨l, h⟩ := State.announce_changes _ n
    exact ⟨l, _, h⟩

theorem State.raise_changes (s : State) (code n d) :
    ∃ l g p t, s.raise code n d = { s with link := l, log := g, power := p, tailings := t } := by
  unfold State.raise
  dsimp only
  split
  · obtain ⟨l, g, h⟩ := State.enter_changes s code n s.now d
    obtain ⟨t, h'⟩ := State.trace_changes (s.enter code n s.now d) 5 n 0 (le 2 code ++ padTo 22 d) (code / 256)
    exact ⟨l, g, s.power, t, by rw [h', h]⟩
  · split
    · exact ⟨s.link, _, s.power, s.tailings, rfl⟩
    · exact ⟨s.link, _, _, s.tailings, rfl⟩

theorem State.raiseM_changes (s : State) (code d) :
    ∃ l g p t, s.raiseM code d = { s with link := l, log := g, power := p, tailings := t } := State.raise_changes s code _ d

theorem State.measurementChanged_changes (s : State) (i) :
    ∃ l g p t, s.measurementChanged i = { s with link := l, log := g, power := p, tailings := t } := State.raiseM_changes s _ _

theorem State.platformEvent_changes (s : State) (k v) : ∃ m, s.platformEvent k v = { s with manage := m } := by
  unfold State.platformEvent
  split
  · exact ⟨_, rfl⟩
  · exact ⟨s.manage, rfl⟩

theorem State.setUnitState_changes (s : State) (u st c) : ∃ x t, s.setUnitState u st c = { s with units := x, tailings := t } := by
  unfold State.setUnitState
  dsimp only
  split
  · exact ⟨s.units, s.tailings, rfl⟩
  · obtain ⟨t, h⟩ := State.trace_changes (s.modUnit u (fun e => { e with state := st, changed := s.meridian.frame % 2 ^ 32 })) 9 0xFF u _ 0
    exact ⟨_, t, h⟩

/-! `postOn` -/

@[simp] theorem State.postOn_now (s : State) (fn cq e pk) : (s.postOn fn cq e pk).now = s.now := by
  obtain ⟨_, h⟩ := State.postOn_changes s fn cq e pk
  rw [h]
@[simp] theorem State.postOn_free (s : State) (fn cq e pk) : (s.postOn fn cq e pk).free = s.free := by
  obtain ⟨_, h⟩ := State.postOn_changes s fn cq e pk
  rw [h]
@[simp] theorem State.postOn_meridian (s : State) (fn cq e pk) : (s.postOn fn cq e pk).meridian = s.meridian := by
  obtain ⟨_, h⟩ := State.postOn_changes s fn cq e pk
  rw [h]
@[simp] theorem State.postOn_orrery (s : State) (fn cq e pk) : (s.postOn fn cq e pk).orrery = s.orrery := by
  obtain ⟨_, h⟩ := State.postOn_changes s fn cq e pk
  rw [h]
@[simp] theorem State.postOn_lodestar (s : State) (fn cq e pk) : (s.postOn fn cq e pk).lodestar = s.lodestar := by
  obtain ⟨_, h⟩ := State.postOn_changes s fn cq e pk
  rw [h]
@[simp] theorem State.postOn_packets (s : State) (fn cq e pk) : (s.postOn fn cq e pk).packets = s.packets := by
  obtain ⟨_, h⟩ := State.postOn_changes s fn cq e pk
  rw [h]
@[simp] theorem State.postOn_objects (s : State) (fn cq e pk) : (s.postOn fn cq e pk).objects = s.objects := by
  obtain ⟨_, h⟩ := State.postOn_changes s fn cq e pk
  rw [h]
@[simp] theorem State.postOn_cage (s : State) (fn cq e pk) : (s.postOn fn cq e pk).cage = s.cage := by
  obtain ⟨_, h⟩ := State.postOn_changes s fn cq e pk
  rw [h]
@[simp] theorem State.postOn_coherence (s : State) (fn cq e pk) : (s.postOn fn cq e pk).coherence = s.coherence := by
  obtain ⟨_, h⟩ := State.postOn_changes s fn cq e pk
  rw [h]
@[simp] theorem State.postOn_cores (s : State) (fn cq e pk) : (s.postOn fn cq e pk).cores = s.cores := by
  obtain ⟨_, h⟩ := State.postOn_changes s fn cq e pk
  rw [h]
@[simp] theorem State.postOn_assay (s : State) (fn cq e pk) : (s.postOn fn cq e pk).assay = s.assay := by
  obtain ⟨_, h⟩ := State.postOn_changes s fn cq e pk
  rw [h]
@[simp] theorem State.postOn_media (s : State) (fn cq e pk) : (s.postOn fn cq e pk).media = s.media := by
  obtain ⟨_, h⟩ := State.postOn_changes s fn cq e pk
  rw [h]
@[simp] theorem State.postOn_log (s : State) (fn cq e pk) : (s.postOn fn cq e pk).log = s.log := by
  obtain ⟨_, h⟩ := State.postOn_changes s fn cq e pk
  rw [h]
@[simp] theorem State.postOn_fabric (s : State) (fn cq e pk) : (s.postOn fn cq e pk).fabric = s.fabric := by
  obtain ⟨_, h⟩ := State.postOn_changes s fn cq e pk
  rw [h]
@[simp] theorem State.postOn_pair (s : State) (fn cq e pk) : (s.postOn fn cq e pk).pair = s.pair := by
  obtain ⟨_, h⟩ := State.postOn_changes s fn cq e pk
  rw [h]
@[simp] theorem State.postOn_const (s : State) (fn cq e pk) : (s.postOn fn cq e pk).const = s.const := by
  obtain ⟨_, h⟩ := State.postOn_changes s fn cq e pk
  rw [h]
@[simp] theorem State.postOn_power (s : State) (fn cq e pk) : (s.postOn fn cq e pk).power = s.power := by
  obtain ⟨_, h⟩ := State.postOn_changes s fn cq e pk
  rw [h]
@[simp] theorem State.postOn_units (s : State) (fn cq e pk) : (s.postOn fn cq e pk).units = s.units := by
  obtain ⟨_, h⟩ := State.postOn_changes s fn cq e pk
  rw [h]
@[simp] theorem State.postOn_flash (s : State) (fn cq e pk) : (s.postOn fn cq e pk).flash = s.flash := by
  obtain ⟨_, h⟩ := State.postOn_changes s fn cq e pk
  rw [h]
@[simp] theorem State.postOn_activation (s : State) (fn cq e pk) : (s.postOn fn cq e pk).activation = s.activation := by
  obtain ⟨_, h⟩ := State.postOn_changes s fn cq e pk
  rw [h]
@[simp] theorem State.postOn_startup (s : State) (fn cq e pk) : (s.postOn fn cq e pk).startup = s.startup := by
  obtain ⟨_, h⟩ := State.postOn_changes s fn cq e pk
  rw [h]
@[simp] theorem State.postOn_saved (s : State) (fn cq e pk) : (s.postOn fn cq e pk).saved = s.saved := by
  obtain ⟨_, h⟩ := State.postOn_changes s fn cq e pk
  rw [h]
@[simp] theorem State.postOn_almanac (s : State) (fn cq e pk) : (s.postOn fn cq e pk).almanac = s.almanac := by
  obtain ⟨_, h⟩ := State.postOn_changes s fn cq e pk
  rw [h]
@[simp] theorem State.postOn_global (s : State) (fn cq e pk) : (s.postOn fn cq e pk).global = s.global := by
  obtain ⟨_, h⟩ := State.postOn_changes s fn cq e pk
  rw [h]
@[simp] theorem State.postOn_blocks (s : State) (fn cq e pk) : (s.postOn fn cq e pk).blocks = s.blocks := by
  obtain ⟨_, h⟩ := State.postOn_changes s fn cq e pk
  rw [h]
@[simp] theorem State.postOn_tally (s : State) (fn cq e pk) : (s.postOn fn cq e pk).tally = s.tally := by
  obtain ⟨_, h⟩ := State.postOn_changes s fn cq e pk
  rw [h]
@[simp] theorem State.postOn_tailings (s : State) (fn cq e pk) : (s.postOn fn cq e pk).tailings = s.tailings := by
  obtain ⟨_, h⟩ := State.postOn_changes s fn cq e pk
  rw [h]
@[simp] theorem State.postOn_manage (s : State) (fn cq e pk) : (s.postOn fn cq e pk).manage = s.manage := by
  obtain ⟨_, h⟩ := State.postOn_changes s fn cq e pk
  rw [h]
@[simp] theorem State.postOn_pending (s : State) (fn cq e pk) : (s.postOn fn cq e pk).pending = s.pending := by
  obtain ⟨_, h⟩ := State.postOn_changes s fn cq e pk
  rw [h]

/-! `completeOn` -/

@[simp] theorem State.completeOn_now (s : State) (fn sq cid st a b) : (s.completeOn fn sq cid st a b).now = s.now := by
  obtain ⟨_, h⟩ := State.completeOn_changes s fn sq cid st a b
  rw [h]
@[simp] theorem State.completeOn_free (s : State) (fn sq cid st a b) : (s.completeOn fn sq cid st a b).free = s.free := by
  obtain ⟨_, h⟩ := State.completeOn_changes s fn sq cid st a b
  rw [h]
@[simp] theorem State.completeOn_meridian (s : State) (fn sq cid st a b) : (s.completeOn fn sq cid st a b).meridian = s.meridian := by
  obtain ⟨_, h⟩ := State.completeOn_changes s fn sq cid st a b
  rw [h]
@[simp] theorem State.completeOn_orrery (s : State) (fn sq cid st a b) : (s.completeOn fn sq cid st a b).orrery = s.orrery := by
  obtain ⟨_, h⟩ := State.completeOn_changes s fn sq cid st a b
  rw [h]
@[simp] theorem State.completeOn_lodestar (s : State) (fn sq cid st a b) : (s.completeOn fn sq cid st a b).lodestar = s.lodestar := by
  obtain ⟨_, h⟩ := State.completeOn_changes s fn sq cid st a b
  rw [h]
@[simp] theorem State.completeOn_packets (s : State) (fn sq cid st a b) : (s.completeOn fn sq cid st a b).packets = s.packets := by
  obtain ⟨_, h⟩ := State.completeOn_changes s fn sq cid st a b
  rw [h]
@[simp] theorem State.completeOn_objects (s : State) (fn sq cid st a b) : (s.completeOn fn sq cid st a b).objects = s.objects := by
  obtain ⟨_, h⟩ := State.completeOn_changes s fn sq cid st a b
  rw [h]
@[simp] theorem State.completeOn_cage (s : State) (fn sq cid st a b) : (s.completeOn fn sq cid st a b).cage = s.cage := by
  obtain ⟨_, h⟩ := State.completeOn_changes s fn sq cid st a b
  rw [h]
@[simp] theorem State.completeOn_coherence (s : State) (fn sq cid st a b) : (s.completeOn fn sq cid st a b).coherence = s.coherence := by
  obtain ⟨_, h⟩ := State.completeOn_changes s fn sq cid st a b
  rw [h]
@[simp] theorem State.completeOn_cores (s : State) (fn sq cid st a b) : (s.completeOn fn sq cid st a b).cores = s.cores := by
  obtain ⟨_, h⟩ := State.completeOn_changes s fn sq cid st a b
  rw [h]
@[simp] theorem State.completeOn_assay (s : State) (fn sq cid st a b) : (s.completeOn fn sq cid st a b).assay = s.assay := by
  obtain ⟨_, h⟩ := State.completeOn_changes s fn sq cid st a b
  rw [h]
@[simp] theorem State.completeOn_media (s : State) (fn sq cid st a b) : (s.completeOn fn sq cid st a b).media = s.media := by
  obtain ⟨_, h⟩ := State.completeOn_changes s fn sq cid st a b
  rw [h]
@[simp] theorem State.completeOn_log (s : State) (fn sq cid st a b) : (s.completeOn fn sq cid st a b).log = s.log := by
  obtain ⟨_, h⟩ := State.completeOn_changes s fn sq cid st a b
  rw [h]
@[simp] theorem State.completeOn_fabric (s : State) (fn sq cid st a b) : (s.completeOn fn sq cid st a b).fabric = s.fabric := by
  obtain ⟨_, h⟩ := State.completeOn_changes s fn sq cid st a b
  rw [h]
@[simp] theorem State.completeOn_pair (s : State) (fn sq cid st a b) : (s.completeOn fn sq cid st a b).pair = s.pair := by
  obtain ⟨_, h⟩ := State.completeOn_changes s fn sq cid st a b
  rw [h]
@[simp] theorem State.completeOn_const (s : State) (fn sq cid st a b) : (s.completeOn fn sq cid st a b).const = s.const := by
  obtain ⟨_, h⟩ := State.completeOn_changes s fn sq cid st a b
  rw [h]
@[simp] theorem State.completeOn_power (s : State) (fn sq cid st a b) : (s.completeOn fn sq cid st a b).power = s.power := by
  obtain ⟨_, h⟩ := State.completeOn_changes s fn sq cid st a b
  rw [h]
@[simp] theorem State.completeOn_units (s : State) (fn sq cid st a b) : (s.completeOn fn sq cid st a b).units = s.units := by
  obtain ⟨_, h⟩ := State.completeOn_changes s fn sq cid st a b
  rw [h]
@[simp] theorem State.completeOn_flash (s : State) (fn sq cid st a b) : (s.completeOn fn sq cid st a b).flash = s.flash := by
  obtain ⟨_, h⟩ := State.completeOn_changes s fn sq cid st a b
  rw [h]
@[simp] theorem State.completeOn_activation (s : State) (fn sq cid st a b) : (s.completeOn fn sq cid st a b).activation = s.activation := by
  obtain ⟨_, h⟩ := State.completeOn_changes s fn sq cid st a b
  rw [h]
@[simp] theorem State.completeOn_startup (s : State) (fn sq cid st a b) : (s.completeOn fn sq cid st a b).startup = s.startup := by
  obtain ⟨_, h⟩ := State.completeOn_changes s fn sq cid st a b
  rw [h]
@[simp] theorem State.completeOn_saved (s : State) (fn sq cid st a b) : (s.completeOn fn sq cid st a b).saved = s.saved := by
  obtain ⟨_, h⟩ := State.completeOn_changes s fn sq cid st a b
  rw [h]
@[simp] theorem State.completeOn_almanac (s : State) (fn sq cid st a b) : (s.completeOn fn sq cid st a b).almanac = s.almanac := by
  obtain ⟨_, h⟩ := State.completeOn_changes s fn sq cid st a b
  rw [h]
@[simp] theorem State.completeOn_global (s : State) (fn sq cid st a b) : (s.completeOn fn sq cid st a b).global = s.global := by
  obtain ⟨_, h⟩ := State.completeOn_changes s fn sq cid st a b
  rw [h]
@[simp] theorem State.completeOn_blocks (s : State) (fn sq cid st a b) : (s.completeOn fn sq cid st a b).blocks = s.blocks := by
  obtain ⟨_, h⟩ := State.completeOn_changes s fn sq cid st a b
  rw [h]
@[simp] theorem State.completeOn_tally (s : State) (fn sq cid st a b) : (s.completeOn fn sq cid st a b).tally = s.tally := by
  obtain ⟨_, h⟩ := State.completeOn_changes s fn sq cid st a b
  rw [h]
@[simp] theorem State.completeOn_tailings (s : State) (fn sq cid st a b) : (s.completeOn fn sq cid st a b).tailings = s.tailings := by
  obtain ⟨_, h⟩ := State.completeOn_changes s fn sq cid st a b
  rw [h]
@[simp] theorem State.completeOn_manage (s : State) (fn sq cid st a b) : (s.completeOn fn sq cid st a b).manage = s.manage := by
  obtain ⟨_, h⟩ := State.completeOn_changes s fn sq cid st a b
  rw [h]
@[simp] theorem State.completeOn_pending (s : State) (fn sq cid st a b) : (s.completeOn fn sq cid st a b).pending = s.pending := by
  obtain ⟨_, h⟩ := State.completeOn_changes s fn sq cid st a b
  rw [h]

/-! `complete` -/

@[simp] theorem State.complete_now (s : State) (q st a b) : (s.complete q st a b).now = s.now := by
  obtain ⟨_, h⟩ := State.complete_changes s q st a b
  rw [h]
@[simp] theorem State.complete_free (s : State) (q st a b) : (s.complete q st a b).free = s.free := by
  obtain ⟨_, h⟩ := State.complete_changes s q st a b
  rw [h]
@[simp] theorem State.complete_meridian (s : State) (q st a b) : (s.complete q st a b).meridian = s.meridian := by
  obtain ⟨_, h⟩ := State.complete_changes s q st a b
  rw [h]
@[simp] theorem State.complete_orrery (s : State) (q st a b) : (s.complete q st a b).orrery = s.orrery := by
  obtain ⟨_, h⟩ := State.complete_changes s q st a b
  rw [h]
@[simp] theorem State.complete_lodestar (s : State) (q st a b) : (s.complete q st a b).lodestar = s.lodestar := by
  obtain ⟨_, h⟩ := State.complete_changes s q st a b
  rw [h]
@[simp] theorem State.complete_packets (s : State) (q st a b) : (s.complete q st a b).packets = s.packets := by
  obtain ⟨_, h⟩ := State.complete_changes s q st a b
  rw [h]
@[simp] theorem State.complete_objects (s : State) (q st a b) : (s.complete q st a b).objects = s.objects := by
  obtain ⟨_, h⟩ := State.complete_changes s q st a b
  rw [h]
@[simp] theorem State.complete_cage (s : State) (q st a b) : (s.complete q st a b).cage = s.cage := by
  obtain ⟨_, h⟩ := State.complete_changes s q st a b
  rw [h]
@[simp] theorem State.complete_coherence (s : State) (q st a b) : (s.complete q st a b).coherence = s.coherence := by
  obtain ⟨_, h⟩ := State.complete_changes s q st a b
  rw [h]
@[simp] theorem State.complete_cores (s : State) (q st a b) : (s.complete q st a b).cores = s.cores := by
  obtain ⟨_, h⟩ := State.complete_changes s q st a b
  rw [h]
@[simp] theorem State.complete_assay (s : State) (q st a b) : (s.complete q st a b).assay = s.assay := by
  obtain ⟨_, h⟩ := State.complete_changes s q st a b
  rw [h]
@[simp] theorem State.complete_media (s : State) (q st a b) : (s.complete q st a b).media = s.media := by
  obtain ⟨_, h⟩ := State.complete_changes s q st a b
  rw [h]
@[simp] theorem State.complete_log (s : State) (q st a b) : (s.complete q st a b).log = s.log := by
  obtain ⟨_, h⟩ := State.complete_changes s q st a b
  rw [h]
@[simp] theorem State.complete_fabric (s : State) (q st a b) : (s.complete q st a b).fabric = s.fabric := by
  obtain ⟨_, h⟩ := State.complete_changes s q st a b
  rw [h]
@[simp] theorem State.complete_pair (s : State) (q st a b) : (s.complete q st a b).pair = s.pair := by
  obtain ⟨_, h⟩ := State.complete_changes s q st a b
  rw [h]
@[simp] theorem State.complete_const (s : State) (q st a b) : (s.complete q st a b).const = s.const := by
  obtain ⟨_, h⟩ := State.complete_changes s q st a b
  rw [h]
@[simp] theorem State.complete_power (s : State) (q st a b) : (s.complete q st a b).power = s.power := by
  obtain ⟨_, h⟩ := State.complete_changes s q st a b
  rw [h]
@[simp] theorem State.complete_units (s : State) (q st a b) : (s.complete q st a b).units = s.units := by
  obtain ⟨_, h⟩ := State.complete_changes s q st a b
  rw [h]
@[simp] theorem State.complete_flash (s : State) (q st a b) : (s.complete q st a b).flash = s.flash := by
  obtain ⟨_, h⟩ := State.complete_changes s q st a b
  rw [h]
@[simp] theorem State.complete_activation (s : State) (q st a b) : (s.complete q st a b).activation = s.activation := by
  obtain ⟨_, h⟩ := State.complete_changes s q st a b
  rw [h]
@[simp] theorem State.complete_startup (s : State) (q st a b) : (s.complete q st a b).startup = s.startup := by
  obtain ⟨_, h⟩ := State.complete_changes s q st a b
  rw [h]
@[simp] theorem State.complete_saved (s : State) (q st a b) : (s.complete q st a b).saved = s.saved := by
  obtain ⟨_, h⟩ := State.complete_changes s q st a b
  rw [h]
@[simp] theorem State.complete_almanac (s : State) (q st a b) : (s.complete q st a b).almanac = s.almanac := by
  obtain ⟨_, h⟩ := State.complete_changes s q st a b
  rw [h]
@[simp] theorem State.complete_global (s : State) (q st a b) : (s.complete q st a b).global = s.global := by
  obtain ⟨_, h⟩ := State.complete_changes s q st a b
  rw [h]
@[simp] theorem State.complete_blocks (s : State) (q st a b) : (s.complete q st a b).blocks = s.blocks := by
  obtain ⟨_, h⟩ := State.complete_changes s q st a b
  rw [h]
@[simp] theorem State.complete_tally (s : State) (q st a b) : (s.complete q st a b).tally = s.tally := by
  obtain ⟨_, h⟩ := State.complete_changes s q st a b
  rw [h]
@[simp] theorem State.complete_tailings (s : State) (q st a b) : (s.complete q st a b).tailings = s.tailings := by
  obtain ⟨_, h⟩ := State.complete_changes s q st a b
  rw [h]
@[simp] theorem State.complete_manage (s : State) (q st a b) : (s.complete q st a b).manage = s.manage := by
  obtain ⟨_, h⟩ := State.complete_changes s q st a b
  rw [h]
@[simp] theorem State.complete_pending (s : State) (q st a b) : (s.complete q st a b).pending = s.pending := by
  obtain ⟨_, h⟩ := State.complete_changes s q st a b
  rw [h]

/-! `toHost` -/

@[simp] theorem State.toHost_now (s : State) (q d) : (s.toHost q d).now = s.now := by
  obtain ⟨_, h⟩ := State.toHost_changes s q d
  rw [h]
@[simp] theorem State.toHost_free (s : State) (q d) : (s.toHost q d).free = s.free := by
  obtain ⟨_, h⟩ := State.toHost_changes s q d
  rw [h]
@[simp] theorem State.toHost_meridian (s : State) (q d) : (s.toHost q d).meridian = s.meridian := by
  obtain ⟨_, h⟩ := State.toHost_changes s q d
  rw [h]
@[simp] theorem State.toHost_orrery (s : State) (q d) : (s.toHost q d).orrery = s.orrery := by
  obtain ⟨_, h⟩ := State.toHost_changes s q d
  rw [h]
@[simp] theorem State.toHost_lodestar (s : State) (q d) : (s.toHost q d).lodestar = s.lodestar := by
  obtain ⟨_, h⟩ := State.toHost_changes s q d
  rw [h]
@[simp] theorem State.toHost_packets (s : State) (q d) : (s.toHost q d).packets = s.packets := by
  obtain ⟨_, h⟩ := State.toHost_changes s q d
  rw [h]
@[simp] theorem State.toHost_objects (s : State) (q d) : (s.toHost q d).objects = s.objects := by
  obtain ⟨_, h⟩ := State.toHost_changes s q d
  rw [h]
@[simp] theorem State.toHost_cage (s : State) (q d) : (s.toHost q d).cage = s.cage := by
  obtain ⟨_, h⟩ := State.toHost_changes s q d
  rw [h]
@[simp] theorem State.toHost_coherence (s : State) (q d) : (s.toHost q d).coherence = s.coherence := by
  obtain ⟨_, h⟩ := State.toHost_changes s q d
  rw [h]
@[simp] theorem State.toHost_cores (s : State) (q d) : (s.toHost q d).cores = s.cores := by
  obtain ⟨_, h⟩ := State.toHost_changes s q d
  rw [h]
@[simp] theorem State.toHost_assay (s : State) (q d) : (s.toHost q d).assay = s.assay := by
  obtain ⟨_, h⟩ := State.toHost_changes s q d
  rw [h]
@[simp] theorem State.toHost_media (s : State) (q d) : (s.toHost q d).media = s.media := by
  obtain ⟨_, h⟩ := State.toHost_changes s q d
  rw [h]
@[simp] theorem State.toHost_log (s : State) (q d) : (s.toHost q d).log = s.log := by
  obtain ⟨_, h⟩ := State.toHost_changes s q d
  rw [h]
@[simp] theorem State.toHost_fabric (s : State) (q d) : (s.toHost q d).fabric = s.fabric := by
  obtain ⟨_, h⟩ := State.toHost_changes s q d
  rw [h]
@[simp] theorem State.toHost_pair (s : State) (q d) : (s.toHost q d).pair = s.pair := by
  obtain ⟨_, h⟩ := State.toHost_changes s q d
  rw [h]
@[simp] theorem State.toHost_const (s : State) (q d) : (s.toHost q d).const = s.const := by
  obtain ⟨_, h⟩ := State.toHost_changes s q d
  rw [h]
@[simp] theorem State.toHost_power (s : State) (q d) : (s.toHost q d).power = s.power := by
  obtain ⟨_, h⟩ := State.toHost_changes s q d
  rw [h]
@[simp] theorem State.toHost_units (s : State) (q d) : (s.toHost q d).units = s.units := by
  obtain ⟨_, h⟩ := State.toHost_changes s q d
  rw [h]
@[simp] theorem State.toHost_flash (s : State) (q d) : (s.toHost q d).flash = s.flash := by
  obtain ⟨_, h⟩ := State.toHost_changes s q d
  rw [h]
@[simp] theorem State.toHost_activation (s : State) (q d) : (s.toHost q d).activation = s.activation := by
  obtain ⟨_, h⟩ := State.toHost_changes s q d
  rw [h]
@[simp] theorem State.toHost_startup (s : State) (q d) : (s.toHost q d).startup = s.startup := by
  obtain ⟨_, h⟩ := State.toHost_changes s q d
  rw [h]
@[simp] theorem State.toHost_saved (s : State) (q d) : (s.toHost q d).saved = s.saved := by
  obtain ⟨_, h⟩ := State.toHost_changes s q d
  rw [h]
@[simp] theorem State.toHost_almanac (s : State) (q d) : (s.toHost q d).almanac = s.almanac := by
  obtain ⟨_, h⟩ := State.toHost_changes s q d
  rw [h]
@[simp] theorem State.toHost_global (s : State) (q d) : (s.toHost q d).global = s.global := by
  obtain ⟨_, h⟩ := State.toHost_changes s q d
  rw [h]
@[simp] theorem State.toHost_blocks (s : State) (q d) : (s.toHost q d).blocks = s.blocks := by
  obtain ⟨_, h⟩ := State.toHost_changes s q d
  rw [h]
@[simp] theorem State.toHost_tally (s : State) (q d) : (s.toHost q d).tally = s.tally := by
  obtain ⟨_, h⟩ := State.toHost_changes s q d
  rw [h]
@[simp] theorem State.toHost_tailings (s : State) (q d) : (s.toHost q d).tailings = s.tailings := by
  obtain ⟨_, h⟩ := State.toHost_changes s q d
  rw [h]
@[simp] theorem State.toHost_manage (s : State) (q d) : (s.toHost q d).manage = s.manage := by
  obtain ⟨_, h⟩ := State.toHost_changes s q d
  rw [h]
@[simp] theorem State.toHost_pending (s : State) (q d) : (s.toHost q d).pending = s.pending := by
  obtain ⟨_, h⟩ := State.toHost_changes s q d
  rw [h]

/-! `trace` -/

@[simp] theorem State.trace_now (s : State) (k n r d c) : (s.trace k n r d c).now = s.now := by
  obtain ⟨_, h⟩ := State.trace_changes s k n r d c
  rw [h]
@[simp] theorem State.trace_free (s : State) (k n r d c) : (s.trace k n r d c).free = s.free := by
  obtain ⟨_, h⟩ := State.trace_changes s k n r d c
  rw [h]
@[simp] theorem State.trace_meridian (s : State) (k n r d c) : (s.trace k n r d c).meridian = s.meridian := by
  obtain ⟨_, h⟩ := State.trace_changes s k n r d c
  rw [h]
@[simp] theorem State.trace_orrery (s : State) (k n r d c) : (s.trace k n r d c).orrery = s.orrery := by
  obtain ⟨_, h⟩ := State.trace_changes s k n r d c
  rw [h]
@[simp] theorem State.trace_lodestar (s : State) (k n r d c) : (s.trace k n r d c).lodestar = s.lodestar := by
  obtain ⟨_, h⟩ := State.trace_changes s k n r d c
  rw [h]
@[simp] theorem State.trace_link (s : State) (k n r d c) : (s.trace k n r d c).link = s.link := by
  obtain ⟨_, h⟩ := State.trace_changes s k n r d c
  rw [h]
@[simp] theorem State.trace_packets (s : State) (k n r d c) : (s.trace k n r d c).packets = s.packets := by
  obtain ⟨_, h⟩ := State.trace_changes s k n r d c
  rw [h]
@[simp] theorem State.trace_objects (s : State) (k n r d c) : (s.trace k n r d c).objects = s.objects := by
  obtain ⟨_, h⟩ := State.trace_changes s k n r d c
  rw [h]
@[simp] theorem State.trace_cage (s : State) (k n r d c) : (s.trace k n r d c).cage = s.cage := by
  obtain ⟨_, h⟩ := State.trace_changes s k n r d c
  rw [h]
@[simp] theorem State.trace_coherence (s : State) (k n r d c) : (s.trace k n r d c).coherence = s.coherence := by
  obtain ⟨_, h⟩ := State.trace_changes s k n r d c
  rw [h]
@[simp] theorem State.trace_cores (s : State) (k n r d c) : (s.trace k n r d c).cores = s.cores := by
  obtain ⟨_, h⟩ := State.trace_changes s k n r d c
  rw [h]
@[simp] theorem State.trace_assay (s : State) (k n r d c) : (s.trace k n r d c).assay = s.assay := by
  obtain ⟨_, h⟩ := State.trace_changes s k n r d c
  rw [h]
@[simp] theorem State.trace_media (s : State) (k n r d c) : (s.trace k n r d c).media = s.media := by
  obtain ⟨_, h⟩ := State.trace_changes s k n r d c
  rw [h]
@[simp] theorem State.trace_log (s : State) (k n r d c) : (s.trace k n r d c).log = s.log := by
  obtain ⟨_, h⟩ := State.trace_changes s k n r d c
  rw [h]
@[simp] theorem State.trace_fabric (s : State) (k n r d c) : (s.trace k n r d c).fabric = s.fabric := by
  obtain ⟨_, h⟩ := State.trace_changes s k n r d c
  rw [h]
@[simp] theorem State.trace_pair (s : State) (k n r d c) : (s.trace k n r d c).pair = s.pair := by
  obtain ⟨_, h⟩ := State.trace_changes s k n r d c
  rw [h]
@[simp] theorem State.trace_const (s : State) (k n r d c) : (s.trace k n r d c).const = s.const := by
  obtain ⟨_, h⟩ := State.trace_changes s k n r d c
  rw [h]
@[simp] theorem State.trace_power (s : State) (k n r d c) : (s.trace k n r d c).power = s.power := by
  obtain ⟨_, h⟩ := State.trace_changes s k n r d c
  rw [h]
@[simp] theorem State.trace_units (s : State) (k n r d c) : (s.trace k n r d c).units = s.units := by
  obtain ⟨_, h⟩ := State.trace_changes s k n r d c
  rw [h]
@[simp] theorem State.trace_flash (s : State) (k n r d c) : (s.trace k n r d c).flash = s.flash := by
  obtain ⟨_, h⟩ := State.trace_changes s k n r d c
  rw [h]
@[simp] theorem State.trace_activation (s : State) (k n r d c) : (s.trace k n r d c).activation = s.activation := by
  obtain ⟨_, h⟩ := State.trace_changes s k n r d c
  rw [h]
@[simp] theorem State.trace_startup (s : State) (k n r d c) : (s.trace k n r d c).startup = s.startup := by
  obtain ⟨_, h⟩ := State.trace_changes s k n r d c
  rw [h]
@[simp] theorem State.trace_saved (s : State) (k n r d c) : (s.trace k n r d c).saved = s.saved := by
  obtain ⟨_, h⟩ := State.trace_changes s k n r d c
  rw [h]
@[simp] theorem State.trace_almanac (s : State) (k n r d c) : (s.trace k n r d c).almanac = s.almanac := by
  obtain ⟨_, h⟩ := State.trace_changes s k n r d c
  rw [h]
@[simp] theorem State.trace_global (s : State) (k n r d c) : (s.trace k n r d c).global = s.global := by
  obtain ⟨_, h⟩ := State.trace_changes s k n r d c
  rw [h]
@[simp] theorem State.trace_blocks (s : State) (k n r d c) : (s.trace k n r d c).blocks = s.blocks := by
  obtain ⟨_, h⟩ := State.trace_changes s k n r d c
  rw [h]
@[simp] theorem State.trace_tally (s : State) (k n r d c) : (s.trace k n r d c).tally = s.tally := by
  obtain ⟨_, h⟩ := State.trace_changes s k n r d c
  rw [h]
@[simp] theorem State.trace_manage (s : State) (k n r d c) : (s.trace k n r d c).manage = s.manage := by
  obtain ⟨_, h⟩ := State.trace_changes s k n r d c
  rw [h]
@[simp] theorem State.trace_pending (s : State) (k n r d c) : (s.trace k n r d c).pending = s.pending := by
  obtain ⟨_, h⟩ := State.trace_changes s k n r d c
  rw [h]

/-! `enter` -/

@[simp] theorem State.enter_now (s : State) (code n t d) : (s.enter code n t d).now = s.now := by
  obtain ⟨_, _, h⟩ := State.enter_changes s code n t d
  rw [h]
@[simp] theorem State.enter_free (s : State) (code n t d) : (s.enter code n t d).free = s.free := by
  obtain ⟨_, _, h⟩ := State.enter_changes s code n t d
  rw [h]
@[simp] theorem State.enter_meridian (s : State) (code n t d) : (s.enter code n t d).meridian = s.meridian := by
  obtain ⟨_, _, h⟩ := State.enter_changes s code n t d
  rw [h]
@[simp] theorem State.enter_orrery (s : State) (code n t d) : (s.enter code n t d).orrery = s.orrery := by
  obtain ⟨_, _, h⟩ := State.enter_changes s code n t d
  rw [h]
@[simp] theorem State.enter_lodestar (s : State) (code n t d) : (s.enter code n t d).lodestar = s.lodestar := by
  obtain ⟨_, _, h⟩ := State.enter_changes s code n t d
  rw [h]
@[simp] theorem State.enter_packets (s : State) (code n t d) : (s.enter code n t d).packets = s.packets := by
  obtain ⟨_, _, h⟩ := State.enter_changes s code n t d
  rw [h]
@[simp] theorem State.enter_objects (s : State) (code n t d) : (s.enter code n t d).objects = s.objects := by
  obtain ⟨_, _, h⟩ := State.enter_changes s code n t d
  rw [h]
@[simp] theorem State.enter_cage (s : State) (code n t d) : (s.enter code n t d).cage = s.cage := by
  obtain ⟨_, _, h⟩ := State.enter_changes s code n t d
  rw [h]
@[simp] theorem State.enter_coherence (s : State) (code n t d) : (s.enter code n t d).coherence = s.coherence := by
  obtain ⟨_, _, h⟩ := State.enter_changes s code n t d
  rw [h]
@[simp] theorem State.enter_cores (s : State) (code n t d) : (s.enter code n t d).cores = s.cores := by
  obtain ⟨_, _, h⟩ := State.enter_changes s code n t d
  rw [h]
@[simp] theorem State.enter_assay (s : State) (code n t d) : (s.enter code n t d).assay = s.assay := by
  obtain ⟨_, _, h⟩ := State.enter_changes s code n t d
  rw [h]
@[simp] theorem State.enter_media (s : State) (code n t d) : (s.enter code n t d).media = s.media := by
  obtain ⟨_, _, h⟩ := State.enter_changes s code n t d
  rw [h]
@[simp] theorem State.enter_fabric (s : State) (code n t d) : (s.enter code n t d).fabric = s.fabric := by
  obtain ⟨_, _, h⟩ := State.enter_changes s code n t d
  rw [h]
@[simp] theorem State.enter_pair (s : State) (code n t d) : (s.enter code n t d).pair = s.pair := by
  obtain ⟨_, _, h⟩ := State.enter_changes s code n t d
  rw [h]
@[simp] theorem State.enter_const (s : State) (code n t d) : (s.enter code n t d).const = s.const := by
  obtain ⟨_, _, h⟩ := State.enter_changes s code n t d
  rw [h]
@[simp] theorem State.enter_power (s : State) (code n t d) : (s.enter code n t d).power = s.power := by
  obtain ⟨_, _, h⟩ := State.enter_changes s code n t d
  rw [h]
@[simp] theorem State.enter_units (s : State) (code n t d) : (s.enter code n t d).units = s.units := by
  obtain ⟨_, _, h⟩ := State.enter_changes s code n t d
  rw [h]
@[simp] theorem State.enter_flash (s : State) (code n t d) : (s.enter code n t d).flash = s.flash := by
  obtain ⟨_, _, h⟩ := State.enter_changes s code n t d
  rw [h]
@[simp] theorem State.enter_activation (s : State) (code n t d) : (s.enter code n t d).activation = s.activation := by
  obtain ⟨_, _, h⟩ := State.enter_changes s code n t d
  rw [h]
@[simp] theorem State.enter_startup (s : State) (code n t d) : (s.enter code n t d).startup = s.startup := by
  obtain ⟨_, _, h⟩ := State.enter_changes s code n t d
  rw [h]
@[simp] theorem State.enter_saved (s : State) (code n t d) : (s.enter code n t d).saved = s.saved := by
  obtain ⟨_, _, h⟩ := State.enter_changes s code n t d
  rw [h]
@[simp] theorem State.enter_almanac (s : State) (code n t d) : (s.enter code n t d).almanac = s.almanac := by
  obtain ⟨_, _, h⟩ := State.enter_changes s code n t d
  rw [h]
@[simp] theorem State.enter_global (s : State) (code n t d) : (s.enter code n t d).global = s.global := by
  obtain ⟨_, _, h⟩ := State.enter_changes s code n t d
  rw [h]
@[simp] theorem State.enter_blocks (s : State) (code n t d) : (s.enter code n t d).blocks = s.blocks := by
  obtain ⟨_, _, h⟩ := State.enter_changes s code n t d
  rw [h]
@[simp] theorem State.enter_tally (s : State) (code n t d) : (s.enter code n t d).tally = s.tally := by
  obtain ⟨_, _, h⟩ := State.enter_changes s code n t d
  rw [h]
@[simp] theorem State.enter_tailings (s : State) (code n t d) : (s.enter code n t d).tailings = s.tailings := by
  obtain ⟨_, _, h⟩ := State.enter_changes s code n t d
  rw [h]
@[simp] theorem State.enter_manage (s : State) (code n t d) : (s.enter code n t d).manage = s.manage := by
  obtain ⟨_, _, h⟩ := State.enter_changes s code n t d
  rw [h]
@[simp] theorem State.enter_pending (s : State) (code n t d) : (s.enter code n t d).pending = s.pending := by
  obtain ⟨_, _, h⟩ := State.enter_changes s code n t d
  rw [h]

/-! `raise` -/

@[simp] theorem State.raise_now (s : State) (code n d) : (s.raise code n d).now = s.now := by
  obtain ⟨_, _, _, _, h⟩ := State.raise_changes s code n d
  rw [h]
@[simp] theorem State.raise_free (s : State) (code n d) : (s.raise code n d).free = s.free := by
  obtain ⟨_, _, _, _, h⟩ := State.raise_changes s code n d
  rw [h]
@[simp] theorem State.raise_meridian (s : State) (code n d) : (s.raise code n d).meridian = s.meridian := by
  obtain ⟨_, _, _, _, h⟩ := State.raise_changes s code n d
  rw [h]
@[simp] theorem State.raise_orrery (s : State) (code n d) : (s.raise code n d).orrery = s.orrery := by
  obtain ⟨_, _, _, _, h⟩ := State.raise_changes s code n d
  rw [h]
@[simp] theorem State.raise_lodestar (s : State) (code n d) : (s.raise code n d).lodestar = s.lodestar := by
  obtain ⟨_, _, _, _, h⟩ := State.raise_changes s code n d
  rw [h]
@[simp] theorem State.raise_packets (s : State) (code n d) : (s.raise code n d).packets = s.packets := by
  obtain ⟨_, _, _, _, h⟩ := State.raise_changes s code n d
  rw [h]
@[simp] theorem State.raise_objects (s : State) (code n d) : (s.raise code n d).objects = s.objects := by
  obtain ⟨_, _, _, _, h⟩ := State.raise_changes s code n d
  rw [h]
@[simp] theorem State.raise_cage (s : State) (code n d) : (s.raise code n d).cage = s.cage := by
  obtain ⟨_, _, _, _, h⟩ := State.raise_changes s code n d
  rw [h]
@[simp] theorem State.raise_coherence (s : State) (code n d) : (s.raise code n d).coherence = s.coherence := by
  obtain ⟨_, _, _, _, h⟩ := State.raise_changes s code n d
  rw [h]
@[simp] theorem State.raise_cores (s : State) (code n d) : (s.raise code n d).cores = s.cores := by
  obtain ⟨_, _, _, _, h⟩ := State.raise_changes s code n d
  rw [h]
@[simp] theorem State.raise_assay (s : State) (code n d) : (s.raise code n d).assay = s.assay := by
  obtain ⟨_, _, _, _, h⟩ := State.raise_changes s code n d
  rw [h]
@[simp] theorem State.raise_media (s : State) (code n d) : (s.raise code n d).media = s.media := by
  obtain ⟨_, _, _, _, h⟩ := State.raise_changes s code n d
  rw [h]
@[simp] theorem State.raise_fabric (s : State) (code n d) : (s.raise code n d).fabric = s.fabric := by
  obtain ⟨_, _, _, _, h⟩ := State.raise_changes s code n d
  rw [h]
@[simp] theorem State.raise_pair (s : State) (code n d) : (s.raise code n d).pair = s.pair := by
  obtain ⟨_, _, _, _, h⟩ := State.raise_changes s code n d
  rw [h]
@[simp] theorem State.raise_const (s : State) (code n d) : (s.raise code n d).const = s.const := by
  obtain ⟨_, _, _, _, h⟩ := State.raise_changes s code n d
  rw [h]
@[simp] theorem State.raise_units (s : State) (code n d) : (s.raise code n d).units = s.units := by
  obtain ⟨_, _, _, _, h⟩ := State.raise_changes s code n d
  rw [h]
@[simp] theorem State.raise_flash (s : State) (code n d) : (s.raise code n d).flash = s.flash := by
  obtain ⟨_, _, _, _, h⟩ := State.raise_changes s code n d
  rw [h]
@[simp] theorem State.raise_activation (s : State) (code n d) : (s.raise code n d).activation = s.activation := by
  obtain ⟨_, _, _, _, h⟩ := State.raise_changes s code n d
  rw [h]
@[simp] theorem State.raise_startup (s : State) (code n d) : (s.raise code n d).startup = s.startup := by
  obtain ⟨_, _, _, _, h⟩ := State.raise_changes s code n d
  rw [h]
@[simp] theorem State.raise_saved (s : State) (code n d) : (s.raise code n d).saved = s.saved := by
  obtain ⟨_, _, _, _, h⟩ := State.raise_changes s code n d
  rw [h]
@[simp] theorem State.raise_almanac (s : State) (code n d) : (s.raise code n d).almanac = s.almanac := by
  obtain ⟨_, _, _, _, h⟩ := State.raise_changes s code n d
  rw [h]
@[simp] theorem State.raise_global (s : State) (code n d) : (s.raise code n d).global = s.global := by
  obtain ⟨_, _, _, _, h⟩ := State.raise_changes s code n d
  rw [h]
@[simp] theorem State.raise_blocks (s : State) (code n d) : (s.raise code n d).blocks = s.blocks := by
  obtain ⟨_, _, _, _, h⟩ := State.raise_changes s code n d
  rw [h]
@[simp] theorem State.raise_tally (s : State) (code n d) : (s.raise code n d).tally = s.tally := by
  obtain ⟨_, _, _, _, h⟩ := State.raise_changes s code n d
  rw [h]
@[simp] theorem State.raise_manage (s : State) (code n d) : (s.raise code n d).manage = s.manage := by
  obtain ⟨_, _, _, _, h⟩ := State.raise_changes s code n d
  rw [h]
@[simp] theorem State.raise_pending (s : State) (code n d) : (s.raise code n d).pending = s.pending := by
  obtain ⟨_, _, _, _, h⟩ := State.raise_changes s code n d
  rw [h]

/-! `raiseM` -/

@[simp] theorem State.raiseM_now (s : State) (code d) : (s.raiseM code d).now = s.now := by
  obtain ⟨_, _, _, _, h⟩ := State.raiseM_changes s code d
  rw [h]
@[simp] theorem State.raiseM_free (s : State) (code d) : (s.raiseM code d).free = s.free := by
  obtain ⟨_, _, _, _, h⟩ := State.raiseM_changes s code d
  rw [h]
@[simp] theorem State.raiseM_meridian (s : State) (code d) : (s.raiseM code d).meridian = s.meridian := by
  obtain ⟨_, _, _, _, h⟩ := State.raiseM_changes s code d
  rw [h]
@[simp] theorem State.raiseM_orrery (s : State) (code d) : (s.raiseM code d).orrery = s.orrery := by
  obtain ⟨_, _, _, _, h⟩ := State.raiseM_changes s code d
  rw [h]
@[simp] theorem State.raiseM_lodestar (s : State) (code d) : (s.raiseM code d).lodestar = s.lodestar := by
  obtain ⟨_, _, _, _, h⟩ := State.raiseM_changes s code d
  rw [h]
@[simp] theorem State.raiseM_packets (s : State) (code d) : (s.raiseM code d).packets = s.packets := by
  obtain ⟨_, _, _, _, h⟩ := State.raiseM_changes s code d
  rw [h]
@[simp] theorem State.raiseM_objects (s : State) (code d) : (s.raiseM code d).objects = s.objects := by
  obtain ⟨_, _, _, _, h⟩ := State.raiseM_changes s code d
  rw [h]
@[simp] theorem State.raiseM_cage (s : State) (code d) : (s.raiseM code d).cage = s.cage := by
  obtain ⟨_, _, _, _, h⟩ := State.raiseM_changes s code d
  rw [h]
@[simp] theorem State.raiseM_coherence (s : State) (code d) : (s.raiseM code d).coherence = s.coherence := by
  obtain ⟨_, _, _, _, h⟩ := State.raiseM_changes s code d
  rw [h]
@[simp] theorem State.raiseM_cores (s : State) (code d) : (s.raiseM code d).cores = s.cores := by
  obtain ⟨_, _, _, _, h⟩ := State.raiseM_changes s code d
  rw [h]
@[simp] theorem State.raiseM_assay (s : State) (code d) : (s.raiseM code d).assay = s.assay := by
  obtain ⟨_, _, _, _, h⟩ := State.raiseM_changes s code d
  rw [h]
@[simp] theorem State.raiseM_media (s : State) (code d) : (s.raiseM code d).media = s.media := by
  obtain ⟨_, _, _, _, h⟩ := State.raiseM_changes s code d
  rw [h]
@[simp] theorem State.raiseM_fabric (s : State) (code d) : (s.raiseM code d).fabric = s.fabric := by
  obtain ⟨_, _, _, _, h⟩ := State.raiseM_changes s code d
  rw [h]
@[simp] theorem State.raiseM_pair (s : State) (code d) : (s.raiseM code d).pair = s.pair := by
  obtain ⟨_, _, _, _, h⟩ := State.raiseM_changes s code d
  rw [h]
@[simp] theorem State.raiseM_const (s : State) (code d) : (s.raiseM code d).const = s.const := by
  obtain ⟨_, _, _, _, h⟩ := State.raiseM_changes s code d
  rw [h]
@[simp] theorem State.raiseM_units (s : State) (code d) : (s.raiseM code d).units = s.units := by
  obtain ⟨_, _, _, _, h⟩ := State.raiseM_changes s code d
  rw [h]
@[simp] theorem State.raiseM_flash (s : State) (code d) : (s.raiseM code d).flash = s.flash := by
  obtain ⟨_, _, _, _, h⟩ := State.raiseM_changes s code d
  rw [h]
@[simp] theorem State.raiseM_activation (s : State) (code d) : (s.raiseM code d).activation = s.activation := by
  obtain ⟨_, _, _, _, h⟩ := State.raiseM_changes s code d
  rw [h]
@[simp] theorem State.raiseM_startup (s : State) (code d) : (s.raiseM code d).startup = s.startup := by
  obtain ⟨_, _, _, _, h⟩ := State.raiseM_changes s code d
  rw [h]
@[simp] theorem State.raiseM_saved (s : State) (code d) : (s.raiseM code d).saved = s.saved := by
  obtain ⟨_, _, _, _, h⟩ := State.raiseM_changes s code d
  rw [h]
@[simp] theorem State.raiseM_almanac (s : State) (code d) : (s.raiseM code d).almanac = s.almanac := by
  obtain ⟨_, _, _, _, h⟩ := State.raiseM_changes s code d
  rw [h]
@[simp] theorem State.raiseM_global (s : State) (code d) : (s.raiseM code d).global = s.global := by
  obtain ⟨_, _, _, _, h⟩ := State.raiseM_changes s code d
  rw [h]
@[simp] theorem State.raiseM_blocks (s : State) (code d) : (s.raiseM code d).blocks = s.blocks := by
  obtain ⟨_, _, _, _, h⟩ := State.raiseM_changes s code d
  rw [h]
@[simp] theorem State.raiseM_tally (s : State) (code d) : (s.raiseM code d).tally = s.tally := by
  obtain ⟨_, _, _, _, h⟩ := State.raiseM_changes s code d
  rw [h]
@[simp] theorem State.raiseM_manage (s : State) (code d) : (s.raiseM code d).manage = s.manage := by
  obtain ⟨_, _, _, _, h⟩ := State.raiseM_changes s code d
  rw [h]
@[simp] theorem State.raiseM_pending (s : State) (code d) : (s.raiseM code d).pending = s.pending := by
  obtain ⟨_, _, _, _, h⟩ := State.raiseM_changes s code d
  rw [h]

/-! `measurementChanged` -/

@[simp] theorem State.measurementChanged_now (s : State) (i) : (s.measurementChanged i).now = s.now := by
  obtain ⟨_, _, _, _, h⟩ := State.measurementChanged_changes s i
  rw [h]
@[simp] theorem State.measurementChanged_free (s : State) (i) : (s.measurementChanged i).free = s.free := by
  obtain ⟨_, _, _, _, h⟩ := State.measurementChanged_changes s i
  rw [h]
@[simp] theorem State.measurementChanged_meridian (s : State) (i) : (s.measurementChanged i).meridian = s.meridian := by
  obtain ⟨_, _, _, _, h⟩ := State.measurementChanged_changes s i
  rw [h]
@[simp] theorem State.measurementChanged_orrery (s : State) (i) : (s.measurementChanged i).orrery = s.orrery := by
  obtain ⟨_, _, _, _, h⟩ := State.measurementChanged_changes s i
  rw [h]
@[simp] theorem State.measurementChanged_lodestar (s : State) (i) : (s.measurementChanged i).lodestar = s.lodestar := by
  obtain ⟨_, _, _, _, h⟩ := State.measurementChanged_changes s i
  rw [h]
@[simp] theorem State.measurementChanged_packets (s : State) (i) : (s.measurementChanged i).packets = s.packets := by
  obtain ⟨_, _, _, _, h⟩ := State.measurementChanged_changes s i
  rw [h]
@[simp] theorem State.measurementChanged_objects (s : State) (i) : (s.measurementChanged i).objects = s.objects := by
  obtain ⟨_, _, _, _, h⟩ := State.measurementChanged_changes s i
  rw [h]
@[simp] theorem State.measurementChanged_cage (s : State) (i) : (s.measurementChanged i).cage = s.cage := by
  obtain ⟨_, _, _, _, h⟩ := State.measurementChanged_changes s i
  rw [h]
@[simp] theorem State.measurementChanged_coherence (s : State) (i) : (s.measurementChanged i).coherence = s.coherence := by
  obtain ⟨_, _, _, _, h⟩ := State.measurementChanged_changes s i
  rw [h]
@[simp] theorem State.measurementChanged_cores (s : State) (i) : (s.measurementChanged i).cores = s.cores := by
  obtain ⟨_, _, _, _, h⟩ := State.measurementChanged_changes s i
  rw [h]
@[simp] theorem State.measurementChanged_assay (s : State) (i) : (s.measurementChanged i).assay = s.assay := by
  obtain ⟨_, _, _, _, h⟩ := State.measurementChanged_changes s i
  rw [h]
@[simp] theorem State.measurementChanged_media (s : State) (i) : (s.measurementChanged i).media = s.media := by
  obtain ⟨_, _, _, _, h⟩ := State.measurementChanged_changes s i
  rw [h]
@[simp] theorem State.measurementChanged_fabric (s : State) (i) : (s.measurementChanged i).fabric = s.fabric := by
  obtain ⟨_, _, _, _, h⟩ := State.measurementChanged_changes s i
  rw [h]
@[simp] theorem State.measurementChanged_pair (s : State) (i) : (s.measurementChanged i).pair = s.pair := by
  obtain ⟨_, _, _, _, h⟩ := State.measurementChanged_changes s i
  rw [h]
@[simp] theorem State.measurementChanged_const (s : State) (i) : (s.measurementChanged i).const = s.const := by
  obtain ⟨_, _, _, _, h⟩ := State.measurementChanged_changes s i
  rw [h]
@[simp] theorem State.measurementChanged_units (s : State) (i) : (s.measurementChanged i).units = s.units := by
  obtain ⟨_, _, _, _, h⟩ := State.measurementChanged_changes s i
  rw [h]
@[simp] theorem State.measurementChanged_flash (s : State) (i) : (s.measurementChanged i).flash = s.flash := by
  obtain ⟨_, _, _, _, h⟩ := State.measurementChanged_changes s i
  rw [h]
@[simp] theorem State.measurementChanged_activation (s : State) (i) : (s.measurementChanged i).activation = s.activation := by
  obtain ⟨_, _, _, _, h⟩ := State.measurementChanged_changes s i
  rw [h]
@[simp] theorem State.measurementChanged_startup (s : State) (i) : (s.measurementChanged i).startup = s.startup := by
  obtain ⟨_, _, _, _, h⟩ := State.measurementChanged_changes s i
  rw [h]
@[simp] theorem State.measurementChanged_saved (s : State) (i) : (s.measurementChanged i).saved = s.saved := by
  obtain ⟨_, _, _, _, h⟩ := State.measurementChanged_changes s i
  rw [h]
@[simp] theorem State.measurementChanged_almanac (s : State) (i) : (s.measurementChanged i).almanac = s.almanac := by
  obtain ⟨_, _, _, _, h⟩ := State.measurementChanged_changes s i
  rw [h]
@[simp] theorem State.measurementChanged_global (s : State) (i) : (s.measurementChanged i).global = s.global := by
  obtain ⟨_, _, _, _, h⟩ := State.measurementChanged_changes s i
  rw [h]
@[simp] theorem State.measurementChanged_blocks (s : State) (i) : (s.measurementChanged i).blocks = s.blocks := by
  obtain ⟨_, _, _, _, h⟩ := State.measurementChanged_changes s i
  rw [h]
@[simp] theorem State.measurementChanged_tally (s : State) (i) : (s.measurementChanged i).tally = s.tally := by
  obtain ⟨_, _, _, _, h⟩ := State.measurementChanged_changes s i
  rw [h]
@[simp] theorem State.measurementChanged_manage (s : State) (i) : (s.measurementChanged i).manage = s.manage := by
  obtain ⟨_, _, _, _, h⟩ := State.measurementChanged_changes s i
  rw [h]
@[simp] theorem State.measurementChanged_pending (s : State) (i) : (s.measurementChanged i).pending = s.pending := by
  obtain ⟨_, _, _, _, h⟩ := State.measurementChanged_changes s i
  rw [h]

/-! `platformEvent` -/

@[simp] theorem State.platformEvent_now (s : State) (k v) : (s.platformEvent k v).now = s.now := by
  obtain ⟨_, h⟩ := State.platformEvent_changes s k v
  rw [h]
@[simp] theorem State.platformEvent_free (s : State) (k v) : (s.platformEvent k v).free = s.free := by
  obtain ⟨_, h⟩ := State.platformEvent_changes s k v
  rw [h]
@[simp] theorem State.platformEvent_meridian (s : State) (k v) : (s.platformEvent k v).meridian = s.meridian := by
  obtain ⟨_, h⟩ := State.platformEvent_changes s k v
  rw [h]
@[simp] theorem State.platformEvent_orrery (s : State) (k v) : (s.platformEvent k v).orrery = s.orrery := by
  obtain ⟨_, h⟩ := State.platformEvent_changes s k v
  rw [h]
@[simp] theorem State.platformEvent_lodestar (s : State) (k v) : (s.platformEvent k v).lodestar = s.lodestar := by
  obtain ⟨_, h⟩ := State.platformEvent_changes s k v
  rw [h]
@[simp] theorem State.platformEvent_link (s : State) (k v) : (s.platformEvent k v).link = s.link := by
  obtain ⟨_, h⟩ := State.platformEvent_changes s k v
  rw [h]
@[simp] theorem State.platformEvent_packets (s : State) (k v) : (s.platformEvent k v).packets = s.packets := by
  obtain ⟨_, h⟩ := State.platformEvent_changes s k v
  rw [h]
@[simp] theorem State.platformEvent_objects (s : State) (k v) : (s.platformEvent k v).objects = s.objects := by
  obtain ⟨_, h⟩ := State.platformEvent_changes s k v
  rw [h]
@[simp] theorem State.platformEvent_cage (s : State) (k v) : (s.platformEvent k v).cage = s.cage := by
  obtain ⟨_, h⟩ := State.platformEvent_changes s k v
  rw [h]
@[simp] theorem State.platformEvent_coherence (s : State) (k v) : (s.platformEvent k v).coherence = s.coherence := by
  obtain ⟨_, h⟩ := State.platformEvent_changes s k v
  rw [h]
@[simp] theorem State.platformEvent_cores (s : State) (k v) : (s.platformEvent k v).cores = s.cores := by
  obtain ⟨_, h⟩ := State.platformEvent_changes s k v
  rw [h]
@[simp] theorem State.platformEvent_assay (s : State) (k v) : (s.platformEvent k v).assay = s.assay := by
  obtain ⟨_, h⟩ := State.platformEvent_changes s k v
  rw [h]
@[simp] theorem State.platformEvent_media (s : State) (k v) : (s.platformEvent k v).media = s.media := by
  obtain ⟨_, h⟩ := State.platformEvent_changes s k v
  rw [h]
@[simp] theorem State.platformEvent_log (s : State) (k v) : (s.platformEvent k v).log = s.log := by
  obtain ⟨_, h⟩ := State.platformEvent_changes s k v
  rw [h]
@[simp] theorem State.platformEvent_fabric (s : State) (k v) : (s.platformEvent k v).fabric = s.fabric := by
  obtain ⟨_, h⟩ := State.platformEvent_changes s k v
  rw [h]
@[simp] theorem State.platformEvent_pair (s : State) (k v) : (s.platformEvent k v).pair = s.pair := by
  obtain ⟨_, h⟩ := State.platformEvent_changes s k v
  rw [h]
@[simp] theorem State.platformEvent_const (s : State) (k v) : (s.platformEvent k v).const = s.const := by
  obtain ⟨_, h⟩ := State.platformEvent_changes s k v
  rw [h]
@[simp] theorem State.platformEvent_power (s : State) (k v) : (s.platformEvent k v).power = s.power := by
  obtain ⟨_, h⟩ := State.platformEvent_changes s k v
  rw [h]
@[simp] theorem State.platformEvent_units (s : State) (k v) : (s.platformEvent k v).units = s.units := by
  obtain ⟨_, h⟩ := State.platformEvent_changes s k v
  rw [h]
@[simp] theorem State.platformEvent_flash (s : State) (k v) : (s.platformEvent k v).flash = s.flash := by
  obtain ⟨_, h⟩ := State.platformEvent_changes s k v
  rw [h]
@[simp] theorem State.platformEvent_activation (s : State) (k v) : (s.platformEvent k v).activation = s.activation := by
  obtain ⟨_, h⟩ := State.platformEvent_changes s k v
  rw [h]
@[simp] theorem State.platformEvent_startup (s : State) (k v) : (s.platformEvent k v).startup = s.startup := by
  obtain ⟨_, h⟩ := State.platformEvent_changes s k v
  rw [h]
@[simp] theorem State.platformEvent_saved (s : State) (k v) : (s.platformEvent k v).saved = s.saved := by
  obtain ⟨_, h⟩ := State.platformEvent_changes s k v
  rw [h]
@[simp] theorem State.platformEvent_almanac (s : State) (k v) : (s.platformEvent k v).almanac = s.almanac := by
  obtain ⟨_, h⟩ := State.platformEvent_changes s k v
  rw [h]
@[simp] theorem State.platformEvent_global (s : State) (k v) : (s.platformEvent k v).global = s.global := by
  obtain ⟨_, h⟩ := State.platformEvent_changes s k v
  rw [h]
@[simp] theorem State.platformEvent_blocks (s : State) (k v) : (s.platformEvent k v).blocks = s.blocks := by
  obtain ⟨_, h⟩ := State.platformEvent_changes s k v
  rw [h]
@[simp] theorem State.platformEvent_tally (s : State) (k v) : (s.platformEvent k v).tally = s.tally := by
  obtain ⟨_, h⟩ := State.platformEvent_changes s k v
  rw [h]
@[simp] theorem State.platformEvent_tailings (s : State) (k v) : (s.platformEvent k v).tailings = s.tailings := by
  obtain ⟨_, h⟩ := State.platformEvent_changes s k v
  rw [h]
@[simp] theorem State.platformEvent_pending (s : State) (k v) : (s.platformEvent k v).pending = s.pending := by
  obtain ⟨_, h⟩ := State.platformEvent_changes s k v
  rw [h]

/-! `setUnitState` -/

@[simp] theorem State.setUnitState_now (s : State) (u st c) : (s.setUnitState u st c).now = s.now := by
  obtain ⟨_, _, h⟩ := State.setUnitState_changes s u st c
  rw [h]
@[simp] theorem State.setUnitState_free (s : State) (u st c) : (s.setUnitState u st c).free = s.free := by
  obtain ⟨_, _, h⟩ := State.setUnitState_changes s u st c
  rw [h]
@[simp] theorem State.setUnitState_meridian (s : State) (u st c) : (s.setUnitState u st c).meridian = s.meridian := by
  obtain ⟨_, _, h⟩ := State.setUnitState_changes s u st c
  rw [h]
@[simp] theorem State.setUnitState_orrery (s : State) (u st c) : (s.setUnitState u st c).orrery = s.orrery := by
  obtain ⟨_, _, h⟩ := State.setUnitState_changes s u st c
  rw [h]
@[simp] theorem State.setUnitState_lodestar (s : State) (u st c) : (s.setUnitState u st c).lodestar = s.lodestar := by
  obtain ⟨_, _, h⟩ := State.setUnitState_changes s u st c
  rw [h]
@[simp] theorem State.setUnitState_link (s : State) (u st c) : (s.setUnitState u st c).link = s.link := by
  obtain ⟨_, _, h⟩ := State.setUnitState_changes s u st c
  rw [h]
@[simp] theorem State.setUnitState_packets (s : State) (u st c) : (s.setUnitState u st c).packets = s.packets := by
  obtain ⟨_, _, h⟩ := State.setUnitState_changes s u st c
  rw [h]
@[simp] theorem State.setUnitState_objects (s : State) (u st c) : (s.setUnitState u st c).objects = s.objects := by
  obtain ⟨_, _, h⟩ := State.setUnitState_changes s u st c
  rw [h]
@[simp] theorem State.setUnitState_cage (s : State) (u st c) : (s.setUnitState u st c).cage = s.cage := by
  obtain ⟨_, _, h⟩ := State.setUnitState_changes s u st c
  rw [h]
@[simp] theorem State.setUnitState_coherence (s : State) (u st c) : (s.setUnitState u st c).coherence = s.coherence := by
  obtain ⟨_, _, h⟩ := State.setUnitState_changes s u st c
  rw [h]
@[simp] theorem State.setUnitState_cores (s : State) (u st c) : (s.setUnitState u st c).cores = s.cores := by
  obtain ⟨_, _, h⟩ := State.setUnitState_changes s u st c
  rw [h]
@[simp] theorem State.setUnitState_assay (s : State) (u st c) : (s.setUnitState u st c).assay = s.assay := by
  obtain ⟨_, _, h⟩ := State.setUnitState_changes s u st c
  rw [h]
@[simp] theorem State.setUnitState_media (s : State) (u st c) : (s.setUnitState u st c).media = s.media := by
  obtain ⟨_, _, h⟩ := State.setUnitState_changes s u st c
  rw [h]
@[simp] theorem State.setUnitState_log (s : State) (u st c) : (s.setUnitState u st c).log = s.log := by
  obtain ⟨_, _, h⟩ := State.setUnitState_changes s u st c
  rw [h]
@[simp] theorem State.setUnitState_fabric (s : State) (u st c) : (s.setUnitState u st c).fabric = s.fabric := by
  obtain ⟨_, _, h⟩ := State.setUnitState_changes s u st c
  rw [h]
@[simp] theorem State.setUnitState_pair (s : State) (u st c) : (s.setUnitState u st c).pair = s.pair := by
  obtain ⟨_, _, h⟩ := State.setUnitState_changes s u st c
  rw [h]
@[simp] theorem State.setUnitState_const (s : State) (u st c) : (s.setUnitState u st c).const = s.const := by
  obtain ⟨_, _, h⟩ := State.setUnitState_changes s u st c
  rw [h]
@[simp] theorem State.setUnitState_power (s : State) (u st c) : (s.setUnitState u st c).power = s.power := by
  obtain ⟨_, _, h⟩ := State.setUnitState_changes s u st c
  rw [h]
@[simp] theorem State.setUnitState_flash (s : State) (u st c) : (s.setUnitState u st c).flash = s.flash := by
  obtain ⟨_, _, h⟩ := State.setUnitState_changes s u st c
  rw [h]
@[simp] theorem State.setUnitState_activation (s : State) (u st c) : (s.setUnitState u st c).activation = s.activation := by
  obtain ⟨_, _, h⟩ := State.setUnitState_changes s u st c
  rw [h]
@[simp] theorem State.setUnitState_startup (s : State) (u st c) : (s.setUnitState u st c).startup = s.startup := by
  obtain ⟨_, _, h⟩ := State.setUnitState_changes s u st c
  rw [h]
@[simp] theorem State.setUnitState_saved (s : State) (u st c) : (s.setUnitState u st c).saved = s.saved := by
  obtain ⟨_, _, h⟩ := State.setUnitState_changes s u st c
  rw [h]
@[simp] theorem State.setUnitState_almanac (s : State) (u st c) : (s.setUnitState u st c).almanac = s.almanac := by
  obtain ⟨_, _, h⟩ := State.setUnitState_changes s u st c
  rw [h]
@[simp] theorem State.setUnitState_global (s : State) (u st c) : (s.setUnitState u st c).global = s.global := by
  obtain ⟨_, _, h⟩ := State.setUnitState_changes s u st c
  rw [h]
@[simp] theorem State.setUnitState_blocks (s : State) (u st c) : (s.setUnitState u st c).blocks = s.blocks := by
  obtain ⟨_, _, h⟩ := State.setUnitState_changes s u st c
  rw [h]
@[simp] theorem State.setUnitState_tally (s : State) (u st c) : (s.setUnitState u st c).tally = s.tally := by
  obtain ⟨_, _, h⟩ := State.setUnitState_changes s u st c
  rw [h]
@[simp] theorem State.setUnitState_manage (s : State) (u st c) : (s.setUnitState u st c).manage = s.manage := by
  obtain ⟨_, _, h⟩ := State.setUnitState_changes s u st c
  rw [h]
@[simp] theorem State.setUnitState_pending (s : State) (u st c) : (s.setUnitState u st c).pending = s.pending := by
  obtain ⟨_, _, h⟩ := State.setUnitState_changes s u st c
  rw [h]

end Sys2Proof.Machine
end

