-- ==== Sys2Proof/Laws/Tables.lean ====
section
/-!
SUPPORT. Reading a table or a byte memory after a change of it, and the canonical form of byte memories.
-/
namespace Sys2Proof.Machine

/-! ### Tables -/

@[simp] theorem tget?_tset_self {α : Type} (m : Tbl α) (k : Nat) (v : α) : tget? (tset m k v) k = some v := by
  induction m with
  | nil => simp [tset, tget?]
  | cons p m ih =>
    obtain ⟨k', v'⟩ := p
    unfold tset
    split
    · simp [tget?]
    · split
      · simp [tget?]
      · rename_i h; simp [tget?, Ne.symm h, ih]

theorem tget?_tset_ne {α : Type} (m : Tbl α) {k j : Nat} (v : α) (h : j ≠ k) : tget? (tset m k v) j = tget? m j := by
  induction m with
  | nil => simp [tset, tget?, h.symm]
  | cons p m ih =>
    obtain ⟨k', v'⟩ := p
    unfold tset
    split
    · simp [tget?, h.symm]
    · split
      · rename_i hk; subst hk; simp [tget?, h.symm]
      · simp [tget?, ih]

/-- Reading after one entry is written. -/
theorem tget?_tset {α : Type} (m : Tbl α) (k j : Nat) (v : α) : tget? (tset m k v) j = if j = k then some v else tget? m j := by
  by_cases h : j = k
  · subst h; simp
  · simp [h, tget?_tset_ne m v h]

@[simp] theorem tgetD_tset_self {α : Type} (m : Tbl α) (k : Nat) (v d : α) : tgetD (tset m k v) k d = v := by
  simp [tgetD]

theorem tgetD_tset_ne {α : Type} (m : Tbl α) {k j : Nat} (v d : α) (h : j ≠ k) : tgetD (tset m k v) j d = tgetD m j d := by
  simp [tgetD, tget?_tset_ne m v h]

@[simp] theorem tgetD_tmod_self {α : Type} (m : Tbl α) (k : Nat) (d : α) (f : α → α) : tgetD (tmod m k d f) k d = f (tgetD m k d) := by
  simp [tmod]

theorem tgetD_tmod_ne {α : Type} (m : Tbl α) {k j : Nat} (d e : α) (f : α → α) (h : j ≠ k) : tgetD (tmod m k d f) j e = tgetD m j e := by
  simp [tmod, tgetD_tset_ne _ _ _ h]

@[simp] theorem tget?_terase_self {α : Type} (m : Tbl α) (k : Nat) : tget? (terase m k) k = none := by
  induction m with
  | nil => rfl
  | cons p m ih =>
    obtain ⟨k', v'⟩ := p
    by_cases h : k' = k
    · simpa [terase, h] using ih
    · simpa [terase, h, tget?] using ih

theorem tget?_terase_ne {α : Type} (m : Tbl α) {k j : Nat} (h : j ≠ k) : tget? (terase m k) j = tget? m j := by
  induction m with
  | nil => rfl
  | cons p m ih =>
    obtain ⟨k', v'⟩ := p
    by_cases hk : k' = k
    · subst hk; simpa [terase, tget?, h.symm] using ih
    · by_cases hj : k' = j
      · subst hj; simp [terase, hk, tget?]
      · simpa [terase, hk, tget?, hj] using ih

theorem tget?_tupd_self {α : Type} (m : Tbl α) (k : Nat) (f : α → α) : tget? (tupd m k f) k = (tget? m k).map f := by
  induction m with
  | nil => rfl
  | cons p m ih =>
    obtain ⟨k', v'⟩ := p
    by_cases h : k' = k
    · simp [tupd, h, tget?]
    · simpa [tupd, h, tget?] using ih

theorem tget?_tupd_ne {α : Type} (m : Tbl α) {k j : Nat} (f : α → α) (h : j ≠ k) : tget? (tupd m k f) j = tget? m j := by
  induction m with
  | nil => rfl
  | cons p m ih =>
    obtain ⟨k', v'⟩ := p
    by_cases hk : k' = k
    · subst hk; simpa [tupd, tget?, h.symm] using ih
    · by_cases hj : k' = j
      · subst hj; simp [tupd, hk, tget?]
      · simpa [tupd, hk, tget?, hj] using ih

@[simp] theorem tget?_tmapv {α : Type} (m : Tbl α) (k : Nat) (f : Nat → α → α) : tget? (tmapv m f) k = (tget? m k).map (f k) := by
  induction m with
  | nil => rfl
  | cons p m ih =>
    obtain ⟨k', v'⟩ := p
    by_cases h : k' = k
    · subst h; simp [tmapv, tget?]
    · simpa [tmapv, tget?, h] using ih

/-! ### Byte memories -/

theorem cellsFrom_le {m : Cells} {lo lo' : Nat} (h : cellsFrom lo m = true) (hl : lo' ≤ lo) : cellsFrom lo' m = true := by
  cases m with
  | nil => rfl
  | cons p m =>
    simp only [cellsFrom, Bool.and_eq_true, decide_eq_true_eq] at h ⊢
    exact ⟨⟨by omega, h.1.2⟩, h.2⟩

theorem cellsFrom_cset {m : Cells} {lo a : Nat} (v : Byte) (h : cellsFrom lo m = true) (ha : lo ≤ a) : cellsFrom lo (cset m a v) = true := by
  induction m generalizing lo with
  | nil => by_cases hv : v = 0#8 <;> simp [cset, hv, cellsFrom, ha]
  | cons p m ih =>
    obtain ⟨a', v'⟩ := p
    simp only [cellsFrom, Bool.and_eq_true, decide_eq_true_eq] at h
    obtain ⟨⟨h1, h2⟩, h3⟩ := h
    unfold cset
    split
    · split
      · simp only [cellsFrom, Bool.and_eq_true, decide_eq_true_eq]
        exact ⟨⟨h1, h2⟩, h3⟩
      · rename_i hv
        simp only [cellsFrom, Bool.and_eq_true, decide_eq_true_eq]
        exact ⟨⟨ha, by simpa using hv⟩, ⟨by omega, h2⟩, h3⟩
    · split
      · rename_i h5; subst h5
        split
        · exact cellsFrom_le h3 (by omega)
        · rename_i hv
          simp only [cellsFrom, Bool.and_eq_true, decide_eq_true_eq]
          exact ⟨⟨ha, by simpa using hv⟩, h3⟩
      · simp only [cellsFrom, Bool.and_eq_true, decide_eq_true_eq]
        exact ⟨⟨h1, h2⟩, ih h3 (by omega)⟩

/-- A write of one byte keeps the canonical form. -/
theorem cellsWf_cset {m : Cells} (a : Nat) (v : Byte) (h : cellsWf m = true) : cellsWf (cset m a v) = true :=
  cellsFrom_cset v h (Nat.zero_le a)

/-- A write of bytes keeps the canonical form. -/
theorem cellsWf_csetBytes {m : Cells} (a : Nat) (d : List Byte) (h : cellsWf m = true) : cellsWf (csetBytes m a d) = true := by
  induction d generalizing m a with
  | nil => exact h
  | cons b d ih => exact ih (a + 1) (cellsWf_cset a b h)

/-- Leaving out bytes keeps the canonical form. -/
theorem cellsFrom_filter {m : Cells} {lo : Nat} (f : Nat × Byte → Bool) (h : cellsFrom lo m = true) : cellsFrom lo (m.filter f) = true := by
  induction m generalizing lo with
  | nil => rfl
  | cons p m ih =>
    simp only [cellsFrom, Bool.and_eq_true, decide_eq_true_eq] at h
    by_cases hp : f p = true
    · simp only [List.filter_cons, hp, if_true, cellsFrom, Bool.and_eq_true, decide_eq_true_eq]
      exact ⟨h.1, ih h.2⟩
    · simp only [List.filter_cons, hp]
      exact cellsFrom_le (ih h.2) (by omega)

theorem tget?_none_of_lt {m : Cells} {lo a : Nat} (h : cellsFrom lo m = true) (ha : a < lo) : tget? m a = none := by
  induction m generalizing lo with
  | nil => rfl
  | cons p m ih =>
    obtain ⟨a', v'⟩ := p
    simp only [cellsFrom, Bool.and_eq_true, decide_eq_true_eq] at h
    obtain ⟨⟨h1, _⟩, h3⟩ := h
    have : a' ≠ a := by omega
    simp only [tget?, this, if_false]
    exact ih h3 (by omega)

theorem cget_cset_from {m : Cells} {lo : Nat} (a b : Nat) (v : Byte) (h : cellsFrom lo m = true) :
    cget (cset m a v) b = if b = a then v else cget m b := by
  induction m generalizing lo with
  | nil =>
    by_cases hv : v = 0#8
    · by_cases hb : b = a <;> simp [cset, hv, cget, tget?, hb]
    · by_cases hb : b = a
      · simp [cset, hv, cget, tget?, hb]
      · simp [cset, hv, cget, tget?, hb, Ne.symm hb]
  | cons p m ih =>
    obtain ⟨a', v'⟩ := p
    simp only [cellsFrom, Bool.and_eq_true, decide_eq_true_eq] at h
    obtain ⟨⟨h1, h2⟩, h3⟩ := h
    unfold cset
    split
    · rename_i h4
      by_cases hv : v = 0#8
      · by_cases hb : b = a
        · subst hb
          have n : a' ≠ b := by omega
          simp [hv, cget, tget?, n, tget?_none_of_lt h3 (show b < a' + 1 by omega)]
        · simp [hv, hb]
      · by_cases hb : b = a
        · simp [hv, hb, cget, tget?]
        · simp [hv, hb, cget, tget?, Ne.symm hb]
    · split
      · rename_i h5; subst h5
        by_cases hv : v = 0#8
        · by_cases hb : b = a
          · subst hb; simp [hv, cget, tget?_none_of_lt h3 (show b < b + 1 by omega)]
          · simp [hv, hb, cget, tget?, Ne.symm hb]
        · by_cases hb : b = a
          · simp [hv, hb, cget, tget?]
          · simp [hv, hb, cget, tget?, Ne.symm hb]
      · rename_i h4 h5
        have e := ih h3
        by_cases hb : a' = b
        · subst hb; simp [cget, tget?, Ne.symm h5]
        · simpa [cget, tget?, hb] using e

/-- Reading after one byte is written. -/
theorem cget_cset {m : Cells} (a b : Nat) (v : Byte) (h : cellsWf m = true) : cget (cset m a v) b = if b = a then v else cget m b :=
  cget_cset_from a b v h

/-- Reading after bytes are written. -/
theorem cget_csetBytes {m : Cells} (a b : Nat) (d : List Byte) (h : cellsWf m = true) :
    cget (csetBytes m a d) b = if a ≤ b ∧ b < a + d.length then d.getD (b - a) 0 else cget m b := by
  induction d generalizing m a with
  | nil => simp [csetBytes] <;> omega
  | cons x d ih =>
    rw [csetBytes, ih (a + 1) (cellsWf_cset a x h), cget_cset a b x h]
    by_cases h1 : b = a
    · subst h1; simp <;> omega
    · by_cases h2 : a + 1 ≤ b ∧ b < a + 1 + d.length
      · have h3 : a ≤ b ∧ b < a + (x :: d).length := by simp only [List.length_cons]; omega
        rw [if_pos h2, if_pos h3]
        obtain ⟨k, rfl⟩ : ∃ k, b = a + 1 + k := ⟨b - (a + 1), by omega⟩
        have e1 : a + 1 + k - (a + 1) = k := by omega
        have e2 : a + 1 + k - a = k + 1 := by omega
        simp [e1, e2]
      · have h3 : ¬ (a ≤ b ∧ b < a + (x :: d).length) := by simp only [List.length_cons]; omega
        rw [if_neg h2, if_neg h3, if_neg h1]

end Sys2Proof.Machine
end

