-- ==== Sys2Proof/Machine/Sled.lean ====
section
/-!
DEFINITION. The outputs of the sled that are functions of the state: the LED lines and WAKE# (spec/23_the_sled.md, R620, R622, Table Sled 4).
-/
namespace Sys2Proof.Machine

/-- What a LED line shows (Table Sled 4). -/
inductive Led
  | off | on | blink1Hz | blink4Hz | pulse4s
  deriving DecidableEq, Repr

/-- A command or a packet is outstanding on a function; an Asynchronous Event Request does not count. -/
def State.outstandingNow (s : State) : Bool :=
  s.packets.live.any (fun p => p.2.open_) || !s.media.flushes.isEmpty || !s.tally.reads.isEmpty ||
    s.link.controllers.any (fun c => c.2.sqs.any (fun q => !q.2.visible.isEmpty) || c.2.cqs.any (fun q => !q.2.held.isEmpty))

/-- Some command or packet has been outstanding in the last 100 ms. -/
def State.recentlyBusy (s : State) : Bool :=
  s.outstandingNow || s.link.controllers.any (fun c => c.2.busyAt.elim false (fun b => decide (s.now ≤ b + 100000000)))

/-- LED_ACT#: the first row that applies (R622). -/
def State.ledAct (s : State) : Led :=
  if s.power.off ∨ s.power.pwrdis then .off
  else if 3 ≤ s.power.cur then .pulse4s
  else if !(s.ctrl 0).ready then .blink1Hz
  else if s.recentlyBusy then .blink4Hz
  else .on

/-- LED_FAULT#: the first row that applies (R622). -/
def State.ledFault (s : State) : Led :=
  if s.global.mfault ∨ s.startup.noSlot then .on
  else if s.criticalWarning ≠ 0 then .blink1Hz
  else .off

/-- WAKE# is driven low: from a wake by a management request or a fabric partner until the first frame (R488, R620). -/
def State.wakeLow (s : State) : Bool := s.power.lantern == .waking && s.power.wakePin

end Sys2Proof.Machine
end

