-- ==== Sys2Proof/WellFormed.lean ====
section
/-!
DEFINITION. Which commands are well formed: every number fits the field or the range that the spec gives it (units, cores, ports, functions,
drifts and dies of Table Unit 1 and Table Flash 1; device addresses of R313; the submission queue entry of NVMe).
-/
namespace Sys2Proof

open Sys2Proof.Machine

/-- A submission queue entry: its function is the PF or one of the 63 VFs, and its identifiers have their widths (R63, R119). -/
def Sqe.wf (q : Sqe) : Bool :=
  decide (q.fn < 64) && decide (q.sqid < 65536) && decide (q.cid < 65536) && decide (q.nsid < 2 ^ 32) &&
  q.buf.all (fun r => decide (r.1 + r.2 ≤ 2 ^ 64))

/-- A command is well formed. -/
def Instr.wf : Instr → Bool
  | .meridianTick _ _ _ => true
  | .tickAckLate _ d => decide (d < 12)
  | .tickAcknowledge _ d => decide (d < 12)
  | .deadlineTick _ => true
  | .periodChanged _ => true
  | .orreryActivated _ => true
  | .contractChangeEffect _ => true
  | .sqTailDoorbell _ fn sqid _ => decide (fn < 64) && decide (sqid < 65536)
  | .submitWork q psdt fuse prp1 _ _ _ => q.wf && decide (psdt < 4) && decide (fuse < 4) && decide (prp1 < 2 ^ 64)
  | .shiftRecordMirrorAck _ _ => true
  | .abortWork q => q.wf
  | .seamSearch _ _ => true
  | .seamSearchFiltered _ _ => true
  | .seamInsert _ _ _ => true
  | .seamBuildCreate _ _ _ => true
  | .seamBuildLoad _ _ _ _ => true
  | .attend _ _ => true
  | .appendKv _ _ _ => true
  | .kvOpen _ _ _ => true
  | .kvClose _ _ => true
  | .sift _ _ _ _ => true
  | .embed _ _ => true
  | .embedAndInsert _ _ _ => true
  | .assay _ _ => true
  | .runProgram _ _ => true
  | .placeCreate _ _ _ => true
  | .placeSetPlacement _ _ => true
  | .placeDelete _ _ => true
  | .pin _ _ => true
  | .unpin _ _ => true
  | .prefetch _ _ => true
  | .frameProbe _ _ => true
  | .answerDelivery _ _ _ _ _ _ => true
  | .jobFault _ _ _ _ _ => true
  | .watchdogOverrun _ core => decide (core < 256)
  | .add core _ _ _ _ _ => decide (core < 256)
  | .sub core _ _ _ _ _ => decide (core < 256)
  | .and core _ _ _ _ _ => decide (core < 256)
  | .or core _ _ _ _ _ => decide (core < 256)
  | .xor core _ _ _ _ _ => decide (core < 256)
  | .shl core _ _ _ _ _ => decide (core < 256)
  | .shr core _ _ _ _ _ => decide (core < 256)
  | .sar core _ _ _ _ _ => decide (core < 256)
  | .addi core _ _ _ _ _ => decide (core < 256)
  | .li core _ _ _ _ => decide (core < 256)
  | .lui core _ _ _ _ _ => decide (core < 256)
  | .mul core _ _ _ _ _ => decide (core < 256)
  | .divu core _ _ _ _ _ => decide (core < 256)
  | .cmpeq core _ _ _ _ _ => decide (core < 256)
  | .cmplt core _ _ _ _ _ => decide (core < 256)
  | .cmpltu core _ _ _ _ _ => decide (core < 256)
  | .fadd core _ _ _ _ _ => decide (core < 256)
  | .fmul core _ _ _ _ _ => decide (core < 256)
  | .movpx core _ _ _ _ => decide (core < 256)
  | .movxp core _ _ _ _ => decide (core < 256)
  | .br core _ _ => decide (core < 256)
  | .brx core _ _ => decide (core < 256)
  | .exit core _ _ => decide (core < 256)
  | .ldx core _ _ _ _ _ => decide (core < 256)
  | .stx core _ _ _ _ _ => decide (core < 256)
  | .ldv core _ _ _ _ _ => decide (core < 256)
  | .stv core _ _ _ _ _ => decide (core < 256)
  | .ldvb core _ _ _ _ _ => decide (core < 256)
  | .sget core _ _ _ _ _ _ => decide (core < 256)
  | .sput core _ _ _ _ _ _ _ => decide (core < 256)
  | .sgather core _ _ _ _ _ _ _ => decide (core < 256)
  | .streamComplete core _ => decide (core < 256)
  | .wait core _ _ _ => decide (core < 256)
  | .drain core _ => decide (core < 256)
  | .tclr core _ _ => decide (core < 256)
  | .vadd core _ _ _ _ _ => decide (core < 256)
  | .vsub core _ _ _ _ _ => decide (core < 256)
  | .vmul core _ _ _ _ _ _ => decide (core < 256)
  | .vmax core _ _ _ _ _ => decide (core < 256)
  | .vmin core _ _ _ _ _ => decide (core < 256)
  | .vand core _ _ _ _ _ => decide (core < 256)
  | .vor core _ _ _ _ _ => decide (core < 256)
  | .vxor core _ _ _ _ _ => decide (core < 256)
  | .vshl core _ _ _ _ _ => decide (core < 256)
  | .vshr core _ _ _ _ _ => decide (core < 256)
  | .vsar core _ _ _ _ _ => decide (core < 256)
  | .vfma core _ _ _ _ _ _ => decide (core < 256)
  | .vcmp core _ _ _ _ _ _ => decide (core < 256)
  | .vsel core _ _ _ _ => decide (core < 256)
  | .vcvt core _ _ _ _ _ _ => decide (core < 256)
  | .vcvts core _ _ _ _ _ _ _ => decide (core < 256)
  | .vexp core _ _ _ _ => decide (core < 256)
  | .vrcp core _ _ _ _ => decide (core < 256)
  | .accrd core _ _ _ => decide (core < 256)
  | .accwr core _ _ _ => decide (core < 256)
  | .accclr core _ _ => decide (core < 256)
  | .vredadd core _ _ _ _ => decide (core < 256)
  | .vredmax core _ _ _ _ => decide (core < 256)
  | .vperm core _ _ _ _ => decide (core < 256)
  | .vbcast core _ _ _ _ => decide (core < 256)
  | .vtap core _ _ _ _ => decide (core < 256)
  | .mac core _ _ _ _ _ _ _ => decide (core < 256)
  | .tload core _ _ _ => decide (core < 256)
  | .tbuild core _ _ _ => decide (core < 256)
  | .tacc core _ _ _ _ => decide (core < 256)
  | .loop core _ _ _ _ => decide (core < 256)
  | .resultWriteback core => decide (core < 256)
  | .windowEnd _ _ _ _ _ => true
  | .referenceLossOfSignal _ _ _ => true
  | .pinMark _ => true
  | .ptmDialog _ _ _ => true
  | .holdoverExpired _ => true
  | .waitToRestoreExpiry _ => true
  | .lodCmdSwitch _ _ => true
  | .surveyStale _ member _ => decide (member < 64)
  | .setFeaturesFramePeriod q _ _ => q.wf
  | .getFeaturesFramePeriod q => q.wf
  | .setFeaturesLodestarConfig q => q.wf
  | .getFeaturesLodestarConfig q => q.wf
  | .setFeaturesTimestamp q => q.wf
  | .getFeaturesTimestamp q => q.wf
  | .setFeaturesPlacementDefaults q => q.wf
  | .getFeaturesPlacementDefaults q => q.wf
  | .setFeaturesAssayMode q => q.wf
  | .getFeaturesAssayMode q => q.wf
  | .setFeaturesVolatileWriteCache q => q.wf
  | .setFeaturesPowerManagement q => q.wf
  | .getFeaturesPowerManagement q => q.wf
  | .trimToFewerDomains _ => true
  | .domainPowerOff _ => true
  | .domainPowerOn _ => true
  | .coreReady _ n => decide (n < 256)
  | .lanternEntry _ => true
  | .wake _ _ => true
  | .clockStop _ d _ => decide (d < 12)
  | .clockWake _ d => decide (d < 12)
  | .crossingStall _ u _ => decide (u < 375)
  | .temperatureSample _ d _ => decide (d < 12)
  | .inputPowerSample _ _ => true
  | .thermalStep _ => true
  | .thermalRestore _ => true
  | .thermalCritical _ => true
  | .thermalCriticalReturn _ => true
  | .unitObserve _ u _ => decide (u < 375)
  | .unitContested _ u => decide (u < 375)
  | .reconciliationProbeEnd _ u _ => decide (u < 375)
  | .unitRequest _ _ u => decide (u < 375)
  | .unitControlRead q => q.wf
  | .unitControlReset q => q.wf
  | .unitControlOutOfService q => q.wf
  | .unitControlReturn q => q.wf
  | .unitControlProbe q => q.wf
  | .unitControlHold q => q.wf
  | .flashOwn q _ => q.wf
  | .flashRelease q => q.wf
  | .coldReset q => q.wf
  | .quiesceRequest _ u => decide (u < 375)
  | .drainEnd _ u _ => decide (u < 375)
  | .unitReset _ u _ => decide (u < 375)
  | .unitLost _ u _ => decide (u < 375)
  | .moduleFault _ _ => true
  | .structRepaired _ _ _ _ => true
  | .contractSet q => q.wf
  | .orreryLoad q => q.wf
  | .almanacBurnRead q => q.wf
  | .almanacBurnStage q => q.wf
  | .almanacBurnCommit q _ => q.wf
  | .almanacBurnDiscard q => q.wf
  | .stagedBurnExpiry _ => true
  | .pairControlStatus q => q.wf
  | .bindStage q _ => q.wf
  | .bindCommit q _ => q.wf
  | .unbind q _ => q.wf
  | .split q => q.wf
  | .rejoin q => q.wf
  | .takeoverCq q => q.wf
  | .mirrorMask q => q.wf
  | .role q => q.wf
  | .spanSet q => q.wf
  | .spanClear q => q.wf
  | .surveyForm q _ _ _ _ => q.wf
  | .survey q => q.wf
  | .binaryPortLinkUp _ p _ _ _ _ _ _ _ _ _ _ => decide (p < 12)
  | .pairDetectChange _ _ _ => true
  | .pairLost _ => true
  | .pairPartition _ => true
  | .pairWaitExpiry _ => true
  | .resyncDone _ => true
  | .resyncRegionCopy _ _ _ => true
  | .pairSequenceRequest _ _ => true
  | .mirrorWriteReceived _ _ _ => true
  | .wireFrameReceived _ p _ _ _ _ => decide (p < 12)
  | .nak _ p => decide (p < 12)
  | .creditReturn _ p => decide (p < 12)
  | .tickMarker _ p _ _ _ => decide (p < 12)
  | .faultNotice _ p => decide (p < 12)
  | .fabricPortDown _ p _ _ => decide (p < 12)
  | .routeChanged _ _ _ _ => true
  | .subpacket _ _ => true
  | .result _ _ _ _ => true
  | .subpacketCancel _ member _ => decide (member < 64)
  | .memberLost _ m => decide (m < 64)
  | .foremanChanged _ _ => true
  | .nvmRead q => q.wf
  | .nvmWrite q _ _ => q.wf
  | .writeZeroes q _ _ => q.wf
  | .datasetManagementDeallocate q _ _ => q.wf
  | .flush q _ => q.wf
  | .namespaceManagementCreate q _ => q.wf
  | .namespaceAttachment q => q.wf
  | .memoryRead q _ handle _ _ => q.wf && decide (handle < 2 ^ 64)
  | .memoryWrite q _ handle _ _ _ _ => q.wf && decide (handle < 2 ^ 64)
  | .loadProgram q _ _ _ _ _ _ => q.wf
  | .programActivationManagement q _ _ => q.wf
  | .executeProgram q _ _ _ _ _ _ => q.wf
  | .memoryRangeSetManagement q _ _ _ => q.wf
  | .getLogPageEventLog q => q.wf
  | .getLogPageTallySnapshot q => q.wf
  | .tallyReadAndClear q => q.wf
  | .getLogPageTenantPercentiles q => q.wf
  | .getLogPageShiftBookStatus q => q.wf
  | .getLogPageUnitTable q => q.wf
  | .getLogPageSmart q => q.wf
  | .getLogPageSanitizeStatus q => q.wf
  | .asynchronousEventRequest q => q.wf
  | .eventLogPersist _ _ => true
  | .logRelocated _ _ _ => true
  | .logLastGasp _ _ _ => true
  | .firmwareImageDownload q _ => q.wf
  | .firmwareCommitReplace q _ => q.wf
  | .firmwareCommitReplaceActivateReset q _ => q.wf
  | .firmwareCommitActivateReset q _ => q.wf
  | .firmwareCommitActivateNow q _ => q.wf
  | .activationAdmissionClose _ => true
  | .activationStart _ => true
  | .fwActivated _ _ => true
  | .activationAdmissionReopen _ => true
  | .activationTimeout _ => true
  | .fwActivateFailed _ _ => true
  | .sanitizeCryptoErase q => q.wf
  | .sanitizeBlockErase q => q.wf
  | .sanitizeResume _ => true
  | .controllerLevelReset _ fn => decide (fn < 64)
  | .functionLevelReset _ fn => decide (fn < 64)
  | .surpriseLinkDown _ => true
  | .controllerEnable _ fn _ _ _ => decide (fn < 64)
  | .normalShutdown _ fn => decide (fn < 64)
  | .abruptShutdown _ fn => decide (fn < 64)
  | .configRequest _ => true
  | .linkRateChange _ _ _ _ => true
  | .poisonedTlpReceived q => q.wf
  | .ideFailure _ _ => true
  | .ideKm _ _ _ => true
  | .perst _ _ _ => true
  | .pwrdis _ _ _ => true
  | .inputPowerLoss _ => true
  | .holdupFlushEnd _ _ => true
  | .inputPowerGood _ _ => true
  | .startUp => true
  | .boot _ _ _ => true
  | .bootCountWrite _ => true
  | .stewardsStart _ _ _ => true
  | .tierHPrepare _ _ => true
  | .mount _ _ _ _ => true
  | .stageReady _ => true
  | .residencyComplete _ => true
  | .admissionOpen _ => true
  | .foremanAutoForm _ _ _ _ _ => true
  | .checkpointBegin _ _ => true
  | .checkpointComplete _ _ => true
  | .nandReadComplete _ drift die plane block _ sector level _ _ _ _ => decide (drift < 64) && decide (die < 16) && decide (plane < 4) && decide (block < 1360) && decide (sector < 4) && decide (level ≤ 4)
  | .nandOperationComplete _ drift die _ _ _ => decide (drift < 64) && decide (die < 16)
  | .nandOperationStart _ drift die block _ _ _ => decide (drift < 64) && decide (die < 16) && decide (block < 1360)
  | .nandSuspend _ drift die _ => decide (drift < 64) && decide (die < 16)
  | .nandResume _ drift die _ => decide (drift < 64) && decide (die < 16)
  | .patrolDone _ => true
  | .refresh _ drift die block dest _ _ => decide (drift < 64) && decide (die < 16) && decide (block < 1360) && decide (dest < 1360)
  | .garbageCollection _ drift die dest => decide (drift < 64) && decide (die < 16) && decide (dest < 1360)
  | .capTest _ _ _ _ _ => true
  | .holdupDegraded _ => true
  | .holdupRestored _ => true
  | .bankVoltageLow _ _ => true
  | .pageIn _ w h _ _ => decide (w < 2 ^ 32) && decide (h < 6291456)
  | .pageInComplete _ w => decide (w < 2 ^ 32)
  | .scrubLode _ h _ => decide (h < 6291456)
  | .holdEnd _ w => decide (w < 2 ^ 32)
  | .heccUncorrectable _ addr _ _ => decide (addr < 0x6000000000)
  | .quotaEffect _ n => decide (n < 64)
  | .stpQuotaWrite _ n _ => decide (n < 64)
  | .qClassWrite _ n _ => decide (n < 76)
  | .badAccess _ _ _ _ _ => true
  | .latchingPairRead _ path _ _ => decide (path < 64)
  | .rcFieldRead _ _ _ => true
  | .registerWrite _ path _ _ _ => decide (path < 64)
  | .talClear _ _ => true
  | .partitionClear _ => true
  | .tallyPersist _ => true
  | .traceEnable _ => true
  | .fwfKey _ _ _ => true
  | .fwfProgram _ _ => true
  | .fwfSectorErase _ _ => true
  | .fwfSuspend _ _ => true
  | .fwfResume _ _ => true
  | .arrayProgram _ _ _ _ => true
  | .arrayErase _ _ _ => true
  | .arraySuspend _ _ _ => true
  | .arrayResume _ _ _ => true
  | .arrayAbandon _ _ _ => true
  | .flashOperationEnd _ => true
  | .flashOwnerReset _ => true
  | .readNvmeMiDataStructure _ _ _ => true
  | .subsystemHealthStatusPoll _ _ => true
  | .controllerHealthStatusPoll _ _ _ => true
  | .configurationGet _ _ => true
  | .configurationSet _ _ _ => true
  | .vpdRead _ _ _ => true
  | .vpdWrite _ => true
  | .nvmSubsystemReset _ _ => true
  | .miTunnelledAdmin q _ => q.wf
  | .registerRead _ _ _ => true
  | .mctpAddressAssign _ _ => true
  | .setEndpointId _ _ => true
  | .getSensorReading _ _ => true
  | .setEventReceiver _ _ => true
  | .requestUpdate _ => true
  | .activateFirmware _ _ _ _ _ => true
  | .getMeasurements _ _ _ => true
  | .keyExchange _ _ => true
  | .cqHeadDoorbell _ fn cqid _ => decide (fn < 64) && decide (cqid < 65536)
  | .fabricPortLinkUp _ p => decide (p < 12)
  | .stewardLoad _ core addr _ => decide (core < 16) && decide (addr < 2 ^ 52)
  | .stewardStore _ core addr _ => decide (core < 16) && decide (addr < 2 ^ 52)
  | .fenceSl _ core => decide (core < 16)
  | .tierSBackgroundScrub _ k _ _ => decide (k < 12)
  | .namespaceManagementDelete q => q.wf
  | .vfEnable _ n => decide (n < 64)
  | .keyUpdate _ p _ => decide (p < 12)
  | .routeTableReceived _ _ _ => true
  | .surveyExchange _ member _ _ _ => decide (member < 64)
  | .mirroredShiftRecordReceived _ _ => true
  | .twinLogRecordReceived _ _ _ _ _ _ => true
  | .powerOnHoursPersist _ => true
  | .mgmtVioChange _ _ => true
  | .cageAssemblyInserted _ p _ => decide (p < 12)
  | .perstDeassert _ => true

end Sys2Proof
end

