-- ==== Sys2Proof/Tests/Slice0.lean ====
section
/-!
SUPPORT. Tests of the model's own: terms that the well-formedness check refuses, small examples of single commands with results computed by
hand from the spec, and for every statement with hypotheses a state and operands that meet them.
-/
namespace Sys2Proof.Tests

open Sys2Proof.Machine

set_option Elab.async false

/-- A command of the admin queue of the PF at 1 ms, with nothing else in it. -/
def sqe0 : Sqe := { t := 1000000, fn := 0, sqid := 0, cid := 1, nsid := 0, d10 := 0, d11 := 0, d12 := 0, d13 := 0, d14 := 0, d15 := 0, data := [], buf := [] }

/-- The guard that always acts: P0 reads all ones. -/
def gOn : Guard := { pred := 0, neg := false }

/-- The guard that never acts. -/
def gOff : Guard := { pred := 0, neg := true }

/-! ### Ill-formed commands: one for each check -/

theorem test_ill_tickAckLate_d : Instr.wf (.tickAckLate 0 12) = false := by decide
theorem test_ill_sqTailDoorbell_fn : Instr.wf (.sqTailDoorbell 0 64 0 []) = false := by decide
theorem test_ill_sqTailDoorbell_sqid : Instr.wf (.sqTailDoorbell 0 0 65536 []) = false := by decide
theorem test_ill_submitWork_sqe : Instr.wf (.submitWork { sqe0 with fn := 64 } 0 0 0 none none none) = false := by decide
theorem test_ill_submitWork_psdt : Instr.wf (.submitWork sqe0 4 0 0 none none none) = false := by decide
theorem test_ill_submitWork_fuse : Instr.wf (.submitWork sqe0 0 4 0 none none none) = false := by decide
theorem test_ill_submitWork_prp1 : Instr.wf (.submitWork sqe0 0 0 (2 ^ 64) none none none) = false := by decide
theorem test_ill_watchdogOverrun_core : Instr.wf (.watchdogOverrun 0 256) = false := by decide
theorem test_ill_surveyStale_member : Instr.wf (.surveyStale 0 64 none) = false := by decide
theorem test_ill_coreReady_n : Instr.wf (.coreReady 0 256) = false := by decide
theorem test_ill_crossingStall_u : Instr.wf (.crossingStall 0 375 0) = false := by decide
theorem test_ill_binaryPortLinkUp_p : Instr.wf (.binaryPortLinkUp 0 12 false [] false 0 false 0 false false [] []) = false := by decide
theorem test_ill_memberLost_m : Instr.wf (.memberLost 0 64) = false := by decide
theorem test_ill_memoryRead_handle : Instr.wf (.memoryRead sqe0 0 (2 ^ 64) 0 0) = false := by decide
theorem test_ill_nandOperationComplete_drift : Instr.wf (.nandOperationComplete 0 64 0 0 none []) = false := by decide
theorem test_ill_nandOperationComplete_die : Instr.wf (.nandOperationComplete 0 0 16 0 none []) = false := by decide
theorem test_ill_nandOperationStart_block : Instr.wf (.nandOperationStart 0 0 0 1360 false false 0) = false := by decide
theorem test_ill_refresh_dest : Instr.wf (.refresh 0 0 0 0 1360 0 none) = false := by decide
theorem test_ill_pageIn_w : Instr.wf (.pageIn 0 (2 ^ 32) 0 none false) = false := by decide
theorem test_ill_pageIn_h : Instr.wf (.pageIn 0 0 6291456 none false) = false := by decide
theorem test_ill_heccUncorrectable_addr : Instr.wf (.heccUncorrectable 0 0x6000000000 false none) = false := by decide
theorem test_ill_quotaEffect_n : Instr.wf (.quotaEffect 0 64) = false := by decide
theorem test_ill_qClassWrite_n : Instr.wf (.qClassWrite 0 76 0) = false := by decide
theorem test_ill_latchingPairRead_path : Instr.wf (.latchingPairRead 0 64 0 false) = false := by decide
theorem test_ill_cqHeadDoorbell_cqid : Instr.wf (.cqHeadDoorbell 0 0 65536 0) = false := by decide
theorem test_ill_stewardLoad_core : Instr.wf (.stewardLoad 0 16 0 0) = false := by decide
theorem test_ill_stewardLoad_addr : Instr.wf (.stewardLoad 0 0 (2 ^ 52) 0) = false := by decide
theorem test_ill_tierSBackgroundScrub_k : Instr.wf (.tierSBackgroundScrub 0 12 0 []) = false := by decide
theorem test_ill_sqe_sqid : Sqe.wf { sqe0 with sqid := 65536 } = false := by decide
theorem test_ill_sqe_cid : Sqe.wf { sqe0 with cid := 65536 } = false := by decide
theorem test_ill_sqe_nsid : Sqe.wf { sqe0 with nsid := (2 ^ 32) } = false := by decide
theorem test_ill_sqe_buf : Sqe.wf { sqe0 with buf := [(2 ^ 64 - 1, 2)] } = false := by decide
theorem test_well_sqe : Sqe.wf { sqe0 with fn := 63, sqid := 65535, cid := 65535, nsid := 2 ^ 32 - 1, buf := [(2 ^ 64 - 1, 1)] } = true := by decide

theorem test_ill_nandReadComplete_plane : Instr.wf (.nandReadComplete 0 0 0 4 0 0 0 0 false false false (.own 0)) = false := by decide
theorem test_ill_nandReadComplete_sector : Instr.wf (.nandReadComplete 0 0 0 0 0 0 4 0 false false false (.own 0)) = false := by decide
theorem test_ill_nandReadComplete_level : Instr.wf (.nandReadComplete 0 0 0 0 0 0 0 5 false false false (.own 0)) = false := by decide

/-! ### Ruhaic cores -/

/-- A core that runs the job of packet 1. -/
def core0 : RCore := { packet := some 1, watchdog := 100 }

/-- The reset state with this core as core 0. -/
def onCore (c : RCore) : State := State.reset.setCore 0 c

/-- The state that a command leaves; reset where it stops. -/
def after (r : Result) : State :=
  match r with
  | .next t => t
  | _ => State.reset

/-- Core 0 with values in X1 and X2. -/
def coreX (a b : BitVec 64) : State := onCore { core0 with x := [(1, { val := a }), (2, { val := b })] }

/-- The last result queued on core 0. -/
def queued (r : Result) : Option RegVal := ((after r).core 0).pending.getLast?.map (·.val)

/-- The value of an X register as a queued result. -/
def xv (a : BitVec 64) : Option RegVal := some (.x { val := a })

-- R266, by hand: sums wrap, shifts take six bits, SAR fills with the sign, a division by zero gives all ones.
theorem test_add_wraps : queued (execAdd 0 .s0 gOn 3 1 2 (coreX 0xFFFFFFFFFFFFFFFF 2)) = xv 1 := by decide +kernel
theorem test_sub_wraps : queued (execSub 0 .s0 gOn 3 1 2 (coreX 1 2)) = xv 0xFFFFFFFFFFFFFFFF := by decide +kernel
theorem test_shl_six_bits : queued (execShl 0 .s0 gOn 3 1 2 (coreX 3 65)) = xv 6 := by decide +kernel
theorem test_sar_sign : queued (execSar 0 .s0 gOn 3 1 2 (coreX 0x8000000000000000 4)) = xv 0xF800000000000000 := by decide +kernel
theorem test_shr_zero : queued (execShr 0 .s1 gOn 3 1 2 (coreX 0x8000000000000000 4)) = xv 0x0800000000000000 := by decide +kernel
theorem test_divu_zero : queued (execDivu 0 .s0 gOn 3 1 2 (coreX 7 0)) = xv 0xFFFFFFFFFFFFFFFF := by decide +kernel
theorem test_lui : queued (execLui 0 .s0 gOn 3 1 0x12345678 (coreX 0xAAAAAAAA9ABCDEF0 0)) = xv 0x123456789ABCDEF0 := by decide +kernel
theorem test_addi_sign : queued (execAddi 0 .s0 gOn 3 1 0xFFFFFFFF (coreX 5 0)) = xv 4 := by decide +kernel
theorem test_cmplt_signed : queued (execCmplt 0 .s0 gOn 3 1 2 (coreX 0xFFFFFFFFFFFFFFFF 0)) = some (.p (BitVec.allOnes 64) (BitVec.allOnes 64)) := by decide +kernel
theorem test_cmpltu_unsigned : queued (execCmpltu 0 .s0 gOn 3 1 2 (coreX 0xFFFFFFFFFFFFFFFF 0)) = some (.p 0 (BitVec.allOnes 64)) := by decide +kernel
-- 1.0 + 2.0 = 3.0 and 1.5 × 2.0 = 3.0 in FP32 (R301).
theorem test_fadd : queued (execFadd 0 .s0 gOn 3 1 2 (coreX 0x3F800000 0x40000000)) = xv 0x40400000 := by decide +kernel
theorem test_fmul : queued (execFmul 0 .s0 gOn 3 1 2 (coreX 0x3FC00000 0x40000000)) = xv 0x40400000 := by decide +kernel
theorem test_movpx : queued (execMovpx 0 .s0 gOn 3 0 (coreX 0 0)) = xv 0xFFFFFFFFFFFFFFFF := by decide +kernel
-- R261, R264: a second operation of the slot is not taken; a second slot that names the destination is illegal.
theorem test_same_destination : ((after (execAdd 0 .s1 gOn 3 1 2 (after (execAdd 0 .s0 gOn 3 1 2 (coreX 1 2))))).core 0).fault.map (·.rank) = some 0 := by decide +kernel
theorem test_branch_delay : ((after (execBr 0 gOn 5 (onCore { core0 with pc := 2 }))).core 0).branch = some (3, 7) := by decide +kernel
theorem test_loop_zero : ((after (execLoop 0 0 0 4 0 (onCore { core0 with pc := 2 }))).core 0).skipTo = some 7 := by decide +kernel
-- R263: a result of latency 1 is visible in the next bundle.
theorem test_result_lands : ((after (execResultWriteback 0 (after (execAdd 0 .s0 gOn 3 1 2 (coreX 1 2))))).core 0).readX 3 = { val := 3 } := by decide +kernel
-- R266, R270: STX ignores address bits 2:0 and writes little-endian.
theorem test_stx_aligned : cget ((after (execStx 0 gOn 2 1 0 false (coreX 0x1003 0x0102))).core 0).bank 0x1001 = 1 := by decide +kernel
theorem test_stx_outside : ((after (execStx 0 gOn 2 1 0 false (coreX 0x180000 1))).core 0).fault.map (·.rank) = some 2 := by decide +kernel
theorem test_ldx : queued (execLdx 0 gOn 3 1 0 false (onCore { core0 with x := [(1, { val := 0x40 })], scratch := 0x1000, bank := [(0x41, 2)] })) = xv 0x200 := by decide +kernel
-- R273: WAIT takes its count from a token that holds it.
theorem test_wait_takes : tgetD ((after (execWait 0 gOn 3 2 (onCore { core0 with tokens := [(3, 5)] }))).core 0).tokens 3 0 = 3 := by decide +kernel
-- R266, R276: element-wise in the element's width. 0xFF + 0x01 wraps to 0 in I8; of I8 0x80 and 0x01 the larger is 0x01.
theorem test_vadd_i8 : queued (execVadd 0 gOn 3 1 2 0 (onCore { core0 with v := [(1, { val := 0x01FF }), (2, { val := 0x0201 })] })) = some (.v { val := 0x0300 } (BitVec.allOnes 64)) := by decide +kernel
theorem test_vmax_i8 : queued (execVmax 0 gOn 3 1 2 0 (onCore { core0 with v := [(1, { val := 0x80 }), (2, { val := 0x01 })] })) = some (.v { val := 0x01 } (BitVec.allOnes 64)) := by decide +kernel
-- R279, R294: 300.0 in FP32, times 1.0, saturates in I8 and is counted.
theorem test_vcvts_saturates : ((after (execVcvts 0 gOn 3 1 9 0 0 0x3F800000 (onCore { core0 with v := [(1, { val := 0x43960000 })] }))).core 0).bundleSat = 1 := by decide +kernel
-- R277: four I8 products a lane: 2·3 + 255(−1)·1 = 5.
theorem test_mac_i8 : queued (execMac 0 gOn 1 1 2 0 0 true (onCore { core0 with v := [(1, { val := 0xFF02 }), (2, { val := 0x0103 })] })) = some (.v { val := 5 } (BitVec.allOnes 64)) := by decide +kernel
theorem test_vredadd : queued (execVredadd 0 gOn 3 1 3 (onCore { core0 with v := [(1, { val := 0x00000002FFFFFFFF })] })) = xv 1 := by decide +kernel

/-- Core 0 with packet 1, whose answer may hold 64 bytes. -/
def exitState : State := { onCore core0 with packets := { live := [(1, { key := 1, hdr := { answerLen := 64 } })] } }

-- ScalarOperations, ScalarMoves: an open slot, an acting guard, clean sources.
theorem witness_ScalarOperations : (coreX 1 2).openSlot 0 .s0 (some (.x 31)) = true ∧ ((coreX 1 2).core 0).acts gOn = true ∧ ((coreX 1 2).core 0).clean [1, 31] = true := by decide +kernel
theorem witness_ScalarOperations_idle : ((onCore {}).core 0).issuing = false ∧ ((onCore { core0 with stall := some .drain }).core 0).issuing = false := by decide +kernel
theorem witness_ScalarOperations_off : (coreX 1 2).openSlot 0 .s1 (some (.x 0)) = true ∧ ((coreX 1 2).core 0).acts gOff = false := by decide +kernel
theorem witness_ScalarOperations_marked : (onCore { core0 with x := [(1, { poison := true })] }).openSlot 0 .s0 (some (.x 3)) = true ∧ ((onCore { core0 with x := [(1, { poison := true })] }).core 0).acts gOn = true ∧ (((onCore { core0 with x := [(1, { poison := true })] }).core 0).readX 1).poison = true ∧ ((onCore { core0 with x := [(1, { poison := true })] }).core 0).fault = none := by decide +kernel
theorem witness_ScalarMoves : ((coreX 1 2).core 0).acts gOn = true ∧ ((coreX 1 2).core 0).clean [1, 2] = true ∧ (coreX 1 2).openSlot 0 .s1 (some (.x 31)) = true ∧ (coreX 1 2).openSlot 0 .s1 (some (.p 7)) = true := by decide +kernel
theorem witness_ControlSlots_branch : (coreX 1 2).openSlot 0 .s1 none = true ∧ ((coreX 1 2).core 0).acts gOn = true ∧ ((coreX 1 2).core 0).clean [31] = true ∧ ((coreX 1 2).core 0).branch = none := by decide +kernel
theorem witness_ControlSlots_exit : exitState.openSlot 0 .s1 none = true ∧ (exitState.core 0).acts gOn = true ∧ (exitState.core 0).clean [1] = true ∧ (exitState.core 0).packet.bind exitState.packet? = some { key := 1, hdr := { answerLen := 64 } } ∧ stagedMarked { key := 1, hdr := { answerLen := 64 } } ((exitState.core 0).readX 1).val.toNat = false := by decide +kernel
theorem witness_ControlSlots_loop : (onCore { core0 with loops := [⟨0, 1, 9⟩, ⟨1, 2, 8⟩, ⟨2, 3, 7⟩] }).openSlot 0 .c none = true ∧ ((onCore { core0 with loops := [⟨0, 1, 9⟩, ⟨1, 2, 8⟩, ⟨2, 3, 7⟩] }).core 0).loops.length < 4 ∧ ((onCore { core0 with loops := [⟨0, 1, 9⟩, ⟨1, 2, 8⟩, ⟨2, 3, 7⟩] }).core 0).loops.any (fun l => l.lc == 3) = false := by decide +kernel
theorem witness_LocalStores : (coreX 0x17FFFF 2).openSlot 0 .m none = true ∧ ((coreX 0x17FFFF 2).core 0).acts gOn = true ∧ ((coreX 0x17FFFF 2).core 0).writable (mAddress ((coreX 0x17FFFF 2).core 0) 1 0 false / 8 * 8) 8 = true ∧ ((coreX 0x17FFFF 2).core 0).writable (mAddress ((coreX 0x17FFFF 2).core 0) 1 0 false / 256 * 256) 256 = true := by decide +kernel
theorem witness_LocalStores_fault : (coreX 0x180000 2).openSlot 0 .m none = true ∧ ((coreX 0x180000 2).core 0).acts gOn = true ∧ ((coreX 0x180000 2).core 0).writable (mAddress ((coreX 0x180000 2).core 0) 1 0 false / 8 * 8) 8 = false ∧ ((coreX 0x180000 2).core 0).fault = none := by decide +kernel
theorem witness_LocalStores_read : cellsWf ({ scratch := 0x180000, bank := [(3, 7)] } : RCore).bank = true ∧ ({ scratch := 0x180000, bank := [(3, 7)] } : RCore).unwritten 0 = false := by decide +kernel

/-- Core 0 whose whole bank is scratch, with an address in X1. -/
def coreBank (a : BitVec 64) : State := onCore { core0 with x := [(1, { val := a }), (2, { val := 0 }), (3, { val := 8 })], scratch := 0x180000 }

/-- Core 0 with packet 1 that runs RUN PROGRAM. -/
def progState : State := { coreBank 0x40 with packets := { live := [(1, { key := 1, hdr := { opcode := 0x0601, answerLen := 64 } })] } }

theorem witness_Loads : ((coreBank 0x17FFFC).core 0).acts gOn = true ∧ ((coreBank 0x17FFFC).core 0).clean [1] = true ∧ (coreBank 0x17FFFC).openSlot 0 .m (some (.v 31)) = true ∧ ((coreBank 0x17FFFC).core 0).streams = [] ∧ 0x17FFFC + 4 ≤ bankBytes ∧ (((coreBank 0x17FFFC).core 0).bankRead 0x17FFFC 4).any (·.2) = false := by decide +kernel
theorem witness_Loads_x : (coreBank 0x17FFFF).openSlot 0 .m (some (.x 31)) = true ∧ ((coreBank 0x17FFFF).core 0).acts gOn = true ∧ ((coreBank 0x17FFFF).core 0).clean [1] = true ∧ mAddress ((coreBank 0x17FFFF).core 0) 1 0 false / 8 * 8 + 8 ≤ bankBytes ∧ (((coreBank 0x17FFFF).core 0).bankRead 0x17FFF8 8).any (·.2) = false := by decide +kernel
theorem witness_Loads_v : (coreBank 0x17FFFF).openSlot 0 .m (some (.v 0)) = true ∧ mAddress ((coreBank 0x17FFFF).core 0) 1 0 false / 256 * 256 + 256 ≤ bankBytes ∧ (((coreBank 0x17FFFF).core 0).bankRead 0x17FF00 256).any (·.2) = false := by decide +kernel
theorem witness_StreamsAndTokens_get : progState.openSlot 0 .m none = true ∧ (progState.core 0).acts gOn = true ∧ progState.region 0 0 = some (.own 0) ∧ (progState.core 0).streams.length < 32 ∧ progState.mayRead (.own 0) 0 8 = true ∧ (progState.core 0).writable 0x40 8 = true := by decide +kernel
theorem witness_StreamsAndTokens_put : progState.region 0 4 = some (.staging 64) ∧ progState.mayWrite (.staging 64) 0 64 = true ∧ 0x40 + 64 ≤ bankBytes := by decide +kernel
theorem witness_StreamsAndTokens_gather : 0 + 8 * 8 ≤ bankBytes ∧ ((List.range 8).map (fun j => fromLe (((progState.core 0).bankRead (0 + 8 * j) 8).map (·.1)))).all (fun o => progState.mayRead (.own 0) o 16) = true ∧ (progState.core 0).writable 0x40 (8 * 16) = true := by decide +kernel
theorem witness_StreamsAndTokens_wait : (0xFFFF : BitVec 32).toNat % 2 ^ 16 ≤ tgetD ((onCore { core0 with tokens := [(15, 0xFFFF)] }).core 0).tokens 15 0 ∧ tgetD ((onCore core0).core 0).tokens 15 0 < (1 : BitVec 32).toNat % 2 ^ 16 := by decide +kernel

/-- A stream of 8 bytes of the core's own bank. -/
def stream0 : Stream := { id := 4, kind := .get, localAddr := 0x80, win := 0, offs := [0x40], rowLen := 8, token := 2, sig := false, issued := 0 }

/-- Core 0 with that stream outstanding. -/
def streamState : State := { onCore { core0 with streams := [stream0], scratch := 0x180000, tokens := [(2, 0xFFFF)] } with packets := { live := [(1, { key := 1 })] } }

theorem witness_StreamAndResultEnds : (streamState.core 0).packet = some 1 ∧ (streamState.core 0).exited = false ∧ (streamState.core 0).stall = none ∧ (streamState.core 0).streams.find? (fun x => x.id == stream0.id) = some stream0 ∧ streamState.region 0 stream0.win = some (.own 0) ∧ stream0.sig = false ∧ streamState.cage.allResident (stream0.pieces.flatMap (fun (x : Nat × Nat × Nat) => regionLodes (.own 0) x.1 x.2.2)) = true := by decide +kernel
theorem test_token_saturates : tgetD ((after (execStreamComplete 0 4 streamState)).core 0).tokens 2 0 = 0xFFFF := by decide +kernel

/-- Core 0 with one result in flight. -/
def dueState (due : Nat) : State := onCore { core0 with watchdog := 1, pending := [{ due := due, issued := 0, dest := .x 31, val := .x { val := 9 } }] }

theorem witness_StreamAndResultEnds_due : ((dueState 1).core 0).packet = some 1 ∧ ((dueState 1).core 0).exited = false ∧ ((dueState 1).core 0).stall = none ∧ ((dueState 1).core 0).fault = none ∧ ((dueState 1).core 0).bundles + 1 ≤ ((dueState 1).core 0).watchdog ∧ ((dueState 1).core 0).tapped = [] ∧ ((dueState 1).core 0).bundleSat = 0 ∧ ((dueState 1).core 0).pending = [{ due := 1, issued := 0, dest := .x 31, val := .x { val := 9 } }] := by decide +kernel
theorem witness_StreamAndResultEnds_later : ((dueState 2).core 0).pending = [{ due := 2, issued := 0, dest := .x 31, val := .x { val := 9 } }] ∧ ((dueState 2).core 0).bundles + 1 < 2 := by decide +kernel
theorem witness_VectorArithmetic : (onCore core0).openSlot 0 .v (some (.v 31)) = true ∧ ((onCore core0).core 0).cleanV gOn [31, 0] = true ∧ eType 3 = some .i32 ∧ EType.isArith .i32 = true ∧ EType.isInt .i32 = true ∧ eType 9 = some (.fp .fp32) ∧ EType.isArith (.fp .fp32) = true := by decide +kernel
theorem witness_VectorArithmetic_refused : eType 4 = some (.fp .e4m3) ∧ EType.isArith (.fp .e4m3) = false ∧ ((onCore core0).core 0).fault = none := by decide +kernel
theorem witness_VectorArithmetic_conversion : (((onCore core0).core 0).readV 31).poison = 0 ∧ eType 3 = some .i32 ∧ eType 9 = some (.fp .fp32) ∧ (onCore core0).openSlot 0 .v (some (.p 7)) = true ∧ (onCore core0).openSlot 0 .v (some (.v 7)) = true ∧ EType.isConv .i32 = true ∧ EType.isConv (.fp .fp32) = true ∧ EType.width .i32 = EType.width (.fp .fp32) := by decide +kernel
theorem witness_VectorMoves : ((onCore core0).core 0).cleanV gOn [1, 2, 31] = true ∧ eType 9 = some (.fp .fp32) ∧ EType.isArith (.fp .fp32) = true ∧ EType.isTap (.fp .fp32) = true ∧ (onCore core0).openSlot 0 .v (some (.v 31)) = true ∧ (onCore core0).openSlot 0 .v (some (.a 7)) = true ∧ (onCore core0).openSlot 0 .v (some (.x 31)) = true ∧ (onCore core0).openSlot 0 .v none = true := by decide +kernel
theorem witness_VectorMoves_enabled : enabledElems (.fp .fp32) (((onCore core0).core 0).lanes gOn) (((onCore core0).core 0).readV 1) ≠ [] := by decide +kernel
theorem witness_TensorSlot : (onCore core0).openSlot 0 .t (some (.a 7)) = true ∧ ((onCore core0).core 0).cleanV gOn [31, 0] = true ∧ (((onCore core0).core 0).chainBase 7).poison &&& (((onCore core0).core 0).lanes gOn) = 0 ∧ eType 4 = some (.fp .e4m3) ∧ macPair (.fp .e4m3) (.fp .e5m2) = some (false, 4) ∧ ((onCore core0).core 0).tablePoison = [] ∧ (1536 : BitVec 32).toNat % 2048 ≤ 1536 := by decide +kernel
theorem witness_TensorSlot_tables : (coreBank 0).openSlot 0 .t none = true ∧ (1920 : BitVec 32).toNat % 2048 ≤ 1920 ∧ ((coreBank 0).core 0).acts gOn = true ∧ ((coreBank 0).core 0).clean [1] = true ∧ ((coreBank 0).core 0).streams = [] ∧ (((coreBank 0).core 0).readX 1).val.toNat / 4096 % 512 * 4096 + 4096 ≤ bankBytes := by decide +kernel

/-! ### Commands of the host -/

/-- The PF and VF 5 are enabled and ready. -/
def up : State := { State.reset with link := { vfEnabled := [5], controllers := [(0, { enabled := true, ready := true }), (5, { enabled := true, ready := true })] } }

/-- A command of VF 5. -/
def sqe5 : Sqe := { sqe0 with fn := 5, nsid := 7, sqid := 1 }

/-- The completion that a command leaves at the end of the PF's admin completion queue: status and DW0. -/
def answered (r : Result) : Option (NvmeStatus × Nat) := ((after r).postedOn 0 0).getLast?.map (fun e => (e.status, e.dw0))

theorem witness_takes : up.takes sqe0 = true ∧ up.takes sqe5 = true ∧ up.fetches 5 = true ∧ up.fetches 0 = true := by decide +kernel
-- R55, Table Frame 2: code 2 is 250 µs; R108: the default of C1h; a reserved SEL is an invalid field.
theorem test_get_period : answered (execGetFeaturesFramePeriod sqe0 up) = some (.success, 2) := by decide +kernel
theorem test_get_c1h_default : answered (execGetFeaturesLodestarConfig { sqe0 with d10 := 0x1C1 } up) = some (.success, 0x00600002) := by decide +kernel
theorem test_get_reserved_sel : answered (execGetFeaturesPowerManagement { sqe0 with d10 := 0x402 } up) = some (.invalidField, 0) := by decide +kernel
theorem test_set_wce : ((after (execSetFeaturesVolatileWriteCache { sqe0 with d11 := 0 } up)).ctrl 0).wce = false := by decide +kernel

theorem witness_Features_sel : selectField sqe0 = 0 ∧ selectField { sqe0 with d10 := 0x100 } = 1 ∧ selectField { sqe0 with d10 := 0x200 } = 2 ∧ selectField { sqe0 with d10 := 0x300 } = 3 ∧ 3 < selectField { sqe0 with d10 := 0x400 } ∧ 3 < selectField { sqe0 with d10 := 0x700 } := by decide +kernel
theorem witness_Features_set : up.fetches sqe0.fn = true ∧ saveBit sqe0 = false ∧ dwField (0x6402 : BitVec 32) 8 7 ≤ 100 := by decide +kernel
theorem witness_Features_assay : (tapCfgOf { sqe5 with d11 := 0x8200, d12 := 0x5F }).mode ≤ 2 ∧ (tapCfgOf { sqe5 with d11 := 0x8200, d12 := 0x5F }).head ≤ 8 ∧ 0x5F ≤ (tapCfgOf { sqe5 with d11 := 0x8200, d12 := 0x5F }).initScale ∧ (tapCfgOf { sqe5 with d11 := 0x8200, d12 := 0x9F }).initScale ≤ 0x9F := by decide +kernel
theorem witness_Features_vf : up.fetches sqe5.fn = true ∧ saveBit sqe5 = false ∧ sqe5.fn ≠ 0 := by decide +kernel
theorem witness_Features_c1h : ∃ v, up.lodestar.setC1h (0x00600002 : BitVec 32).toNat = some v := ⟨_, rfl⟩
theorem witness_Features_power : dwField (2 : BitVec 32) 0 5 ≤ 2 ∧ 3 ≤ dwField (4 : BitVec 32) 0 5 ∧ dwField (4 : BitVec 32) 0 5 ≤ 4 ∧ up.lanternBarred = false := by decide +kernel
theorem witness_Features_period_same : dwField (2 : BitVec 32) 0 3 ≤ 5 ∧ (up.const.role == .hewer && up.const.formed) = false ∧ dwField (2 : BitVec 32) 0 3 = up.meridian.period := by decide +kernel

/-- A shadow table of period code 5 is loaded. -/
def shadowed : State := { up with orrery := { up.orrery with shadow := some { period := 5 } } }

theorem witness_Features_period_other : dwField (5 : BitVec 32) 0 3 ≠ shadowed.meridian.period ∧ shadowed.shadowFor 5 = true ∧ shadowed.pair.state ≠ .paired ∧ shadowed.const.formed = false ∧ shadowed.fetches 0 = true := by decide +kernel

/-- The data of CONTRACT SET: 243 clusters, 208 lodes a drift. -/
def contract (cf lpd : Nat) : Sqe := { sqe0 with data := le 4 cf ++ le 2 lpd ++ le 4 9 ++ le 4 10, d10 := 0x705 }

theorem witness_ContractSet : up.takes (contract 243 208) = true ∧ (contract 243 208).fn = 0 ∧ bitAt (contract 243 208).d10.toNat 15 = false ∧ 1 ≤ leAt (contract 243 208).data 0 4 ∧ leAt (contract 243 208).data 0 4 ≤ 243 ∧ 1 ≤ leAt (contract 243 208).data 4 2 ∧ leAt (contract 243 208).data 4 2 ≤ 208 := by decide +kernel
theorem witness_ContractSet_bounds : leAt (contract 0 1).data 0 4 = 0 ∧ 243 < leAt (contract 244 1).data 0 4 ∧ leAt (contract 1 0).data 4 2 = 0 ∧ 208 < leAt (contract 1 209).data 4 2 := by decide +kernel
theorem witness_ContractSet_delete : bitAt ({ sqe0 with d10 := 0x8705 } : Sqe).d10.toNat 15 = true ∧ up.orrery.names 5 7 = false := by decide +kernel
theorem witness_OrreryLoad_fails : ∃ c, (up.readTable 0 []).1.find? (·.1) = some c := ⟨_, rfl⟩

/-- A table of period code 2 without bindings and entries. -/
def emptyTable : List Byte := let h : List Byte := [1, 0, 2, 1, 0, 0, 0, 0] ++ le 4 64 ++ le 4 0; let b := h ++ List.replicate 48 0; h ++ le 8 (crc64 (withoutCrc b)) ++ List.replicate 40 0

theorem witness_OrreryLoad : (up.readTable 64 emptyTable).1.any (·.1) = false ∧ up.meridian.pend = none ∧ up.takes { sqe0 with data := emptyTable, d10 := 64 } = true := by decide +kernel
theorem test_contract_waits : (after (execContractSet (contract 243 208) up)).orrery.changes.length = 1 := by decide +kernel
theorem test_contract_refused : answered (execContractSet (contract 244 208) up) = some (.invalidField, 0) := by decide +kernel
theorem witness_FramePeriodOnVf : up.fetches sqe5.fn = true ∧ sqe5.fn ≠ 0 ∧ selectField sqe5 ≤ 3 := by decide +kernel

/-! ### Namespaces -/

/-- Namespace 7 of VF 5: 1,024 blocks of 4,096 bytes and 16 bytes of metadata. -/
def space7 : Namespace := { nsid := 7, size := 1024, lbaf := 1, pi := 1, fn := some 5, blocks := [(3, .data [7] [0]), (9, .lost)] }

/-- Namespace 8 of VF 5, of class J without metadata. -/
def space8 : Namespace := { nsid := 8, size := 1024, lbaf := 0, classJ := true, fn := some 5 }

/-- The two namespaces, with a checkpoint in progress. -/
def stored : State := { up with link := { up.link with namespaces := [(7, space7), (8, space8)] }, media := { up.media with ckptRunning := some 4 } }

theorem witness_NvmReadFlush : stored.takes sqe5 = true ∧ tget? stored.link.namespaces 7 = some space7 ∧ space7.fn = some sqe5.fn ∧ space7.pair = false ∧ space7.nsid = sqe5.nsid := by decide +kernel
theorem witness_NvmReadFlush_errors : mdtsBytes < nlbOf { sqe5 with d12 := 0xFFFF } * space7.lbaBytes ∧ nlbOf { sqe5 with d10 := 1024 } * space7.lbaBytes ≤ mdtsBytes ∧ space7.size < slbaOf { sqe5 with d10 := 1024 } + nlbOf { sqe5 with d10 := 1024 } := by decide +kernel
theorem witness_NvmReadFlush_read : nlbOf { sqe5 with d10 := 1023 } * space7.lbaBytes ≤ mdtsBytes ∧ slbaOf { sqe5 with d10 := 1023 } + nlbOf { sqe5 with d10 := 1023 } ≤ space7.size ∧ piCheck space7.pi 7 (List.replicate 4096 0) (List.replicate 16 0xFF) 0 0 0 = none := by decide +kernel
theorem witness_NvmReadFlush_blocks : (List.range (nlbOf { sqe5 with d10 := 1023 })).map (fun k => space7.readBlock (slbaOf { sqe5 with d10 := 1023 } + k)) = [(List.replicate 4096 0, List.replicate 16 0xFF)].map some := rfl
theorem witness_NvmReadFlush_flush : space7.classJ = false ∧ (∀ x ∈ stored.link.namespaces, x.2.nsid = 7 → x.2 = space7) ∧ sqe5.nsid ≠ 0xFFFFFFFF := by decide +kernel
theorem witness_NvmReadFlush_flush_j : space8.classJ = true ∧ (∀ x ∈ stored.link.namespaces, x.2.nsid = 8 → x.2 = space8) ∧ stored.takes { sqe5 with nsid := 8 } = true ∧ tget? stored.link.namespaces 8 = some space8 ∧ stored.media.ckptRunning = some 4 := by decide +kernel


/-- The statuses on the completion queues of VF 5. -/
def answered5 (r : Result) : List NvmeStatus := ((after r).ctrl 5).cqs.flatMap (fun c => c.2.posted.map (·.status))

-- R132: a block never written reads zeros, with metadata of ones.
theorem test_read_zeros : (space7.readBlock 1023).map (fun b => b.1.take 2) = some [0, 0] ∧ (space7.readBlock 1023).map (fun b => b.2.take 2) = some [0xFF, 0xFF] ∧ (space7.readBlock 9).isNone = true := by decide +kernel
-- R126: the range is checked.
theorem test_read_range : answered5 (execNvmRead { sqe5 with nsid := 8, d10 := 1024 } stored) = [.lbaOutOfRange] ∧ answered5 (execNvmRead { sqe5 with nsid := 8, d10 := 1023 } stored) = [.success] := by decide +kernel

/-- A write of one block of zeros to LBA 1,023, with PRACT. -/
def write7 : Sqe := { sqe5 with d10 := 1023, d12 := 0x20000000, data := List.replicate 4096 0 }

theorem witness_NvmChanges : stored.takes write7 = true ∧ stored.media.wp = false ∧ nlbOf write7 * space7.lbaBytes ≤ mdtsBytes ∧ slbaOf write7 + nlbOf write7 ≤ space7.size ∧ (stored.at write7.t).driftWaits space7 (slbaOf write7) (nlbOf write7) = false ∧ ((stored.at write7.t).fuaOf write7 space7 || (stored.at write7.t).media.hasRoom space7.classJ (nlbOf write7 * space7.fullBytes)) = true ∧ (space7.hasMd && bitAt (dwField write7.d12 26 4) 3 && space7.pi != 0) = true := by decide +kernel
theorem witness_NvmChanges_deallocate : bitAt ({ sqe5 with d11 := 4, data := le 4 0 ++ le 4 1024 ++ le 8 0 } : Sqe).d11.toNat 2 = true ∧ (dsmRanges { sqe5 with d11 := 4, data := le 4 0 ++ le 4 1024 ++ le 8 0 }).all (fun r => decide (r.1 + r.2 ≤ space7.size)) = true ∧ tget? space7.blocks 9 = some .lost := by decide +kernel
theorem test_write_reads_back : ((tget? (after (execNvmWrite { sqe5 with nsid := 8, d10 := 5, data := [9] ++ List.replicate 4095 1 } true none stored)).link.namespaces 8).bind (·.readBlock 5)).map (fun b => b.1.take 2) = some [9, 1] := by decide +kernel

/-- A PF command that creates a namespace of 1,024 blocks. -/
def create0 : Sqe := { sqe0 with data := le 8 1024 ++ le 8 1024 ++ List.replicate 4080 0 }

theorem witness_NamespacesAndSanitize_create : stored.takes create0 = true ∧ create0.fn = 0 ∧ leAt create0.data 3072 1 ≤ 1 ∧ leAt create0.data 3073 1 = 0 ∧ 0 < leAt create0.data 0 8 ∧ formatOk (leAt create0.data 26 1 % 16) (leAt create0.data 29 1 % 8) = true ∧ stored.link.namespaces.length < 1024 := by decide +kernel
theorem witness_NamespacesAndSanitize_delete : ({ sqe0 with nsid := 8 } : Sqe).nsid ≠ 0xFFFFFFFF ∧ tget? stored.link.namespaces 8 = some space8 ∧ tget? stored.link.namespaces 9 = none := by decide +kernel
theorem witness_NamespacesAndSanitize_attach : leAt (le 2 1 ++ le 2 63) 0 2 = 1 ∧ leAt (le 2 1 ++ le 2 63) 2 2 ≤ 63 ∧ dwField (0 : BitVec 32) 0 4 = 0 ∧ ({ space8 with fn := none } : Namespace).fn = none ∧ (stored.link.namespaces.filter (fun x => x.2.fn == some 63)).length < attachLimit 63 ∧ dwField (1 : BitVec 32) 0 4 = 1 ∧ space8.fn = some 5 := by decide +kernel

/-! ### Records and registers -/

/-- The host link is up and every stage of start-up has ended, in frame 10. -/
def live : State := { up with link := { up.link with up := true }, startup := { ended := [.d0, .boot, .count, .stewards, .tierH, .holdup, .mount, .ready, .residency] }, meridian := { up.meridian with frame := 10, running := true } }

theorem witness_LogPagesAndTally : live.fetches sqe0.fn = true ∧ logId { sqe0 with d11 := 0x003F0000 } ≤ 63 ∧ logBit sqe0 = false ∧ logOffset { sqe0 with d12 := 12352 } ≤ 64 + 12288 ∧ 64 + 12288 < logOffset { sqe0 with d12 := 12353 } := by decide +kernel
theorem witness_LogPagesAndTally_vf : live.fetches sqe5.fn = true ∧ sqe5.fn ≠ 0 ∧ logBit { sqe5 with d10 := 0x100 } = true ∧ logBit sqe5 = false := by decide +kernel
theorem witness_LogPagesAndTally_ids : 63 < logId { sqe0 with d11 := 0x00400000 } ∧ logId { sqe0 with d11 := 0x00FF0000 } = 0xFF ∧ logOffset { sqe0 with d12 := 32 } % 32 = 0 ∧ logId sqe0 = 0 ∧ logOffset { sqe0 with d12 := 4 } % 32 ≠ 0 := by decide +kernel
-- R575, Table Tally 2: log page C1h is a head of 64 bytes and the 12,288 of a partition; R506: the unit table has 375 entries of 16 bytes.
theorem test_unit_table_vf : ((after (execGetLogPageUnitTable sqe5 live)).ctrl 5).cqs.flatMap (fun c => c.2.posted.map (·.status)) = [.invalidLogPage] := by decide +kernel
theorem test_read_clear_waits : (after (execTallyReadAndClear { sqe0 with d10 := 0x100 } live)).tally.reads.length = 1 ∧ ((after (execTallyReadAndClear { sqe0 with d10 := 0x100 } live)).postedOn 0 0) = [] := by decide +kernel

/-- A read-and-clear of tenant 63 that the previous frame asked for. -/
def clearState : State := { live with tally := { live.tally with reads := [{ fn := 0, sqid := 0, cid := 1, tenant := 63, buf := [], offset := 0, length := 64, frame := 9 }] } }

theorem witness_LogPagesAndTally_clear : clearState.tally.reads = [{ fn := 0, sqid := 0, cid := 1, tenant := 63, buf := [], offset := 0, length := 64, frame := 9 }] ∧ 9 < clearState.meridian.frame ∧ clearState.tally.clears = [] ∧ clearState.tally.clearAll = none ∧ clearState.global.mfault = false := by decide +kernel
theorem witness_LogPagesAndTally_ask : live.powered 4 = true ∧ bitAt (0x200 : BitVec 32).toNat 9 = true ∧ bitAt (0x13F : BitVec 32).toNat 9 = false ∧ bitAt (0x13F : BitVec 32).toNat 8 = true ∧ live.tally.persistedAt + 60000000000 ≤ (live.at 60000000000).now := by decide +kernel
theorem witness_LogPagesAndTally_off : ({ live with power := { live.power with domains := 0x00F } } : State).powered 4 = false := by decide +kernel
theorem witness_LogPagesAndTally_trace : ({ live with tailings := { live.tailings with restart := some 9 } } : State).tailings.restart = some 9 ∧ 9 < live.meridian.frame := by decide +kernel
theorem test_tal_clear : (after (execTalClear 0 0x105 live)).tally.clears = [(5, 10)] := by decide +kernel
theorem witness_EventLogStages : live.powered 4 = true ∧ live.global.mfault = false ∧ live.log.stage ≠ 3 ∧ live.log.lastPersistNs + 1000000000 ≤ (live.at 1000000000).now ∧ live.log.stage = 1 ∧ ({ live with log := { live.log with stage := 2 } } : State).log.stage = 2 := by decide +kernel
theorem witness_EventLogStages_hours : 0 < ((live.at hourNs).now - live.manage.hoursAt) / hourNs := by decide +kernel
-- R425: LOG_RELOCATED takes the log to stage 2.
theorem test_relocated : (after (execLogRelocated 0 [] false live)).log.stage = 2 ∧ (after (execLogRelocated 0 [] false live)).log.ring.map (·.code) = [0x0C01] := by decide +kernel

theorem witness_Registers_pair : live.reachable = true ∧ isLo 0 0x10 = true ∧ isLo 0 (0x10 - 4) = false ∧ 0x10 % 4096 ≤ 4088 ∧ isLo 0 0x2C = false ∧ isLo 0 (0x2C - 4) = false := by decide +kernel
theorem witness_Registers_window : live.reachable = true ∧ live.link.vfEnabled.contains 5 = true ∧ shapeOk 0x2A 4 = false ∧ shapeOk 0x1FFC 8 = false := by decide +kernel
theorem witness_Registers_write : live.reachable = true ∧ (live.at 5).blockPowered 0x2C = true ∧ ({ live with power := { live.power with domains := 0x00F } } : State).blockPowered 0x600100 = true ∧ ({ live with power := { live.power with domains := 0x003 } } : State).blockPowered 0x600100 = false := by decide +kernel

/-- Drift 63 and cluster 11 are held, the scrub of cluster 11 is on. -/
def heldUnits : State := { live with units := { live.units with table := [(319, { state := .held }), (331, { state := .held })] }, blocks := { live.blocks with clusters := [(11, { scrub := 1 })] } }

theorem witness_Registers_qclass : heldUnits.reachable = true ∧ (heldUnits.at 5).blockPowered (0x100020 + 0x1000 * 63) = true ∧ ((heldUnits.at 5).unit (256 + 63)).quiesced = true ∧ ((heldUnits.at 5).unit 256).quiesced = false ∧ (heldUnits.at 5).blockPowered (0x200000 + 0x1000 * 11) = true ∧ ((heldUnits.at 5).unit (320 + 11)).quiesced = true := by decide +kernel
theorem witness_Registers_quota : (live.at 5).blockPowered (0x400100 + 4 * 63) = true ∧ (100 : BitVec 32).toNat % 2 ^ 23 + sumNat (((List.range 64).filter (· != 63)).map (fun k => (tget? live.cage.quotaPending k).elim (live.quota k) (·.1))) ≤ live.cage.quotable ∧ live.fixedCharge 63 ≤ (100 : BitVec 32).toNat % 2 ^ 23 ∧ live.cage.quotable < (0x7FFFFF : BitVec 32).toNat % 2 ^ 23 := by decide +kernel
theorem witness_Registers_scrub : (tgetD heldUnits.blocks.clusters 11 {}).scrub ≠ 0 ∧ heldUnits.powered (unitDomain (320 + 11)) = true := by decide +kernel
-- R564: SCRATCH keeps what is written; R480: a write to an unpowered block sets OFFWR.
theorem test_scratch : (after (execRegisterWrite 0 0 0x2C 0xDEADBEEF none live)).global.scratch = 0xDEADBEEF := by decide +kernel
theorem test_offwr : (after (execRegisterWrite 0 0 0x600100 1 none { live with power := { live.power with domains := 0x003 } })).power.offwr = true := by decide +kernel
theorem test_vf_window : (after (execLatchingPairRead 0 5 0 false live)).link.readData = [5] := by decide +kernel

/-! ### Management, units and the Almanac -/

theorem witness_MiCommands : live.busLives = true ∧ live.mgmtAwake = true ∧ dwField ({ sqe0 with d10 := 0xC0 } : Sqe).d10 0 8 = 0xC0 ∧ selectField { sqe0 with d10 := 0xC0 } = 0 := by decide +kernel
-- R589: VPD writes fail with Invalid Parameter; the poll reports the link and two healthy bits.
theorem test_vpd_write : ((after (execVpdWrite 0 live)).manage.replies.head?.map (·.status)) = some 4 := by decide +kernel
theorem test_tunnel_period : ((after (execMiTunnelledAdmin { sqe0 with d10 := 0xC0 } 0x0A live)).manage.replies.head?.map (fun r => (r.nvme, r.dw0))) = some (some .success, 2) := by decide +kernel
theorem test_tunnel_opcode : ((after (execMiTunnelledAdmin sqe0 0x01 live)).manage.replies.head?.map (·.nvme)) = some (some .invalidOpcode) := by decide +kernel

/-- A PLDM update runs; the running image has version 3. -/
def updating : State := { live with manage := { live.manage with updating := true } }

theorem witness_MctpPldmSpdm : live.busLives = true ∧ live.mgmtAwake = true ∧ (0 < 254 ∧ 254 < 255) ∧ (live.powered 11 = false ∨ (tgetD live.power.sensors 11 {}).sampled = false) := by decide +kernel
theorem witness_MctpPldmSpdm_update : updating.busLives = true ∧ updating.mgmtAwake = true ∧ updating.manage.updating = true ∧ updating.imageOk { version := 9, svn := 0, verifies := true } = true ∧ updating.startup.noSlot = false ∧ updating.imageOk {} = false ∧ live.manage.updating = false := by decide +kernel
theorem witness_MctpPldmSpdm_spdm : live.done .stewards = true ∧ live.activation.pp = false ∧ ({ live with activation := { live.activation with pp := true } } : State).activation.pp = true ∧ live.transportUp 0 = true ∧ tgetD live.manage.sessions 0 0 < 4 ∧ 4 ≤ tgetD ({ live with manage := { live.manage with sessions := [(0, 4)] } } : State).manage.sessions 0 0 := by decide +kernel
theorem test_sessions : ((after (execKeyExchange 0 0 { live with manage := { live.manage with sessions := [(0, 4)] } })).manage.replies.head?.map (·.status)) = some 0x0A := by decide +kernel
theorem test_endpoint_null : ((after (execSetEndpointId 0 0 live)).manage.replies.head?.map (·.status)) = some 2 := by decide +kernel
theorem witness_ManagementRegisterRead : live.busLives = true ∧ 0 < 16 ∧ isLo 64 0x2C = false ∧ isLo 64 (0x2C - 4) = false ∧ 0x2C < 0xA10000 := by decide +kernel
theorem witness_NamespacesAndSanitize_begin : live.takes { sqe0 with d10 := 4 } = true ∧ ({ sqe0 with d10 := 4 } : Sqe).d10.toNat % 8 = 4 ∧ live.sanitizable = true ∧ ({ live with pair := { live.pair with state := .paired } } : State).sanitizable = false ∧ ({ sqe0 with d10 := 7 } : Sqe).d10.toNat % 8 = 7 := by decide +kernel

/-- A sanitize that an interruption stopped. -/
def halted : State := { live with manage := { live.manage with sanitize := { live.manage.sanitize with running := true, active := false } } }

theorem witness_NamespacesAndSanitize_resume : halted.manage.sanitize.running = true ∧ halted.manage.sanitize.active = false ∧ halted.done .mount = true ∧ halted.global.mfault = false := by decide +kernel
theorem test_sanitize_begins : (after (execSanitizeCryptoErase { sqe0 with d10 := 4 } live)).manage.sanitize.running = true ∧ answered (execSanitizeCryptoErase { sqe0 with d10 := 4 } live) = some (.success, 0) := by decide +kernel

theorem witness_UnitControl : live.takes { sqe0 with d11 := 374 } = true ∧ ({ sqe0 with d11 := 374 } : Sqe).d10.toNat % 256 = 0 ∧ ({ sqe0 with d11 := 374 } : Sqe).d11.toNat % 65536 < 375 ∧ 375 ≤ ({ sqe0 with d11 := 375 } : Sqe).d11.toNat % 65536 := by decide +kernel
theorem witness_UnitControl_permits : live.unitPermits .reset 0 = true ∧ live.unitPermits .probe 0 = true ∧ live.unitPermits .hold 0 = true ∧ live.unitPermits .ret 0 = false ∧ live.unitPermits .outOfService 0 = true ∧ (live.unit 0).asked = [] ∧ (live.unit 0).state ≠ .quiescing ∧ (live.unit 0).state ≠ .outOfService := by decide +kernel
theorem witness_UnitControl_request : live.busLives = true ∧ live.mgmtAwake = true ∧ live.unitPermits .reset 350 = false ∧ live.unitPermits .probe 374 = true := by decide +kernel
-- R510: READ answers with the state and the epoch, which is 1 from the boot; R17: 375 units.
theorem test_unit_read : answered (execUnitControlRead { sqe0 with d11 := 374 } live) = some (.success, 0x10000) := by decide +kernel
theorem test_unit_absent : answered (execUnitControlRead { sqe0 with d11 := 375 } live) = some (.invalidField, 0) := by decide +kernel

/-- The live state with one unit changed. -/
def withUnit (u : Nat) (e : UnitEntry) : State := { live with units := { live.units with table := [(u, e)] } }

theorem witness_UnitTransitions_begin : unitSpan 374 = [374] ∧ UnitOp.drains .hold = true ∧ 9 < live.meridian.frame ∧ ((withUnit 374 { asked := [(.hold, 9)] }).unit 374).asked = [(.hold, 9)] ∧ ((withUnit 374 { asked := [(.hold, 9)] }).unit 374).state = .active ∧ (withUnit 374 { asked := [(.hold, 9)] }).holders 374 = [] := by decide +kernel
theorem witness_UnitTransitions_end : ((withUnit 331 { state := .quiescing, drain := some .outOfService }).unit 331).drain = some .outOfService ∧ (withUnit 5 { state := .quiescing, drain := some .reset }).holders 5 = [] ∧ unitSpan 5 = [5] ∧ ((withUnit 5 { state := .quiescing, drain := some .reset }).unit 5).kept = none ∧ ((withUnit 5 { state := .quiescing, drain := some .hold }).unit 5).state = .quiescing := by decide +kernel
theorem witness_UnitTransitions_reset : ((withUnit 5 { state := .resetting }).unit 5).state = .resetting ∧ ((withUnit 5 { state := .resetting }).unit 5).resetDone = none ∧ singleReset 5 = true := by decide +kernel
theorem witness_UnitTransitions_observe : live.busLives = true ∧ live.mgmtAwake = true ∧ (live.unit 255).state = .active ∧ (live.unit 255).observing = none ∧ (live.unit 255).observed = none ∧ ((withUnit 255 { state := .contested }).unit 255).state = .contested := by decide +kernel
theorem witness_UnitTransitions_contested : ((withUnit 255 { observed := some (3, 9) }).unit 255).observed = some (3, 9) ∧ 9 < live.meridian.frame ∧ ((withUnit 255 { observed := some (3, 9) }).unit 255).asked = [] ∧ ((withUnit 255 { state := .contested, observing := some 3 }).unit 255).waits = [] := by decide +kernel
theorem witness_UnitTransitions_lost : (live.unit 0).state = .active ∧ (live.core 0).packet = none ∧ live.allStewardsLost = false ∧ (live.unit 0).kept = none ∧ (live.at 7).recoveries 0 < 3 ∧ 3 ≤ ((withUnit 0 { recov := [1, 2, 3] }).at 7).recoveries 0 := by decide +kernel
-- R515: the loss of a core raises its epoch and begins a reset.
theorem test_unit_lost : ((after (execUnitLost 7 0 1 live)).unit 0).state = .resetting ∧ ((after (execUnitLost 7 0 1 live)).unit 0).epoch = 2 := by decide +kernel

/-- A burn of record 16 is staged under code 77; the command that commits it. -/
def staged16 : State := { live with almanac := { live.almanac with staged := some { record := 16, data := [], boot := 0, code := 77, firmware := false, atNs := 5 } } }

/-- See `staged16`. -/
def commit16 : Sqe := { sqe0 with d10 := 0x1002, d11 := 77 }

theorem witness_AlmanacBurns : live.takes { sqe0 with d10 := 0x100 } = true ∧ ({ sqe0 with d10 := 0x100 } : Sqe).d10.toNat % 256 = 0 ∧ ({ sqe0 with d10 := 0x100 } : Sqe).d10.toNat / 256 % 64 = 1 ∧ ({ sqe0 with d10 := 0x101 } : Sqe).d10.toNat % 256 ≠ 0 := by decide +kernel
theorem witness_AlmanacBurns_stage : 16 ≤ commit16.d10.toNat / 256 % 64 ∧ live.almanac.exhausted 16 = false ∧ live.almanac.staged = none ∧ ({ live.almanac with gens := [(64, { used := true }), (65, { used := true }), (66, { used := true }), (67, { used := true })] } : Almanac).exhausted 16 = true := by decide +kernel
theorem witness_AlmanacBurns_commit : staged16.takes commit16 = true ∧ staged16.almanac.staged = some { record := 16, data := [], boot := 0, code := 77, firmware := false, atNs := 5 } ∧ 77 = commit16.d11.toNat ∧ 77 ≠ sqe0.d11.toNat ∧ staged16.almanac.usedCount 16 < 4 ∧ (∀ g, g < 4 → ((staged16.almanac.gen 16 g).used = true ↔ g < staged16.almanac.usedCount 16)) := by decide +kernel
theorem witness_AlmanacBurns_expiry : 5 + 10000000000 ≤ (staged16.at 10000000005).now ∧ (staged16.at 7).now < 5 + 10000000000 := by decide +kernel
theorem test_burn : (after (execAlmanacBurnCommit commit16 none staged16)).almanac.usedCount 16 = 1 ∧ (after (execAlmanacBurnCommit commit16 none staged16)).almanac.staged = none := by decide +kernel
theorem test_burn_wrong_code : (after (execAlmanacBurnCommit { commit16 with d11 := 78 } none staged16)).almanac.usedCount 16 = 0 ∧ answered (execAlmanacBurnCommit { commit16 with d11 := 78 } none staged16) = some (.commandSequence, 0) := by decide +kernel


/-! ### The tick -/

/-- The live state with the latest tick, of frame 10, in a step. -/
def inStep (k : Nat) : State := { live with meridian := { live.meridian with step := k } }

/-- D5 has not acknowledged the latest tick. -/
def awaited : State := { live with meridian := { live.meridian with step := 1, waiting := [5] } }

-- R31: the domains of D0 to D10 are asked; an 11 among the late ones is none of them.
theorem witness_FrameTicks_begin : live.done .count = true ∧ live.power.off = false ∧ live.meridian.step = 0 ∧ live.meridian.waiting = [] ∧ live.meridian.running = true ∧ live.powered 4 = true ∧ live.global.mfault = false ∧ ((List.range 11).filter live.powered).filter (fun d => List.contains [5, 11] d) = [5] := by decide +kernel
theorem witness_FrameTicks_first : ({ live with meridian := { live.meridian with running := false } } : State).meridian.running = false ∧ ({ live with power := { live.power with domains := 0x00F } } : State).powered 4 = false ∧ State.reset.done .count = false ∧ ({ live with power := { live.power with off := true } } : State).power.off = true := by decide +kernel
theorem witness_FrameTicks_rate : ({ live with lodestar := { live.lodestar with phase := .leaving } } : State).lodestar.phase = .leaving := by decide +kernel
theorem test_tick_numbers : (after (execMeridianTick 0 [5] 0 live)).meridian.frame = 11 ∧ (after (execMeridianTick 0 [5] 0 live)).meridian.waiting = [5] ∧ (after (execMeridianTick 0 [5] 0 live)).meridian.step = 1 := by decide +kernel
theorem witness_FrameTicks_late : awaited.meridian.waiting.contains 5 = true ∧ awaited.meridian.lateNow.contains 5 = false ∧ awaited.tickNs + 2000 ≤ max awaited.now 2000 ∧ max awaited.now 1999 < awaited.tickNs + 2000 ∧ awaited.meridian.waiting.contains 4 = false := by decide +kernel
-- R29: TICK_ACK_LATE is event 0104h, and the late domain's bit is D5's.
theorem test_ack_late : ((awaited.at 2000).markLate 5).meridian.ackLate = 0x20 ∧ ((awaited.at 2000).markLate 5).log.ring.map (·.code) = [0x0104] := by decide +kernel

/-- A window is due in which PTM and PIN were live throughout; PTM has been in band for fifteen windows. -/
def windowed : State := { inStep 2 with lodestar := { live.lodestar with windowDue := true, ptm := { state := .qualifying, signal := true, wholeWindow := true, inBand := 15 }, pin := { state := .qualified, signal := true, wholeWindow := true } } }

theorem witness_FrameTicks_window : windowed.lodestar.windowDue = true ∧ windowed.meridian.step ≠ 1 ∧ windowed.powered 4 = true ∧ windowed.global.mfault = false ∧ 2 ≤ windowed.live.length ∧ (windowed.ref .ptm).state = .qualifying ∧ (windowed.ref .ptm).barred = false ∧ ((windowed.ref .ptm).wholeWindow = true) := by decide +kernel
-- R98: with local 0, PTM 0.2 ppm and PIN 0.4 ppm, the median is 0.2 ppm, so PTM is at 0 and qualifies; 5 ppm off, PIN would stay.
theorem test_window_qualifies : ((windowed.windowEnd ⟨200, 400, 0, 0⟩).ref .ptm).state = .qualified ∧ ((windowed.windowEnd ⟨200, 5201, 0, 0⟩).ref .pin).state = .disqualified := by decide +kernel

/-- A change to 500 µs is due, with a table of that period in the shadow. -/
def changing : State := { inStep 5 with meridian := { live.meridian with step := 5, pend := some (3, 10) }, orrery := { live.orrery with shadow := some { period := 3 }, shadowAt := some 10 } }

theorem witness_TickChanges_period : changing.meridian.step = 5 ∧ changing.meridian.pend = some (3, 10) ∧ 10 ≤ changing.meridian.frame ∧ changing.orrery.shadow = some { period := 3 } ∧ changing.peerGone = false ∧ (inStep 5).periodDue = false := by decide +kernel
theorem witness_TickChanges_table : changing.orrery.shadowAt = some 10 ∧ ({ inStep 5 with orrery := { live.orrery with shadow := some { period := 2 }, shadowAt := some 10 } } : State).activates { period := 2 } = true ∧ live.activates { period := 2, entries := [{ frame := 0, tenant := 1, cls := 0, slots := 1, budget := { cf := 1000000 }, clusters := 0 }] } = false ∧ (inStep 5).shadowDue = false := by decide +kernel
theorem test_period_changes : (after (execPeriodChanged 0 changing)).meridian.period = 3 ∧ (after (execPeriodChanged 0 changing)).orrery.active.period = 3 := by decide +kernel

/-- A change that takes class 3 of tenant 2 away is due. -/
def classing : State := { inStep 5 with orrery := { live.orrery with classes := [(35, { cfMax := 16, lpdMax := 1, candMax := 1, paramMax := 64 })], changes := [{ tick := 10, tenant := 2, cls := 3, deff := none }] } }

theorem witness_TickChanges_class : classing.meridian.step = 5 ∧ classing.orrery.changes = [{ tick := 10, tenant := 2, cls := 3, deff := none }] ∧ 10 ≤ classing.meridian.frame ∧ (inStep 5).classDue = false := by decide +kernel
theorem test_class_goes : (tget? (after (execContractChangeEffect 0 classing)).orrery.classes 35).isNone = true := by decide +kernel

/-- Every condition of R539 holds. -/
def opening : State := { inStep 6 with lodestar := { live.lodestar with firstCommit := true } }

theorem witness_TickChanges_open : opening.meridian.step = 6 ∧ (opening.at 0).opens = true ∧ ((inStep 6).at 0).opens = false := by decide +kernel
theorem test_opens : (after (execAdmissionOpen 0 opening)).meridian.admitOpen = true ∧ (after (execAdmissionOpen 0 opening)).meridian.step = 0 := by decide +kernel

/-- A packet of tenant 7 whose deadline is frame 10 and that has no CQE; with `held`, only a full queue holds its CQE. -/
def dueAt (d : Nat) (held : Bool) : Packet := { key := 1, tenant := 7, phase := if held then .answered else .running, admitFrame := some (d - 2), contracted := true, cqeHeld := held }

/-- The latest tick waits for the deadlines. -/
def deadlined (p : Packet) : State := { inStep 3 with packets := { live.packets with live := [(1, p)] } }

theorem witness_TickChanges_deadline : (deadlined (dueAt 10 false)).powered 4 = true ∧ (deadlined (dueAt 10 false)).packet? 1 = some (dueAt 10 false) ∧ (dueAt 10 false).overdue 10 = true ∧ (dueAt 11 false).overdue 10 = false ∧ (dueAt 10 true).overdue 10 = true ∧ (dueAt 10 true).cqeHeld = true ∧ ((deadlined (dueAt 10 true)).packets.live.map (·.1)).Nodup ∧ ((deadlined (dueAt 10 true)).packets.live).all (fun e => e.2.key == e.1) = true := by decide +kernel
theorem test_breach : ((deadlined (dueAt 10 false)).deadlines.packet? 1).map (·.breached) = some true := by decide +kernel

/-! ### Lodestar, power and the Lantern -/

/-- The live state with the references as given. -/
def refs (ptm pin : RefInfo) (l : Lodestar := live.lodestar) : State := { live with lodestar := { l with ptm := ptm, pin := pin } }

/-- PTM is present and qualified after two failed dialogs; PIN is present, qualified, with its latest mark at 1 ms. -/
def bothRefs : State := refs { state := .qualified, signal := true, failedDialogs := 2 } { state := .qualified, signal := true, lastMark := some 1000000, qualifiedSince := some 0 }

theorem witness_LodestarInputs_loss : bothRefs.powered 4 = true ∧ (bothRefs.ref .pin).signal = true ∧ (bothRefs.ref .pin).state ≠ .absent ∧ (bothRefs.ref .pin).state ≠ .disqualified ∧ (bothRefs.ref .fab).signal = false ∧ bothRefs.lodestar.phase = .committed := by decide +kernel
-- R99, the 10 µs of a phase jump: 4 ms and 10,000 ns later is in time, 1 ns more is not.
theorem witness_LodestarInputs_mark : bothRefs.lodestar.pin.lastMark = some 1000000 ∧ (reducePhase ((5010000 : Int) - 1000000) 4000000).natAbs ≤ 10000 ∧ 10000 < (reducePhase ((5010001 : Int) - 1000000) 4000000).natAbs := by decide +kernel
theorem witness_LodestarInputs_dialog : bothRefs.lodestar.ptm.failedDialogs = 2 ∧ bothRefs.lodestar.ptm.signal = true ∧ live.lodestar.ptm.failedDialogs = 0 := by decide +kernel
theorem test_third_dialog : ((after (execPtmDialog 0 false 0 bothRefs)).ref .ptm).state = .disqualified ∧ ((after (execPtmDialog 0 false 0 bothRefs)).log.ring.map (·.code)) = [0x0203] := by decide +kernel
theorem witness_LodestarInputs_holdover : ({ live with lodestar := { live.lodestar with phase := .leaving, target := none, leavingSince := 0 } } : State).lodestar.leavingSince + 2000000000 ≤ max live.now 2000000000 ∧ max live.now 1999999999 < 0 + 2000000000 ∧ live.lodestar.phase ≠ .leaving := by decide +kernel
-- R107: with INT selected otherwise than by hand a qualified reference is restored at once.
theorem witness_LodestarInputs_restore : (bothRefs.at 0).restoreDue = true ∧ (live.at 0).restoreDue = false := by decide +kernel
theorem witness_LodestarInputs_command : (8 : Word32).toNat % 8 = 0 ∧ (5 : Word32).toNat % 8 = 5 ∧ 5 < (6 : Word32).toNat % 8 ∧ (2 : Word32).toNat % 8 = Ref.pin.code ∧ (bothRefs.ref .pin).state = .qualified ∧ (bothRefs.ref .pin).barred = false ∧ (bothRefs.ref .fab).state ≠ .qualified := by decide +kernel
theorem test_lod_cmd : (after (execLodCmdSwitch 0 2 bothRefs)).lodestar.manual = some .pin ∧ (after (execLodCmdSwitch 0 3 bothRefs)).lodestar.cmdRej = true := by decide +kernel

/-- The latest tick is at its power step, and the power is as given. -/
def powering (p : Power) : State := { inStep 4 with power := p }

theorem witness_PowerAndLanternSteps_step : (powering { thermalNew := 1 }).meridian.step = 4 ∧ ((powering { thermalNew := 1 }).at 0).clockChanges.domainDue = false ∧ ((powering { req := 2 }).at 0).clockChanges.domainDue = true ∧ (((powering { thermalNew := 1, powerNew := true }).at 0).clockChanges).power.power = true := by decide +kernel
-- R495: the power cause steps D7 to D10.
theorem test_power_step : (((powering { powerNew := true }).at 0).clockChanges.saySteps).log.ring.map (fun r => (r.code, r.data.take 2)) = [(0x0805, [0xF, 1])] := by decide +kernel
theorem witness_PowerAndLanternSteps_critical : ((powering { criticalNew := some (9, 110) }).at 0).clockChanges.power.critical = true ∧ ((powering { criticalNew := some (9, 110) }).at 0).clockChanges.power.stepped = 0xC := by decide +kernel
-- R482, Table Power 2: P1 keeps all but D8.
theorem witness_PowerAndLanternSteps_trim : (powering { req := 1 }).trimDue = true ∧ (powering {}).trimDue = false ∧ (powering { req := 1 }).power.leavers = 0x100 := by decide +kernel

/-- D8 has left since frame 9. -/
def leavingD8 : State := powering { req := 1, leaving := 0x100, leaveFrame := 9 }

theorem witness_PowerAndLanternSteps_off : leavingD8.awake = true ∧ leavingD8.offDue = [8] ∧ unitDomain 160 = 8 ∧ (leavingD8.unit 160).state = .active ∧ (leavingD8.unit 160).observing = none ∧ unitDomain 0 ≠ 8 ∧ (powering {}).offDue = [] ∧ (powering {}).power.cur = (powering {}).power.target := by decide +kernel
theorem witness_PowerAndLanternSteps_on : (powering { domains := 0xEFF }).awake = true ∧ (powering { domains := 0xEFF }).onDue = [8] ∧ (0xEFF ||| stateDomains 0 : BitVec 12) = 0xFFF := by decide +kernel

/-- A Lantern request of frame 9, in its phase and step. -/
def lanterned (x : LanternPhase) (k req : Nat) : State := { live with power := { live.power with lantern := x, lanternStep := k, lanternFrame := 9, req := req } }

theorem witness_PowerAndLanternSteps_pending : (lanterned .pending 0 3).meridian.step = 0 ∧ (lanterned .pending 0 3).power.lantern = .pending ∧ (lanterned .pending 0 3).quiet = true ∧ 9 < (lanterned .pending 0 3).meridian.frame ∧ (lanterned .pending 0 3).global.mfault = false ∧ (lanterned .pending 0 3).power.off = false ∧ ({ lanterned .pending 0 3 with packets := { live.packets with live := [(1, dueAt 10 false)] } } : State).quiet = false := by decide +kernel
theorem witness_PowerAndLanternSteps_asleep : (lanterned .asleep 0 4).power.lantern = .asleep ∧ (0 < 1 ∧ 1 < 4) ∧ (lanterned .entering 3 4).power.req = 4 ∧ ((lanterned .entering 3 4).power.domains &&& lanternDomains 4) = 0x003 ∧ live.power.lantern ≠ .pending ∧ live.power.lantern ≠ .entering ∧ (lanterned .entering 1 3).power.lanternStep = 1 ∧ (lanterned .entering 2 3).power.lanternStep = 2 := by decide +kernel
theorem test_wake : (after (execWake 0 1 (lanterned .asleep 0 3))).power.lantern = .waking ∧ (after (execWake 0 5 (lanterned .asleep 0 3))).power.lantern = .asleep := by decide +kernel

/-- Nine samples of D8's sensor at 110 °C have come. -/
def hotD8 : State := { live with power := { live.power with sensors := [(8, { temp := 110, sampled := true, stepRun := 9, critRun := 9 })] } }

theorem witness_PowerInputs_hot : hotD8.powered 8 = true ∧ hotD8.power.off = false ∧ (tgetD hotD8.power.sensors 8 {}).stepRun = 9 ∧ (hotD8.power.thermal &&& 2) = 0 ∧ hotD8.power.critical = false ∧ hotD8.power.criticalNew = none ∧ hotD8.power.lossDeclared = none ∧ ({ live with power := { live.power with domains := 0x0FF } } : State).powered 8 = false := by decide +kernel
-- R495, R497: the tenth sample confirms both causes for the next tick.
theorem test_tenth : (after (execTemperatureSample 0 8 110 hotD8)).power.thermalNew = 2 ∧ (after (execTemperatureSample 0 8 110 hotD8)).power.criticalNew = some (8, 110) ∧ (after (execTemperatureSample 0 8 109 hotD8)).power.criticalNew = none := by decide +kernel
theorem test_cut : (after (execTemperatureSample 0 8 125 live)).power.lossDeclared.isSome = true := by decide +kernel
theorem witness_PowerInputs_power : live.power.off = false ∧ live.done .d0 = true ∧ live.power.powerNew = false ∧ live.power.power = false := by decide +kernel

/-- D8 arrives: core 160 has an empty kernel store, core 161 waits for its bound image. -/
def arrivingD8 : State := { live with power := { live.power with arriving := 0x100 }, cores := [(160, { ready := false, kernelStore := false }), (161, { ready := false, kernelStore := true, bound := 5, image := 5, streamingUntil := 7 })] }

theorem witness_PowerInputs_core : arrivingD8.power.arriving.getLsbD (unitDomain 160) = true ∧ (arrivingD8.core 160).ready = false ∧ (arrivingD8.core 160).kernelStore = false ∧ (arrivingD8.core 161).image = (arrivingD8.core 161).bound ∧ (arrivingD8.core 161).kernelStore = true ∧ (arrivingD8.core 161).streamingUntil ≤ max arrivingD8.now 7 ∧ live.power.arriving.getLsbD (unitDomain 160) = false := by decide +kernel
theorem test_core_ready : ((after (execCoreReady 7 160 arrivingD8)).core 160).ready = true ∧ ((after (execCoreReady 7 161 arrivingD8)).core 161).ready = true := by decide +kernel
theorem witness_PowerInputs_clock : live.powered 8 = true ∧ live.domainBusy 8 = false ∧ ({ live with cores := [(160, { packet := some 1 })] } : State).domainBusy 8 = true := by decide +kernel
theorem test_clock_stops : (after (execClockStop 0 8 64000 live)).power.clkstop = 0x100 ∧ (after (execClockWake 0 8 (after (execClockStop 0 8 64000 live)))).power.clkstop = 0 ∧ (after (execClockStop 0 8 63999 live)).power.clkstop = 0 := by decide +kernel
theorem test_stall : (tgetD (after (execCrossingStall 0 319 7 live)).blocks.drifts 63 {}).xstall = 7 := by decide +kernel

/-! ### Packets -/

/-- VF 5 with one SQE visible on its queue 1, a SUBMIT WORK or an ABORT WORK, and the packets given. -/
def visible5 (pkt : Bool) (ps : Tbl Packet) : State := { live with link := { live.link with controllers := [(0, { enabled := true, ready := true }), (5, { enabled := true, ready := true, sqs := [(1, { cqid := 1, visible := [{ arrival := 3, packet := pkt, backlog := 1, doorbellNs := 0 }] })], cqs := [(1, { depth := 4 })] })] }, packets := { live.packets with nextKey := 9, live := ps } }

/-- A packet of opcode `op` with an empty parameter block, an answer region of 128 bytes at 4,096 and the ID 77. -/
def packetOf (op : Nat) : List Byte := padTo 256 (le 2 op ++ [1, 0, 0, 0, 0, 0] ++ le 8 77 ++ le 8 0 ++ le 4 0 ++ le 4 64 ++ le 8 4096)

/-- The SQE of a SUBMIT WORK of 256 bytes. -/
def submit5 : Sqe := { sqe5 with d10 := 256 }

theorem witness_PacketIntake_doorbell : (tget? (stored.ctrl 5).sqs 1).isNone = true ∧ (tget? ((visible5 true []).ctrl 5).sqs 1).isSome = true ∧ ((visible5 true []).ctrl 5).enabled = true ∧ (visible5 true []).power.off = false := by decide +kernel
theorem test_doorbell_order : ((tgetD ((after (execSqTailDoorbell 7 5 1 [true, false] (visible5 true []))).ctrl 5).sqs 1 {}).visible.map (fun v => (v.arrival, v.packet, v.doorbellNs))) = [(3, true, 0), (0, true, 7), (1, false, 7)] := by decide +kernel
theorem witness_PacketIntake_taken : (((visible5 true []).at submit5.t).takeSqe submit5 true).isSome = true ∧ (visible5 true []).takes submit5 = true ∧ submit5.d10.toNat = 256 ∧ (0 % 64 = 0 ∧ 0 % 2 ^ 12 + 256 ≤ 2 ^ 12) ∧ ((visible5 true []).ctrl 5).pageBits = 12 ∧ ¬ (4096 - 192) % 2 ^ 12 + 256 ≤ 2 ^ 12 := by decide +kernel
theorem witness_PacketIntake_region : (Header.read (packetOf 0x0F01)).answerLen = 64 ∧ (match region 4096 4096 128 64 none with | .ok rs => rs == [(4096, 128)] | _ => false) = true ∧ (match region 4096 4097 128 64 none with | .error .invalid => false | .error .unreadable => true | _ => false) = true ∧ (match region 4096 4098 128 64 none with | .error .invalid => true | _ => false) = true := by decide +kernel
theorem witness_PacketIntake_valid : (match (visible5 true []).validate 5 (Header.read (packetOf 0x0F01)) (packetOf 0x0F01) none 4096 with | .ok b => b == [] | _ => false) = true ∧ (match (visible5 true []).validate 5 (Header.read (packetOf 0x0204)) (packetOf 0x0204) none 4096 with | .error _ => true | _ => false) = true ∧ opInfo 0x0F00 = none := by decide +kernel
-- R32, R401: the record stands under the next key; R151: an opcode that does not exist is refused with status code 2 and no record.
theorem test_submit : ((after (execSubmitWork submit5 0 0 0 (some (packetOf 0x0F01)) none none (visible5 true []))).packets.live.map (fun x => (x.1, x.2.hdr.packetId, x.2.tenant))) = [(9, 77, 5)] := by decide +kernel
theorem test_submit_refused : (after (execSubmitWork submit5 0 0 0 (some (packetOf 0x0F00)) none none (visible5 true []))).packets.live = [] ∧ (((after (execSubmitWork submit5 0 0 0 (some (packetOf 0x0F00)) none none (visible5 true []))).postedOn 5 1).map (·.dw1)) = [77] := by decide +kernel

/-- An admitted packet of VF 5 with ID 77, and one that waits for its admission. -/
def packet77 (ph : Phase) : Packet := { key := 4, fn := 5, sqid := 1, cqid := 1, cid := 2, tenant := 5, hdr := { packetId := 77 }, phase := ph }

/-- The SQE of an ABORT WORK of packet 77. -/
def abort77 : Sqe := { sqe5 with d10 := 77, cid := 3 }

theorem witness_PacketEndsAndAnswers_ends_abort : ((visible5 false [(4, packet77 .running)]).abortTarget abort77) = some (packet77 .running) ∧ (visible5 false [(4, packet77 .running)]).packet? 4 = some (packet77 .running) ∧ (packet77 .running).open_ = true ∧ (packet77 .running).phase ≠ .received ∧ (packet77 .running).recordWritten = false ∧ (packet77 .received).phase = .received ∧ (packet77 .answered).open_ = false ∧ ((visible5 false []).abortTarget abort77) = none := by decide +kernel
theorem witness_PacketEndsAndAnswers_ends_takes : ((visible5 false []).at abort77.t |>.takeSqe abort77 false).isSome = true ∧ (visible5 false []).takes abort77 = true ∧ (visible5 false []).earlierIntake 3 = false ∧ (visible5 true []).earlierIntake 4 = true := by decide +kernel
-- R147 to R149: DW0 is 3 for a packet that is not there, 0 for one removed before admission, after the packet's own CQE.
theorem test_abort_none : (((after (execAbortWork abort77 (visible5 false []))).postedOn 5 1).map (·.dw0)) = [3] := by decide +kernel
theorem test_abort_removes : (((after (execAbortWork abort77 (visible5 false [(4, packet77 .received)]))).postedOn 5 1).map (fun e => (e.cid, e.dw0 % 256 == AnsStatus.aborted.code))) = [(2, true), (3, false)] := by decide +kernel

/-- Completion queue 1 of VF 5 has 4 entries, all posted, and holds back the answer of packet 4. -/
def fullQueue (pk : Option Nat) : State := { live with link := { live.link with controllers := [(5, { enabled := true, ready := true, cqs := [(1, { depth := 4, posted := List.replicate 3 ⟨1, 0, .success, 0, 0⟩, held := [{ cqe := ⟨1, 9, .success, 0, 0⟩, packet := pk }] })] })] }, packets := { live.packets with live := [(4, { packet77 .answered with cqeHeld := true })] } }

theorem witness_PacketEndsAndAnswers_ends_held : (tgetD ((fullQueue none).ctrl 5).cqs 1 {}).held = [{ cqe := ⟨1, 9, .success, 0, 0⟩, packet := none }] ∧ (((tgetD ((fullQueue none).ctrl 5).cqs 1 {}).posted).drop 1).length + 1 < 4 ∧ 4 ≤ (((tgetD ((fullQueue none).ctrl 5).cqs 1 {}).posted).drop 0).length + 1 ∧ (fullQueue none).global.mfault = false ∧ (tget? ((fullQueue none).ctrl 5).cqs 2).isNone = true ∧ (tgetD ((visible5 true []).ctrl 5).cqs 1 {}).held = [] := by decide +kernel
theorem witness_PacketEndsAndAnswers_ends_held_packet : (fullQueue (some 4)).packet? 4 = some { packet77 .answered with cqeHeld := true } ∧ (tgetD ((fullQueue (some 4)).ctrl 5).cqs 1 {}).held = [{ cqe := ⟨1, 9, .success, 0, 0⟩, packet := some 4 }] ∧ (packet77 .answered).key = 4 := by decide +kernel
theorem test_cq_head : (((after (execCqHeadDoorbell 0 5 1 1 (fullQueue none))).postedOn 5 1).map (·.cid)) = [0, 0, 9] ∧ (((after (execCqHeadDoorbell 0 5 1 0 (fullQueue none))).postedOn 5 1).map (·.cid)) = [0, 0, 0] := by decide +kernel

/-- Packet 77 has finished with the changes given. -/
def finished77 (cs : List Object) : Packet := { packet77 .finished with changes := cs }

/-- Buffer 6 of tenant 5, of two lodes. -/
def buffer6 : Object := { handle := 5 * 2 ^ 48 + 6, body := .buffer, cls := .paged, size := 131072, base := 0, lodes := 2, version := 3 }

/-- Packet 77 has finished; buffer 6 exists. -/
def delivering (p : Packet) : State := { visible5 true [(4, p)] with objects := { live.objects with live := [(6, buffer6)] } }

theorem witness_PacketEndsAndAnswers_deliver : (delivering (finished77 [])).packet? 4 = some (finished77 []) ∧ (finished77 []).phase = .finished ∧ (finished77 []).status = .done ∧ stagedMarked (finished77 []) (finished77 []).payload.length = false ∧ (delivering (finished77 [])).canPost 5 = true ∧ (delivering (finished77 [])).roomOn 5 1 = true ∧ (finished77 []).overdue 10 = false ∧ ((delivering (finished77 [])).ctrl 5).aers = [] ∧ (fullQueue none).roomOn 5 1 = false ∧ (packet77 .running).phase ≠ .finished ∧ stagedMarked { finished77 [] with payload := [1], stagingPoison := [0] } 1 = true := by decide +kernel
theorem witness_PacketEndsAndAnswers_commit : (finished77 [buffer6]).changes = [buffer6] ∧ tget? (delivering (finished77 [buffer6])).objects.live (objNumber buffer6.handle) = some buffer6 ∧ buffer6.dead = false ∧ ((delivering (finished77 [buffer6])).objects.live.map (·.1)).Nodup ∧ (delivering (finished77 [buffer6])).mirrored buffer6.handle = false ∧ ({ live with pair := { live.pair with id := { pairId := 9 }, mask := 0x20, state := .paired } } : State).mirrored buffer6.handle = true ∧ ({ live with pair := { live.pair with state := .paired } } : State).mirrors = true := by decide +kernel
-- R156: one version more; R38: the answer's CQE follows.
theorem test_commit : ((tget? (after (execAnswerDelivery 0 4 [] [] true false (delivering (finished77 [buffer6])))).objects.live 6).map (·.version)) = some 4 ∧ ((after (execAnswerDelivery 0 4 [] [] true false (delivering (finished77 [buffer6])))).postedOn 5 1).map (·.cid) = [2] := by decide +kernel

/-! ### Jobs -/

/-- An index without slots: 64 dimensions, one seam of 256 entries. -/
def index1 : Object := { handle := 5 * 2 ^ 48 + 6, body := .index { dim := 64, metric := 0, code := 1, m := 16, cfmt := 0, nlist := 1, seamCap := 256 }, lodes := 4, fixedLodes := 2, version := 3 }

/-- A KV object of one layer and one head. -/
def kv1 : Object := { handle := 5 * 2 ^ 48 + 6, body := .kv { layers := 1, heads := 1, qpk := 1, dim := 64, kfmt := 0, vfmt := 0, group := 32, sfmt := 0, hotSinks := 1, hotRecent := 1, maxTokens := 256 }, version := 3 }

/-- Packet 4 of VF 5 runs opcode `op` on buffer 6 or what is given, under a plan. -/
def job (op : Nat) (pl : Plan) (param : List Byte) (snap : List Object) (cores : List Nat := []) : Packet := { packet77 .running with hdr := { opcode := op, packetId := 77, primary := 5 * 2 ^ 48 + 6, answerLen := 64 }, plan := some pl, param := param, snap := snap, cores := cores }

/-- The state in which only that job runs, with its object there. -/
def working (p : Packet) : State := { visible5 true [(4, p)] with objects := { live.objects with live := (p.snap.map (fun o => (6, o))) } }

-- R167: ASSAY of two taps.
theorem witness_RunEnds_run : ((working (job 0x0501 {} [0, 0, 2, 0] [])).packet? 4).isSome = true ∧ (working (job 0x0501 {} [0, 0, 2, 0] [])).lostDrift {} = none ∧ (working (job 0x0501 {} [0, 0, 2, 0] [])).reroute_ (job 0x0501 {} [0, 0, 2, 0] []) {} = {} ∧ ((working (job 0x0501 {} [0, 0, 2, 0] [])).at 0).jobReady (job 0x0501 {} [0, 0, 2, 0] []) {} = true ∧ (working (job 0x0501 {} [0, 0, 2, 0] [])).const.subs = [] ∧ (working (job 0x0501 {} [] [])).global.mfault = false := by decide +kernel
theorem test_assay_answer : ((after (execAssay 0 4 (working (job 0x0501 {} [0, 0, 2, 0] [])))).packet? 4).map (fun p => (p.payload.length, p.phase)) = some (576, .finished) := by decide +kernel
theorem witness_RunEnds_waits : ((working (job 0x0101 { lodes := [3] } [] [])).at 0).jobReady (job 0x0101 { lodes := [3] } [] []) { lodes := [3] } = false ∧ (withUnit 9 { state := .outOfService }).lostDrift { drifts := [9] } = some 9 := by decide +kernel
theorem witness_RunEnds_load : leAt [1] 0 1 = 1 ∧ ({ items := [70000] } : Plan).items.headD 0 ≤ 70000 ∧ 65536 < ({ items := [70000] } : Plan).items.headD 0 := by decide +kernel
-- R207: a checkpoint after every 65,536 records.
theorem test_load_checkpoint : ((after (execSeamBuildLoad 0 4 65537 [] (working (job 0x0111 { items := [70000] } [1] [])))).packet? 4).map (fun p => tgetD p.progress 0 0) = some 65536 := by decide +kernel
theorem witness_RunEnds_fault : (job 0x0501 {} [] []).inRun = true ∧ (packet77 .received).inRun = false ∧ ({ live with cores := [(7, { packet := some 4, exited := false, watchdog := 5, bundles := 5 })] } : State).core 7 = { packet := some 4, exited := false, watchdog := 5, bundles := 5 } ∧ (live.core 7).packet = none := by decide +kernel
theorem test_job_fault : ((after (execJobFault 0 4 .watchdog 9 0 (working (job 0x0601 {} [] [])))).packet? 4).map (fun p => (p.phase, p.lastLoc)) = some (.replaying, 9) := by decide +kernel
theorem test_module_fault : (after (execModuleFault 0 3 live)).global.mfault = true ∧ (after (execModuleFault 0 4 live)).global.mfault = false := by decide +kernel

theorem witness_WorkAnswers_index : (job 0x0101 {} [] [index1]).prim = some index1 ∧ index1.index?.isSome = true ∧ ({ fits := false } : Plan).fits = false ∧ (job 0x0101 {} [] [index1]).sub = false ∧ (Insert.read [1]).op ≠ 0 := by decide +kernel
theorem witness_WorkAnswers_kv : (job 0x0201 {} [] [kv1]).prim = some kv1 ∧ kv1.kv?.isSome = true := by decide +kernel
theorem witness_WorkAnswers_create : ({ job 0x0203 {} [] [] with create := some kv1 } : Packet).create = some kv1 ∧ bitAt (leAt [0, 0, 0, 1] 3 1) 1 = false ∧ (working (job 0x0204 {} [] [kv1])).objects.named (5 * 2 ^ 48 + 6) = some kv1 := by decide +kernel
-- R220: KV CLOSE answers the handle and the last version, and deletes the object.
theorem test_kv_close : ((after (execKvClose 0 4 (working (job 0x0204 {} [] [kv1])))).packet? 4).map (fun p => (p.payload, p.deletes)) = some (le 8 (5 * 2 ^ 48 + 6) ++ le 8 3, [6]) := by decide +kernel
-- R202: a plan without an item changes nothing.
theorem test_insert_nothing : ((after (execSeamInsert 0 4 [] (working (job 0x0110 { fits := false } [] [index1])))).packet? 4).map (fun p => (p.payload, p.changes)) = some (le 8 0 ++ le 8 3, []) := by decide +kernel

theorem witness_JobRows_placement : leAt [1, 0, 2] 0 1 = 1 ∧ placeClass (leAt [1, 0, 2] 2 1) = buffer6.cls ∧ (working (job 0x0701 {} [1, 0, 2] [buffer6])).objects.named (5 * 2 ^ 48 + 6) = some buffer6 ∧ placeClass (leAt [1, 0, 0] 2 1) = .pinnedH ∧ (working (job 0x0701 {} [1] [buffer6])).wholeIn buffer6 = false ∧ placeClass (leAt [1, 0, 1] 2 1) = .hot := by decide +kernel
-- R318: the class changes at the commit.
theorem test_set_placement : ((after (execPlaceSetPlacement 0 4 (working (job 0x0701 {} [1, 0, 1] [buffer6])))).packet? 4).map (fun p => (p.payload.drop 8, p.changes.map (·.cls))) = some (le 8 4, [.hot]) ∧ (after (execPlaceSetPlacement 0 4 (working (job 0x0701 {} [1, 0, 0] [buffer6])))).cage.wanted = [0, 1] := by decide +kernel

/-- Both lodes of buffer 6 are in Tier H, and tenant 5 has a quota. -/
def resident6 (p : Packet) (q : Nat) : State := { working p with cage := { live.cage with quotas := [(5, q)], map := [(9, { wlode := 0, state := .resident, cls := .paged, tenant := 5, pin := 1 }), (10, { wlode := 1, state := .resident, cls := .paged, tenant := 5 })], heads := live.cage.heads, nexts := live.cage.nexts } }

theorem witness_JobRows_pin : (job 0x0702 { items := [0, 1] } [] [buffer6]).prim = some buffer6 ∧ (working (job 0x0702 { items := [0, 1] } [] [buffer6])).pinsBefore (job 0x0702 { items := [0, 1] } [] [buffer6]) = false ∧ (working (job 0x0702 { items := [0, 1] } [] [buffer6])).pinFits 5 [0, 1] = false ∧ (resident6 (job 0x0702 { items := [0, 1] } [] [buffer6]) 8).pinFits 5 [0, 1] = true ∧ (working (job 0x0702 { items := [0, 1] } [] [buffer6])).cage.allResident [0, 1] = false ∧ live.cage.allResident [] = true := by decide +kernel
theorem test_pin_no_quota : ((after (execPin 0 4 (working (job 0x0702 { items := [0, 1] } (le 8 0 ++ le 8 131072) [buffer6])))).packet? 4).map (fun p => p.payload) = some (le 1 1 ++ le 3 0 ++ le 4 0 ++ le 4 0 ++ le 4 0) := by decide +kernel
theorem witness_JobRows_probe : (working (job 0x0F01 {} [] [])).canPost 5 = true ∧ (working (job 0x0F01 {} [] [])).roomOn 5 1 = true ∧ (job 0x0F01 {} [] []).takenOver = false ∧ (job 0x0F01 {} [] []).overdue 10 = false := by decide +kernel
-- R168: the period code, the selected reference INT and its phase stand at 36 to 38.
theorem test_probe : ((after (execFrameProbe 9 4 (working (job 0x0F01 {} [] [])))).packet? 4).map (fun p => (p.phase, (p.payload.drop 36).take 3, p.payload.length)) = some (.answered, [2, 5, 0], 64) := by decide +kernel

/-- A program object: one entry at bundle 2 with a bound of 9 bundles, and no code. -/
def program1 : Object := { handle := 5 * 2 ^ 48 + 6, body := .program, size := 112, lodes := 1, zeroed := true, bytes := csetBytes [] 0 ([1, 1] ++ List.replicate 62 0 ++ le 4 2 ++ le 4 1 ++ le 8 0 ++ le 4 9) }

/-- Its job holds core 70, as index 0 of 1. -/
def program70 : State := { working (job 0x0601 {} [] [program1] [70]) with cores := [(70, { packet := some 4, exited := true, cores := 1, ready := true })] }

theorem witness_JobRows_program : (job 0x0601 {} [] [program1] [70]).prim = some program1 ∧ (job 0x0601 {} [] [program1] [70]).cores.Nodup ∧ (program70.core 70).packet = some 4 ∧ (program70.core 70).exited = true ∧ (program70.core 70).codeLen = 0 ∧ (program70.at 0).jobReady (job 0x0601 {} [] [program1] [70]) {} = true := by decide +kernel
theorem test_program_starts : ((after (execRunProgram 0 4 program70)).core 70).exited = false ∧ ((after (execRunProgram 0 4 program70)).core 70).pc = (ProgEntry.read program1.all 0).start ∧ (((after (execRunProgram 0 4 program70)).core 70).readX 2).val = 1 := by decide +kernel

/-- A record view of namespace 8. -/
def view1 : Object := { handle := 5 * 2 ^ 48 + 6, body := .recordView, size := 64, lodes := 1, bytes := csetBytes [] 4 [8] }

/-- A SIFT of one sector, on the drift that holds it. -/
def sift1 : Packet := job 0x0301 { items := [1] } [] [view1] [sectorDrift space8 0 0]

theorem witness_JobRows_sift : sift1.prim = some view1 ∧ (View.read view1.all).nsid = 8 ∧ (View.read view1.all).slba = 0 ∧ (List.range 1).all (fun i => sectorDrift space8 0 (0 / (View.read view1.all).rps + i) == sectorDrift space8 0 0) = true ∧ sift1.cores.contains (sectorDrift space8 0 0) = true ∧ (job 0x0301 {} [] []).prim = none := by decide +kernel

/-! ### Fabric and constellation -/

/-- The live state with port `p` as given. -/
def withPort (p : Nat) (x : Port) : State := { live with fabric := { live.fabric with ports := [(p, x)] } }

/-- A wire frame with its CRC: a header word and the start of its flit. -/
def wire (h : Nat) (flit : List Byte) : List Byte := let b := padTo 260 (le 4 h ++ flit); b ++ le 4 (crc32 b)

/-- A data frame in order with a whole message of channel 0 to member 2 from member 3, of type 1, tag 9. -/
def wireData : List Byte := wire 0xC1 ([2, 3, 1, 0] ++ le 4 16 ++ le 8 9)

theorem witness_FabricFramesAndLinks_Frames_frame : (withPort 1 { state := .up }).port 1 = { state := .up } ∧ leAt wireData 0 4 % 16 = 1 ∧ leAt wireData 0 4 / 256 % 4096 = 0 ∧ bitAt (leAt wireData 0 4) 7 = true ∧ bitAt (leAt wireData 0 4) 6 = true ∧ isBinary 1 = false ∧ isBinary 11 = true ∧ leAt [0x91, 0, 0, 0] 0 4 / 16 % 4 ≠ 0 := by decide +kernel
theorem crc32Bit_lt : ∀ k c, c < 2 ^ 32 → crc32Bit k c < 2 ^ 32 := fun k => k.rec (fun _ h => h) (fun _ ih c h => ih _ (by split <;> first | exact Nat.xor_lt_two_pow (by omega) (by decide) | omega))
theorem crc32_lt (d : List Byte) : crc32 d < 2 ^ 32 := Nat.xor_lt_two_pow (List.foldlRecOn d (motive := (· < 2 ^ 32)) _ (by decide) (fun c h b _ => crc32Bit_lt 8 _ (Nat.xor_lt_two_pow h (by have := b.isLt; omega)))) (by decide)
theorem leAt_le4 (b : List Byte) (v : Nat) (h : v < 2 ^ 32) : leAt (b ++ le 4 v) b.length 4 = v := by simp [leAt, le, fromLe, BitVec.toNat_ofNat] <;> omega
theorem wire_crc (h : Nat) (f : List Byte) : crc32 ((wire h f).take 260) = leAt (wire h f) 260 4 := by have hl : (padTo 260 (le 4 h ++ f)).length = 260 := (by simp [padTo, sliceBytes, le] <;> omega); have := leAt_le4 (padTo 260 (le 4 h ++ f)) _ (crc32_lt (padTo 260 (le 4 h ++ f))); rw [hl] at this; simp only [wire]; rw [this, List.take_left' hl]
theorem witness_FabricFramesAndLinks_Frames_crc : crc32 (wireData.take 260) = leAt wireData 260 4 := wire_crc _ _
-- R431: a failed decode is answered with a NAK record of SEQ 7.
theorem test_wire_nak : ((after (execWireFrameReceived 0 1 [] false true 0 (withPort 1 { state := .up, rxNext := 7 }))).port 1).control = [padTo 16 [2, 0, 7, 0]] := by decide +kernel

/-- Two flits sent and not acknowledged, and a NAK record for the second. -/
def nakked : Port := { state := .up, replay := [⟨5, 1, 0, true, false, []⟩, ⟨6, 1, 0, false, true, []⟩], txSeq := 7, inbox := [padTo 16 [1, 2, 3, 0], padTo 16 [2, 0, 6, 0]] }

theorem witness_FabricFramesAndLinks_Frames_records : (nakked.inbox.find? (fun r => leAt r 0 1 == 2)) = some (padTo 16 [2, 0, 6, 0]) ∧ (nakked.inbox.find? (fun r => leAt r 0 1 == 1)) = some (padTo 16 [1, 2, 3, 0]) ∧ leAt (padTo 16 [2, 0, 6, 0]) 2 2 % 4096 = 6 ∧ nakked.queued = [] ∧ (([padTo 16 [4, 1]] : List (List Byte)).find? (fun r => leAt r 0 1 == 4)) = some (padTo 16 [4, 1]) ∧ (nakked.inbox.find? (fun r => leAt r 0 1 == 4)) = none := by decide +kernel
theorem test_nak : (((after (execNak 0 1 (withPort 1 nakked))).port 1).replay.map (·.seq), ((after (execNak 0 1 (withPort 1 nakked))).port 1).resent) = ([6], 1) := by decide +kernel
theorem test_credits : tgetD ((after (execCreditReturn 0 1 (withPort 1 nakked))).port 1).credits 2 0 = 3 := by decide +kernel

theorem witness_FabricFramesAndLinks_Links_down : ((withPort 11 { state := .up, nakRun := 8, secured := true, underKey := 2 ^ 32 }).port 11).nakRun = 8 ∧ (withPort 11 { state := .up }).binaryDown = false ∧ live.binaryDown = true ∧ ((withPort 3 { state := .training, retrainFails := 2 }).port 3).retrainFails = 2 := by decide +kernel
theorem witness_FabricFramesAndLinks_Links_up : (withPort 9 { state := .down }).portServes 9 = true ∧ (withPort 9 { state := .down, cageRefused := true }).portServes 9 = false ∧ ((withPort 9 { state := .down }).port 9).queued = [] := by decide +kernel
-- R432: the third failed retraining keeps the link down; R433: 256 credits a channel.
theorem test_retrain : ((after (execFabricPortDown 0 3 false true (withPort 3 { state := .training, retrainFails := 2 }))).port 3).state = .down ∧ ((after (execFabricPortDown 0 3 false true (withPort 3 { state := .training, retrainFails := 1 }))).port 3).state = .training := by decide +kernel
theorem test_link_up : tgetD ((after (execFabricPortLinkUp 0 9 (withPort 9 { state := .down }))).port 9).credits 3 0 = 256 := by decide +kernel

/-- A constellation member in a role. -/
def memberOf (c : Const) : State := { live with const := c }

/-- The foreman, member 1, of a formed constellation with hewers 2 and 63. -/
def foreman : State := memberOf { role := .foreman, savedRole := .foreman, id := 1, member := 1, formed := true, members := [1, 2, 63], routes := [(2, 0), (63, 9)] }

theorem witness_FabricFramesAndLinks_Links_routes : foreman.const.role = .foreman ∧ foreman.const.formed = true ∧ (foreman.port 0).state ≠ .up ∧ (memberOf { role := .hewer }).const.role = .hewer ∧ ((withPort 0 { state := .up }).port 0).state = .up := by decide +kernel
theorem test_routes : (after (execRouteChanged 0 0 [(2, 4)] [] foreman)).const.routes = [(2, 4)] ∧ (after (execRouteChanged 0 0 [(2, 4)] [] foreman)).lodestar.surveys.map (·.left) = [[2, 63]] := by decide +kernel

/-- A tick marker of frame 12 has come on a port. -/
def marked (p : Nat) (c : Const) : State := { withPort p { state := .up, inbox := [[3, 0, 0, 0] ++ le 4 0 ++ le 8 12] } with const := c }

theorem witness_Surveys_marker : (((marked 10 {}).port 10).inbox.find? (fun r => leAt r 0 1 == 3)).isSome = true ∧ (marked 10 {}).powered 4 = true ∧ isBinary 10 = true ∧ ((marked 10 {}).ref .twin).signal = false ∧ (marked 0 { role := .hewer }).const.role = .hewer ∧ ((marked 0 { role := .hewer }).ref .fab).signal = false ∧ (live.port 0).inbox = [] := by decide +kernel
-- R456: in frame 10 a marker of frame 12 is 2 ahead, on time; R94: a TWIN that is itself on TWIN may not qualify.
theorem test_marker : (after (execTickMarker 0 10 0 4 2 (marked 10 {}))).pair.markerOff = -2 ∧ ((after (execTickMarker 0 10 0 4 2 (marked 10 {}))).ref .twin).barred = true := by decide +kernel
theorem witness_Surveys_form : foreman.takes sqe0 = true ∧ sqe0.fn = 0 ∧ sqe0.d10.toNat % 256 = 0 ∧ ({ sqe0 with d10 := 1 } : Sqe).d10.toNat % 256 = 1 ∧ foreman.lodestar.surveys = [] ∧ (∃ h ∈ [0, 63], 0 < h ∧ h < 64) ∧ foreman.const.members.filter (· != foreman.const.member) = [2, 63] ∧ ({ sqe0 with d11 := 63 } : Sqe).d11.toNat % 64 = 63 ∧ 3 ∉ [2, 63] := by decide +kernel
theorem test_form : (after (execSurveyForm sqe0 [0, 63, 64] false [] [] foreman)).const.members = [1, 63] ∧ (after (execSurveyForm sqe0 [63] false [] [] foreman)).lodestar.surveys.map (·.left) = [[63]] := by decide +kernel
theorem witness_Surveys_auto : ({ memberOf { savedRole := .foreman, savedMembers := [2] } with startup := live.startup } : State).startup.ended.contains .ready = true ∧ (∀ h ∈ [2], h ∈ [2, 3]) ∧ live.startup.readyNs + 60000000000 ≤ max live.now 60000000000 ∧ (memberOf { savedRole := .foreman, savedMembers := [2] }).const.formAsked = false := by decide +kernel

/-- The foreman's survey of hewers 2 and 63 runs. -/
def surveying (l : List Nat) : State := { foreman with lodestar := { live.lodestar with surveys := [{ form := true, own := true, left := l, measured := 2 }] } }

theorem witness_Surveys_exchange : (surveying [2, 63]).lodestar.surveys.map (·.left) = [[2, 63]] ∧ (∃ k ∈ [2, 63], k ≠ 2) ∧ (List.replicate 64 ((0, 1, 2, 3) : Int × Int × Int × Int)).length = 64 ∧ (surveying [2]).lodestar.surveys.map (fun j => (j.left, j.form)) = [([2], true)] ∧ (memberOf { role := .hewer, member := 5 }).const.member = 5 := by decide +kernel
theorem test_exchange : (tgetD (after (execSurveyExchange 0 2 7 0 (List.replicate 64 (0, 1100, 1200, 200)) (surveying [2, 63]))).lodestar.survey 2 {}).delay = 50 ∧ (tgetD (after (execSurveyExchange 0 2 7 0 (List.replicate 64 (0, 1100, 1200, 200)) (surveying [2, 63]))).lodestar.survey 2 {}).offset = 1050 := by decide +kernel
theorem witness_Surveys_stale : (tgetD ({ foreman with lodestar := { live.lodestar with survey := [(2, { valid := true, boot := 7 })] } } : State).lodestar.survey 2 {}).valid = true ∧ (2 : Nat) ≠ foreman.const.member ∧ (none : Option Nat) ≠ some 7 ∧ (tgetD live.lodestar.survey 2 {}).valid = false := by decide +kernel

/-- A constellation search of two shards with K = 1 runs; shard 0 is in. -/
def scattered : State := { foreman with packets := { live.packets with live := [(4, { packet77 .running with hdr := { opcode := 0x0101, flags := 2 }, param := le 2 1 })] }, const := { foreman.const with scatters := [(4, { packet := 4, shards := [⟨2, 63, 8, 9⟩, ⟨63, 0xFF, 10, 0⟩], runner := [(0, 2), (1, 63)], results := [⟨0, [⟨0, 0x3F800000, 5, 0, true⟩], 1, 1, false, .done, 0⟩] })] } }

/-- The list of shard 1. -/
def shard1 (st : AnsStatus) : ShardResult := ⟨1, [⟨1, 0x3F000000, 6, 0, true⟩], 1, 1, false, st, 0⟩

theorem witness_Shards_result : (tget? scattered.const.scatters (257 / 64)).isSome = true ∧ (scattered.packet? (257 / 64)).map (·.phase) = some .running ∧ (shard1 .done).shard = 257 % 64 ∧ scattered.global.mfault = false ∧ scattered.powered 4 = true ∧ (scattered.packet? 4).map Packet.inRun = some true ∧ (shard1 .failedPoison).status ≠ .done := by decide +kernel
-- R469: the nearer entry leads, so K = 1 keeps ID 6.
theorem test_merge : ((after (execResult 0 257 (shard1 .done) false scattered)).packet? 4).map (fun p => (p.phase, p.payload.take 8)) = some (.finished, le 8 6) := by decide +kernel
theorem test_merge_failed : ((after (execResult 0 257 (shard1 .failedPoison) false scattered)).packet? 4).map (fun p => (p.phase, p.status, p.payload)) = some (.finished, .failedPoison, []) := by decide +kernel

/-- A sub-packet of member 1 for shard 3. -/
def sub3 : SubPacket := { member := 1, tag := 259, shard := 3, tenant := 5, frame := 10, hdr := {}, param := [] }

theorem witness_Shards_sub : (memberOf { role := .hewer, member := 2 }).const.subs.length < 4096 ∧ (memberOf { role := .hewer, member := 2 }).const.role ≠ .none ∧ sub3.member ≠ 2 ∧ sub3.member = 1 ∧ 4096 ≤ (List.replicate 4096 sub3).length := by decide +kernel
theorem test_sub_cancel : (after (execSubpacketCancel 0 1 259 (after (execSubpacket 0 sub3 (memberOf { role := .hewer, member := 2 }))))).const.subs = [] ∧ (after (execSubpacket 0 sub3 (memberOf { role := .hewer, member := 2 }))).const.subs = [sub3] := by decide +kernel
theorem witness_Shards_lost : 2 ∈ foreman.const.members ∧ 2 ∉ foreman.const.lost ∧ 2 ≠ foreman.const.member ∧ foreman.const.scatters = [] ∧ scattered.const.scatters.map (·.1) = [4] ∧ tgetD [(0, 2), (1, 63)] 1 0xFF = 63 ∧ (63 : Nat) ∉ foreman.const.lost ∧ 5 ∉ foreman.const.members := by decide +kernel
-- R471: the only copy of shard 1 is lost with member 63, so the answer is partial; shard 0 is in already.
theorem test_member_lost : (((after (execMemberLost 0 63 scattered)).packet? 4).map (fun p => (p.phase, p.partialAns))) = some (.finished, true) := by decide +kernel
theorem witness_Shards_deputy : ({ memberOf { role := .hewer, member := 2, foreman := 1, deputy := true } with pair := { live.pair with state := .solo } } : State).const.deputy = true ∧ ({ live with pair := { live.pair with state := .solo } } : State).pair.state = .solo ∧ foreman.const.role ≠ .hewer := by decide +kernel
theorem test_deputy : (after (execForemanChanged 0 [] { memberOf { role := .hewer, member := 2, foreman := 1, deputy := true } with pair := { live.pair with state := .solo } })).const.role = .foreman := by decide +kernel
-- R435: the header of a message gives its length, its member and its tag.
theorem test_wire_message : ((withPort 1 { state := .up }).takeFlit 1 0 true true (padTo 256 ([2, 3, 1, 0] ++ le 4 16 ++ le 8 9)) 0).fabric.received.map (fun m => (m.dst, m.src, m.tag, m.body.length)) = [(2, 3, 9, 0)] := by decide +kernel

/-! ### The binary pair -/

/-- The live state with a pair, of identity 9, side A unless `side`, its binary port 10 as given. -/
def paired (p : Pair) (side : Bool := false) (link : LinkState := .up) : State := { withPort 10 { state := link } with pair := { p with id := { pairId := 9, side := side, twinKey := [1] } } }

theorem witness_PairStates_join : isBinary 10 = true ∧ ((paired {} false .down).port 10).state ≠ .up ∧ (paired {} false .down).portServes 10 = true ∧ ([1] = (paired {}).pair.id.twinKey ∧ 9 = (paired {}).pair.id.pairId ∧ true ≠ (paired {}).pair.id.side ∧ 9 ≠ 0) ∧ (paired {}).pair.fresh = false ∧ (paired {}).pair.sanitized = false ∧ (paired {}).pair.solo = false ∧ (paired { dirty := [7] }).pair.solo = true ∧ (paired { fresh := true }).pair.fresh = true := by decide +kernel
-- R447, Table Pair 5: no solo changes on either side are PAIRED, on both CONFLICT, here alone RESYNC as source.
theorem test_join : (after (execBinaryPortLinkUp 0 10 true [1] true 9 true 1 false false [] [] (paired { state := .waiting } false .down))).pair.state = .paired ∧ (after (execBinaryPortLinkUp 0 10 true [1] true 9 true 1 true false [] [] (paired { state := .solo, dirty := [7] } false .down))).pair.state = .conflict := by decide +kernel
theorem test_join_stranger : ((after (execBinaryPortLinkUp 0 10 true [1] true 9 false 1 false false [] [] (paired { state := .waiting } false .down))).port 10).secured = false ∧ (after (execBinaryPortLinkUp 0 10 true [1] true 9 false 1 false false [] [] (paired { state := .waiting } false .down))).pair.state = .waiting := by decide +kernel
theorem witness_PairStates_detect : (true : Bool) ≠ (paired {}).pair.detectIn ∧ (paired {} false .down).binaryDown = true ∧ (paired {}).binaryDown = false ∧ (paired { notice := some 1 }).pair.notice.isSome = true := by decide +kernel
theorem test_detect : (after (execPairDetectChange 0 5000 true (paired {}))).pair.detectIn = true ∧ (after (execPairDetectChange 0 4999 true (paired {}))).pair.detectIn = false := by decide +kernel

/-- A record of the twin that may be taken over. -/
def twinRecord (ph : Phase) : Packet := { packet77 ph with hdr := { packetId := 77, flags := 4 } }

/-- The twin of a PAIRED module is lost, with one record of its own here. -/
def twinGone : State := { paired { state := .paired } false .down with packets := { live.packets with nextKey := 9, twin := [(4, twinRecord .received)] } }

theorem witness_PairStates_lost : twinGone.pair.detectIn = false ∧ twinGone.binaryDown = true ∧ twinGone.pair.state = .paired ∧ twinGone.packets.twin = [(4, twinRecord .received)] ∧ bitAt (twinRecord .received).hdr.flags 2 = true ∧ (twinRecord .received).phase ≠ .answered ∧ (paired { state := .resync, isSource := true }).pair.isSource = true := by decide +kernel
theorem test_takeover : (after (execPairLost 0 twinGone)).pair.state = .solo ∧ (after (execPairLost 0 twinGone)).packets.live.map (fun x => (x.1, x.2.takenOver)) = [(9, true)] := by decide +kernel
theorem witness_PairStates_partition : (paired { state := .paired, detectIn := true, partitionFrames := 2 } true .down).binaryDown = true ∧ (paired { state := .paired, detectIn := true, partitionFrames := 2 } true .down).pair.id.side = true ∧ (packet77 .received).inRun = false := by decide +kernel
theorem test_partition : (after (execPairPartition 0 (paired { state := .paired, detectIn := true, partitionFrames := 2 } true .down))).pair.state = .fenced ∧ (after (execPairPartition 0 (paired { state := .paired, detectIn := true, partitionFrames := 2 } false .down))).pair.state = .solo := by decide +kernel
theorem witness_PairStates_wait : (paired { state := .waiting }).pair.auth = false ∧ (paired { state := .waiting }).pair.waitingSince + 30000000000 ≤ max live.now 30000000000 ∧ max live.now 29999999999 < 30000000000 := by decide +kernel
theorem test_wait : (after (execPairWaitExpiry 30000000000 (paired { state := .waiting, detectIn := true } true))).pair.state = .fenced ∧ (after (execPairWaitExpiry 30000000000 (paired { state := .waiting } true))).pair.state = .solo := by decide +kernel

/-- The twins are authenticated, in a state; namespace 8 is a pair namespace, object 6 exists and packet 4 runs. -/
def twins (p : Pair) (side : Bool := false) : State := { paired { p with auth := true } side with link := { live.link with namespaces := [(8, { space8 with pair := true })] }, objects := { live.objects with live := [(6, buffer6)] }, packets := { live.packets with live := [(4, packet77 .running)] } }

theorem witness_PairTraffic_live : (twins { state := .paired }).binaryLive = true ∧ (twins { state := .paired }).mirrors = true ∧ (twins { state := .paired }).packets.twin.length < 16384 ∧ (twins { state := .paired }).packet? 4 = some (packet77 .running) ∧ (twins { state := .paired }).pair.id.side = false ∧ (paired {}).binaryLive = false ∧ (twins {} true).pair.id.side = true ∧ (twins { state := .unpaired }).mirrors = false := by decide +kernel
theorem witness_PairTraffic_write : (tget? (twins { state := .paired }).link.namespaces 8).isSome = true ∧ tgetD (twins { state := .paired }).pair.applied (8 * 2 ^ 48 + 3) 0 ≤ 0 ∧ 5 < tgetD (twins { state := .paired, applied := [(8 * 2 ^ 48 + 3, 6)] }).pair.applied (8 * 2 ^ 48 + 3) 0 ∧ tget? (twins {}).objects.live (buffer6.handle % 2 ^ 48) = some buffer6 ∧ (twins {}).readersOf buffer6.handle 9 = [] := by decide +kernel
-- R443: a later number has changed the block already, so number 5 leaves it and number 6 changes it.
theorem test_mirror_order : ((tget? (after (execMirrorWriteReceived 0 5 (.write 8 3 [some (.data [9] [])] false) (twins { state := .paired, applied := [(8 * 2 ^ 48 + 3, 6)] }))).link.namespaces 8).map (fun n => (n.cut, (tget? n.blocks 3).isSome))) = some (5, false) ∧ ((tget? (after (execMirrorWriteReceived 0 6 (.write 8 3 [some (.data [9] [])] false) (twins { state := .paired, applied := [(8 * 2 ^ 48 + 3, 6)] }))).link.namespaces 8).map (fun n => (n.cut, (tget? n.blocks 3).isSome))) = some (6, true) := by decide +kernel
theorem test_mirror_remove : (after (execMirrorWriteReceived 0 1 (.remove buffer6.handle) (twins { state := .paired }))).objects.live = [] := by decide +kernel
theorem test_sequence : (after (execPairSequenceRequest 0 3 (twins { state := .paired, nextSeq := 17 }))).pair.nextSeq = 18 ∧ (after (execPairSequenceRequest 0 3 (twins { state := .paired, nextSeq := 17 }))).fabric.sent.map (fun m => m.body) = [le 8 17] := by decide +kernel
theorem witness_PairTraffic_copy : 6 ∈ (twins { resyncObjects := [6] }).pair.resyncObjects ∧ (twins { state := .resync, isSource := true, resyncLeft := [7] }).pair.isSource = true ∧ 7 ∈ (twins { state := .resync, isSource := true, resyncLeft := [7] }).pair.resyncLeft ∧ 8 ∉ (twins { state := .resync, isSource := true, resyncLeft := [7] }).pair.resyncLeft ∧ (twins { state := .resync }).pair.isSource = false := by decide +kernel
theorem test_resync_done : (after (execResyncDone 0 (twins { state := .resync, dirty := [7] }))).pair.state = .paired ∧ (after (execResyncDone 0 (twins { state := .resync, dirty := [7] }))).pair.dirty = [] ∧ (after (execResyncDone 0 (twins { state := .resync, isSource := true, resyncLeft := [7] }))).pair.state = .resync := by decide +kernel

theorem witness_PairCommands_takes : (twins { state := .paired }).takes sqe0 = true ∧ sqe0.fn = 0 ∧ sqe0.d10.toNat % 256 = 0 ∧ ({ sqe0 with d10 := 9 } : Sqe).d10.toNat % 256 ≠ 0 := by decide +kernel
theorem witness_PairCommands_bind : (paired {}).pair.auth = false ∧ (paired {}).pair.has = true ∧ live.pair.has = false ∧ live.almanac.exhausted 3 = false := by decide +kernel

/-- A pair record is staged with confirmation code 5. -/
def stagedPair : State := { live with almanac := { live.almanac with staged := some { record := 3, data := pairRecord 9 true [1], boot := 0, code := 5, firmware := true, atNs := 0 } } }

theorem witness_PairCommands_commit : stagedPair.almanac.staged.map (fun b => (b.firmware, b.record, b.code)) = some (true, 3, ({ sqe0 with d11 := 5 } : Sqe).d11.toNat) ∧ stagedPair.almanac.exhausted 3 = false ∧ stagedPair.almanac.usedCount 3 < 4 ∧ (List.range 4).all (fun g => (stagedPair.almanac.gen 3 g).used == decide (g < stagedPair.almanac.usedCount 3)) = true ∧ stagedPair.takes { sqe0 with d11 := 5 } = true := by decide +kernel
theorem test_bind_commit : ((after (execBindCommit { sqe0 with d11 := 5 } none stagedPair)).pair.id.pairId, (after (execBindCommit { sqe0 with d11 := 5 } none stagedPair)).pair.state) = (9, .waiting) := by decide +kernel
theorem witness_PairCommands_unbind : ({ sqe0 with d11 := 0x5A5A0C7F } : Sqe).d11.toNat = 0x5A5A0C7F ∧ (paired { state := .solo }).pair.state ≠ .paired ∧ (paired { state := .paired }).pair.state = .paired := by decide +kernel
theorem witness_PairCommands_split : (paired { state := .fenced }).pair.state = .fenced ∧ ((paired { state := .paired }).packets.twin = [] ∧ (paired { state := .paired }).packets.live = []) ∧ ({ sqe0 with d11 := 1 } : Sqe).d11.toNat % 2 ≠ 0 ∧ (paired { state := .resync } false .down).binaryDown = true ∧ ({ paired { state := .paired } with packets := twinGone.packets } : State).packets.twin ≠ [] := by decide +kernel
theorem test_split : (after (execSplit sqe0 (paired { state := .paired }))).pair.state = .solo ∧ (after (execSplit { sqe0 with d11 := 1 } (paired { state := .paired }))).pair.state = .split := by decide +kernel
theorem test_rejoin : (after (execRejoin sqe0 (paired { state := .conflict, dirty := [7], twinDirty := [8] }))).pair.resyncLeft = [7, 8] ∧ (after (execRejoin { sqe0 with d11 := 1 } (paired { state := .conflict, dirty := [7] }))).pair.isSource = false := by decide +kernel
theorem witness_PairCommands_cq : 63 < ({ sqe0 with d11 := 64 } : Sqe).d11.toNat % 65536 ∧ ({ sqe0 with d11 := 0x20005 } : Sqe).d11.toNat / 65536 = 2 ∧ (tget? ((visible5 true []).ctrl 5).cqs 1).isSome = true ∧ (∃ e ∈ ((visible5 true []).ctrl 5).sqs, e.2.cqid = 1) ∧ (tget? ((fullQueue none).ctrl 5).cqs 1).isSome = true ∧ ((fullQueue none).ctrl 5).sqs = [] := by decide +kernel
theorem test_takeover_cq : ((after (execTakeoverCq { sqe0 with d11 := 0x20005 } { live with link := { live.link with controllers := [(0, { enabled := true, ready := true }), (5, { cqs := [(2, {})] })] } })).ctrl 5).takeoverCq = some 2 := by decide +kernel
theorem witness_PairCommands_mask : (BitVec.ofNat 64 (leAt (le 8 0x20) 0 8)).getLsbD (handleTenant buffer6.handle) = true ∧ (twins { state := .paired }).pair.mask.getLsbD (handleTenant buffer6.handle) = false ∧ (6, buffer6) ∈ (twins { state := .paired }).objects.live := by decide +kernel
theorem test_mirror_mask : (after (execMirrorMask { sqe0 with data := le 8 0x20 } (twins { state := .paired }))).pair.toCopy = [6] := by decide +kernel
theorem witness_PairCommands_role : foreman.const.formed = true ∧ live.const.formed = false ∧ ({ sqe0 with d11 := 0x3F0702 } : Sqe).d11.toNat % 4 ≤ 2 ∧ ({ sqe0 with d11 := 0x3F0702 } : Sqe).d11.toNat / 65536 % 256 ≤ 63 ∧ 63 < ({ sqe0 with d11 := 0x400001 } : Sqe).d11.toNat / 65536 % 256 := by decide +kernel
theorem test_role : ((after (execRole { sqe0 with d11 := 0x3F0702 } live)).const.id, (after (execRole { sqe0 with d11 := 0x3F0702 } live)).const.member) = (7, 63) := by decide +kernel

/-- SPAN SET of one shard on member 2, without a second copy, for buffer 6 of tenant 5. -/
def span1 : Sqe := { sqe0 with data := le 8 buffer6.handle ++ [5, 1] ++ List.replicate 22 0 ++ ([2, 0xFF] ++ List.replicate 6 0 ++ le 8 8 ++ le 8 0 ++ List.replicate 8 0) }

theorem witness_PairCommands_span : 0 < leAt span1.data 9 1 ∧ leAt span1.data 9 1 ≤ 64 ∧ leAt span1.data 0 8 = buffer6.handle ∧ handleTenant buffer6.handle = leAt span1.data 8 1 % 64 ∧ buffer6.dead = false ∧ foreman.const.spans.length < 1024 ∧ foreman.const.role = .foreman ∧ live.const.role ≠ .foreman ∧ 64 < leAt ((span1.data.take 9) ++ [65]) 9 1 := by decide +kernel
theorem test_span : ((tget? (after (execSpanSet span1 { foreman with objects := { live.objects with live := [(6, buffer6)] } })).const.spans buffer6.handle).map (fun x => x.shards.length)) = some 1 := by decide +kernel

/-! ### Controllers, resets and shutdowns -/

/-- The live state with a finished packet of VF 5 and one of VF 6, which is open too. -/
def two56 : State := { live with link := { live.link with vfEnabled := [5, 6], controllers := [(0, { enabled := true, ready := true }), (5, { enabled := true, ready := true, sqs := [(1, {})] }), (6, { enabled := true, ready := true })] }, packets := { live.packets with live := [(4, packet77 .running), (8, { packet77 .received with key := 8, fn := 6, tenant := 6 })], aborts := [{ fn := 5, sqid := 1, cid := 3, packet := 4 }] } }

theorem witness_ControllerResets_enable : two56.power.off = false ∧ two56.power.lossDeclared = none ∧ ({ two56 with link := { two56.link with controllers := [] } } : State).link.up = true ∧ (({ two56 with link := { two56.link with controllers := [] } } : State).ctrl 5).enabled = false ∧ 5 ∈ two56.link.vfEnabled ∧ live.done .ready = true ∧ live.startup.noSlot = false ∧ live.power.lantern = .none ∧ 63 ∉ two56.link.vfEnabled ∧ up.link.up = false := by decide +kernel
-- R119: CC.MPS 4 is a page of 64 KiB.
theorem test_enable : ((after (execControllerEnable 0 5 4 [(1, 2)] [(2, 16)] { two56 with link := { two56.link with controllers := [] } })).ctrl 5).pageBits = 16 ∧ (after (execControllerEnable 0 5 4 [(1, 2)] [(2, 16)] { two56 with link := { two56.link with controllers := [] } })).fetches 5 = true ∧ ((after (execControllerEnable 0 5 5 [] [] { two56 with link := { two56.link with controllers := [] } })).ctrl 5).enabled = false := by decide +kernel
theorem witness_ControllerResets_reset : (two56.ctrl 5).enabled = true ∧ (packet77 .running).takenOver = false ∧ (packet77 .running).sub = false ∧ (packet77 .running).open_ = true ∧ (two56.packets.live.map (·.1)).Nodup ∧ two56.packets.live.all (fun e => !e.2.overdue two56.meridian.frame) = true ∧ two56.link.up = true ∧ (State.reset.ctrl 5).enabled = false ∧ ({ live with flash := { live.flash with hostOwns := true } } : State).flash.hostOwns = true := by decide +kernel
-- R139: the packets of VF 5 end, those of VF 6 stay; R140: a function level reset of the PF takes all of them.
theorem test_level_reset : (after (execControllerLevelReset 0 5 two56)).packets.live.map (·.1) = [8] ∧ (after (execControllerLevelReset 0 5 two56)).packets.aborts = [] ∧ (after (execControllerLevelReset 0 5 two56)).fetches 5 = false := by decide +kernel
theorem test_function_reset_pf : (after (execFunctionLevelReset 0 0 two56)).packets.live = [] ∧ (after (execFunctionLevelReset 0 0 two56)).link.vfEnabled = [] := by decide +kernel
theorem test_vf_enable : (after (execVfEnable 0 5 two56)).link.vfEnabled = [1, 2, 3, 4, 5] ∧ (after (execVfEnable 0 5 two56)).packets.live.map (·.1) = [4] ∧ (after (execVfEnable 0 64 two56)).link.vfEnabled = [5, 6] := by decide +kernel
theorem test_link_down : (after (execSurpriseLinkDown 0 two56)).link.up = false ∧ (after (execSurpriseLinkDown 0 two56)).packets.live = [] := by decide +kernel

theorem witness_ShutdownsAndLinkIntegrity_shut : (two56.ctrl 5).shst ≠ 2 ∧ two56.global.mfault = false ∧ two56.shutWaits 5 = true ∧ live.shutWaits 5 = false ∧ live.shutWaits 0 = false ∧ two56.startup.shutdowns.contains 5 = false ∧ (live.ctrl 0).enabled = true ∧ (up.ctrl 6).enabled = false := by decide +kernel
theorem test_shutdown : ((after (execNormalShutdown 0 5 two56)).ctrl 5).shst = 1 ∧ ((after (execNormalShutdown 0 5 live)).ctrl 5).shst = 2 ∧ ((after (execAbruptShutdown 0 5 two56)).ctrl 5).shst = 2 := by decide +kernel
theorem witness_ShutdownsAndLinkIntegrity_cold : live.takes { sqe0 with d11 := 0x5A5A0C9D } = true ∧ ({ sqe0 with d11 := 0x5A5A0C9D } : Sqe).d11.toNat = 0x5A5A0C9D ∧ live.done .d0 = true ∧ live.power.lantern = .none ∧ State.reset.done .d0 = false := by decide +kernel
-- R517, R518: frame numbers and powered time start again, and D0 kept its power.
theorem test_cold_reset : (after (execColdReset { sqe0 with d11 := 0x5A5A0C9D } two56)).meridian.frame = 0 ∧ (after (execColdReset { sqe0 with d11 := 0x5A5A0C9D } two56)).packets.live = [] ∧ (after (execColdReset { sqe0 with d11 := 0x5A5A0C9D } two56)).power.off = false := by decide +kernel
theorem test_subsystem_reset_loss : (after (execNvmSubsystemReset 0 { delta := true, complete := false, programmed := [] } { live with global := { live.global with mfault := true } })).startup.clean = false ∧ (after (execNvmSubsystemReset 0 { delta := true, complete := false, programmed := [] } live)).startup.clean = true := by decide +kernel

/-- The link stream is secure, a session runs on DOE and key set 1 is programmed whole. -/
def secureLink : State := { two56 with link := { two56.link with ideSecure := true, ideKeys := [6, 7, 8, 9, 10, 11] }, manage := { live.manage with sessions := [(0, 1)] } }

theorem witness_ShutdownsAndLinkIntegrity_ide : secureLink.link.ideSecure = true ∧ live.link.ideSecure = false ∧ tgetD secureLink.manage.sessions 0 0 ≠ 0 ∧ (∀ k ∈ ideSlots 1, k ∈ secureLink.link.ideKeys) ∧ (∃ k ∈ ideSlots 0, k ∉ secureLink.link.ideKeys) ∧ live.fetches sqe0.fn = true ∧ tgetD live.manage.sessions 0 0 = 0 := by decide +kernel
theorem test_ide : (after (execIdeKm 0 4 0 { secureLink with link := { secureLink.link with ideSecure := false } })).link.ideSecure = false ∧ (after (execIdeKm 0 4 1 { secureLink with link := { secureLink.link with ideSecure := false } })).link.ideSecure = true ∧ (after (execIdeKm 0 5 1 secureLink)).link.ideKeys = [] := by decide +kernel
theorem test_ide_failure : (after (execIdeFailure 0 [4] secureLink)).packets.live.map (·.1) = [8] ∧ (after (execIdeFailure 0 [4] secureLink)).link.ideSecure = false := by decide +kernel

/-! ### Memory namespaces, programs, the Cage and the stewards -/

/-- The buffer of tenant 5, of which one unit has been written. -/
def written6 : Object := { buffer6 with units := [1], bytes := [(64, 7)] }

/-- VF 5 has a set that covers the buffer, the PF one of the Tailings ring; both lodes of the buffer are resident. -/
def ranged : State := { live with objects := { live.objects with live := [(6, written6)] }, cage := ({ live.cage with map := [(900000, { wlode := 0, state := .resident, cls := .paged, tenant := 5 }), (900001, { wlode := 1, state := .resident, cls := .paged, tenant := 5 })] } : Cage).chainIn 900000 0 |>.chainIn 900001 1, link := { live.link with controllers := [(0, { enabled := true, ready := true }), (5, { enabled := true, ready := true, sqs := [(1, { cqid := 1 })], cqs := [(1, { depth := 4 })] })], compute := [(0, { rangeSets := [(1, [⟨ringHandle, 0, 65536⟩])] }), (5, { rangeSets := [(1, [⟨buffer6.handle, 0, 131072⟩])] })] } }

/-- The same with neither lode in Tier H. -/
def unloaded : State := { ranged with cage := live.cage }

theorem witness_MemoryNamespaces_sets : ranged.takes sqe5 = true ∧ ranged.rangeOk 5 ⟨buffer6.handle, 0, 64⟩ = true ∧ ranged.rangeOk 5 ⟨ringHandle, 0, 64⟩ = false ∧ (ranged.computeOf 5).rangeSets.length < 16 ∧ 16 ≤ ({ rangeSets := (List.range 16).map (fun k => (k + 1, [])) } : ComputeNs).rangeSets.length ∧ (tget? (ranged.computeOf 5).rangeSets 1).isSome = true ∧ (tget? (ranged.computeOf 5).rangeSets 2).isSome = false := by decide +kernel
theorem witness_MemoryNamespaces_read : ranged.placeOk 5 1 ⟨written6.handle, 64, 64⟩ = true ∧ ranged.placeOk 5 1 ⟨written6.handle, 131072, 64⟩ = false ∧ written6.handle ≠ ringHandle ∧ ranged.objects.named written6.handle = some written6 ∧ ranged.cage.allResident (written6.wlodes 64 64) = true ∧ unloaded.cage.allResident (written6.wlodes 64 64) = false ∧ unloaded.placeOk 5 1 ⟨written6.handle, 64, 64⟩ = true ∧ unloaded.objects.named written6.handle = some written6 := by decide +kernel
theorem witness_MemoryNamespaces_units : (((ranged.at sqe5.t).wantLodes written6 64 64).snoopObject written6 64 64).badUnits written6 64 64 = [] ∧ (((ranged.at sqe5.t).wantLodes written6 0 128).snoopObject written6 0 128).badUnits written6 0 128 = [0] ∧ ranged.placeOk 5 1 ⟨written6.handle, 0, 128⟩ = true ∧ written6.body = .buffer ∧ written6.zeroed = false ∧ 63 < 128 ∧ (0 + 63) / 64 ∉ written6.units := by decide +kernel
theorem witness_MemoryNamespaces_ring : ranged.takes sqe0 = true ∧ ranged.placeOk 0 1 ⟨ringHandle, 0, 64⟩ = true := by decide +kernel
-- R137: a unit never written is sent as zeros, and the read then fails.
theorem test_memory_read : answered5 (execMemoryRead sqe5 1 written6.handle 64 64 ranged) = [.success] ∧ answered5 (execMemoryRead sqe5 1 written6.handle 0 128 ranged) = [.unrecoveredRead] ∧ answered5 (execMemoryRead sqe5 1 written6.handle 32 64 ranged) = [.invalidField] := by decide +kernel

/-- A write of one unit of sevens. -/
def sevens : Sqe := { sqe5 with data := List.replicate 64 7 }

theorem witness_MemoryNamespaces_write : ranged.takes sevens = true ∧ written6.frozen = false ∧ ranged.placeOk 5 1 ⟨written6.handle, 128, 64⟩ = true ∧ sevens.data.length = 64 ∧ written6.changingBy = none ∧ written6.deletingBy = none ∧ ranged.media.wp = false ∧ ranged.cage.allResident (written6.wlodes 128 64) = true ∧ unloaded.cage.allResident (written6.wlodes 128 64) = false ∧ (ranged.at sevens.t).mirrorReady written6.handle false = true ∧ cellsWf written6.bytes = true := by decide +kernel
theorem witness_MemoryNamespaces_busy : ({ written6 with changingBy := some 4 } : Object).changingBy.isSome = true ∧ ({ ranged with objects := { ranged.objects with live := [(6, { written6 with changingBy := some 4 })] } } : State).objects.named written6.handle = some { written6 with changingBy := some 4 } ∧ ({ ranged with objects := { ranged.objects with live := [(6, { written6 with changingBy := some 4 })] } } : State).placeOk 5 1 ⟨written6.handle, 128, 64⟩ = true := by decide +kernel
theorem test_memory_write : ((tget? (after (execMemoryWrite sevens 1 written6.handle 128 [] [] false ranged)).objects.live 6).map (fun o => (o.version, cget o.bytes 191, cget o.bytes 64, cget o.bytes 192))) = some (4, 7, 7, 0) := by decide +kernel

/-- A whole program (R286): its header, one entry for one core and one bundle, and 64 bytes of code at offset 128. -/
def program192 : List Byte := [1, 1, 0, 0] ++ le 4 128 ++ le 4 64 ++ List.replicate 52 0 ++ (le 4 0 ++ le 4 1 ++ le 4 0 ++ le 4 1) ++ List.replicate 112 0

/-- An object that holds it. -/
def program6 : Object := { program1 with size := 192, zeroed := false, bytes := csetBytes [] 0 program192, units := [0, 1, 2] }

/-- Slot 63 of VF 5 holds the program object 6; `act` says that it is active. -/
def slotted (act : Bool) : State := { ranged with objects := { live.objects with nextNumber := 7, live := [(6, program6)] }, link := { ranged.link with compute := [(5, { slots := [(63, { handle := program6.handle, active := act })] })] } }

/-- A run of it is not answered. -/
def slotRuns : State := { slotted true with packets := { live.packets with live := [(4, { packet77 .running with hdr := { packetId := 77, primary := program6.handle }, viaExecute := true })] } }

theorem witness_ProgramSlots_load : (slotted false).takes { sqe5 with data := program192 } = true ∧ tget? ((slotted false).computeOf 5).slots 62 = none ∧ program192.length ≤ 1572864 ∧ programOk program192 program192.length = true ∧ (((slotted false).at sqe5.t).programObject 5 program192).map (fun o => (o.cls, ((slotted false).at sqe5.t).mirrorReady o.handle false, (tget? (slotted false).objects.live (objNumber o.handle)).isNone)) = some (.paged, true, true) := by decide +kernel
theorem witness_ProgramSlots_slot : tget? ((slotted false).computeOf 5).slots 63 = some { handle := program6.handle, active := false } ∧ (slotted false).programRuns 5 program6.handle = false ∧ tget? (slotRuns.computeOf 5).slots 63 = some { handle := program6.handle, active := true } ∧ slotRuns.programRuns 5 program6.handle = true ∧ slotRuns.takes sqe5 = true := by decide +kernel
theorem witness_ProgramSlots_execute : (slotted true).takes sqe5 = true ∧ (match ((slotted true).at sqe5.t).validate 5 { opcode := 0x0601, version := 1, packetId := ((slotted true).at sqe5.t).spareId 5, paramAddr := 4096, paramLen := 32, answerLen := 0, primary := program6.handle, secondary := 0 } [] (some (le 2 0 ++ le 2 1 ++ le 4 0 ++ le 8 0 ++ le 8 0 ++ le 8 0 ++ [])) 4096 with | .ok d => d.length == 32 | .error _ => false) = true := by decide +kernel
theorem test_slots : answered5 (execProgramActivationManagement sqe5 63 true (slotted false)) = [.success] ∧ answered5 (execProgramActivationManagement sqe5 62 true (slotted false)) = [.invalidField] ∧ answered5 (execProgramActivationManagement sqe5 63 false slotRuns) = [] := by decide +kernel

/-- Tier H is prepared; lode 900,000 has the entry `e`, which chain 0 holds where `chained` says so. -/
def caged (e : LodeEntry) (chained : Bool) : State := let c : Cage := { live.cage with prepared := true, map := [(900000, e)], quotas := [(5, 3)], quotaPending := [(5, (1, 9)), (6, (2, 10))] }; { live with cage := if chained then c.chainIn 900000 0 else c, objects := { live.objects with live := [(6, buffer6)] } }

theorem witness_CageChanges_pageIn : (caged { state := .scrubbed } false).cage.prepared = true ∧ 900000 < tierHLodes ∧ (caged { state := .scrubbed } false).cage.isCheck 900000 = false ∧ (caged { state := .scrubbed } false).cage.find 0 = none ∧ (caged { state := .scrubbed } false).objectAt 0 = some buffer6 ∧ fillState buffer6 0 .scrubbed = true ∧ buffer6.lodeClass 0 = .paged ∧ (caged { state := .scrubbed } false).charge 5 < (caged { state := .scrubbed } false).quota 5 := by decide +kernel
theorem witness_CageChanges_fill : (caged { state := .transit } true).cage.find 0 = some 900000 ∧ ((caged { state := .transit } true).cage.entry 900000).state = .transit ∧ (caged { state := .transit } true).objectAt 0 = some buffer6 ∧ ({ caged { state := .transit } true with objects := live.objects } : State).objectAt 0 = none ∧ ({ state := .transit, cls := .paged, tenant := 5 } : LodeEntry).clock = some 5 := by decide +kernel
theorem witness_CageChanges_scrub : ((caged {} false).cage.entry 900000).state = .dirty ∧ (∀ r ∈ (caged {} false).cage.retained, r.1 ≠ 900000) := by decide +kernel
theorem witness_CageChanges_hold : (caged { state := .resident, hold := some 9 } true).cage.find 0 = some 900000 ∧ ((caged { state := .resident, hold := some 9 } true).cage.entry 900000).hold = some 9 ∧ 9 < live.meridian.frame ∧ ((caged { state := .resident, hold := some 10 } true).cage.entry 900000).hold = some 10 ∧ live.meridian.frame ≤ 10 := by decide +kernel
theorem witness_CageChanges_quota : tget? (caged {} false).cage.quotaPending 5 = some (1, 9) ∧ 9 < live.meridian.frame ∧ tget? (caged {} false).cage.quotaPending 6 = some (2, 10) := by decide +kernel
theorem witness_CageChanges_error : 900000 = (900000 * 65536 + 65535) / lodeBytes ∧ ((caged { state := .resident, cls := .hot } true).cage.entry 900000).state = .resident ∧ ((caged { state := .resident, cls := .hot } true).cage.entry 900000).dirty = false ∧ ({ state := .resident, cls := .hot } : LodeEntry).reservedClass = true ∧ ((caged { state := .scrubbed } false).cage.entry 900000).state ≠ .resident ∧ (caged { state := .scrubbed } false).jobOfLode 900000 = none := by decide +kernel
-- R333: the fill of a lode of tenant 5 makes it resident; R329: a hold through frame 9 is over in frame 10.
theorem test_cage : ((after (execPageInComplete 0 0 (caged { state := .transit } true))).cage.entry 900000).state = .resident ∧ ((after (execHoldEnd 0 0 (caged { state := .resident, hold := some 9 } true))).cage.entry 900000).hold = none ∧ (after (execQuotaEffect 0 5 (caged {} false))).quota 5 = 1 ∧ (after (execQuotaEffect 0 6 (caged {} false))).quota 6 = 0 := by decide +kernel
theorem test_hecc : (after (execHeccUncorrectable 0 (900000 * 65536 + 64) true none (caged { state := .resident, cls := .hot } true))).cage.wanted = [0] ∧ (after (execHeccUncorrectable 0 (900000 * 65536 + 64) true none (caged { state := .scrubbed } false))).coherence.hPoison = [921600001] := by decide +kernel

-- R313: the first and the last address of each tier, and the holes between them.
theorem test_tiers : [0, 0x5FFFFFFFFF, 0x6000000000, 0x8000000000, 0x8017FFFFFF, 0x8018000000, 0x9000000000, 0x9003FFFFFF, 0x9004000000, 0xA000000000, 0xA0FFFFFFFF, 0xA100000000, 0x8000000000000, 0x9000000000000].map tierOf = [some .h, some .h, none, some .s, some .s, none, some .c, some .c, none, some .regs, some .regs, none, some .f, none] := by decide +kernel
theorem witness_Stewards : live.coherence.copy? (0x100040 / 64) = none ∧ live.coherence.copy? (0x9000000038 / 64) = none ∧ live.coherence.lines.length < l2Lines ∧ 0x9000000038 % 64 + 8 ≤ 64 ∧ (List.range 16).all (fun m => (live.steward m).stores.isEmpty) = true ∧ ((after (execStewardStore 0 3 0x9000000038 [5, 6] live)).steward 3).stores = [{ addr := 0x9000000038, bytes := [5, 6] }] ∧ (after (execStewardStore 0 3 0x9000000038 [5, 6] live)).coherence.copy? (0x9000000038 / 64) = none := by decide +kernel
-- R354: after FENCE.SL the store is visible to another steward; R313: a load of Tier S faults.
theorem test_steward_fence : ((after (execStewardLoad 0 4 0x9000000038 3 (after (execFenceSl 0 3 (after (execStewardStore 0 3 0x9000000038 [5, 6] live)))))).steward 4).loaded = [5, 6, 0] ∧ stewardFault 0x8000000000 = some (.notReached 0x8000000000) := by decide +kernel

/-! ### The media -/

/-- Die 3 of drift 2 is `x`, with quad 8 of it `q`. -/
def died (x : Die) (q : Quad) : State := { live with media := { live.media with drifts := [(2, { dies := [(3, x)], quads := [(quadKey 3 8, q)], spares := [(12, 1), (13, 0)] })] } }

theorem witness_DieOperations_start : ((died { erased := 3, openQuads := [(8, 0)] } {}).media.drift 2).die 3 = { erased := 3, openQuads := [(8, 0)] } ∧ ({ erased := 3, openQuads := [(8, 0)] } : Die).op = none ∧ ({ erased := 3, openQuads := [(8, 0)] } : Die).critical = 0 ∧ ({ slotTimes := List.replicate 256 5 } : Die).slotTimes.length ≤ 256 ∧ 8 ∈ ({ erased := 3, openQuads := [(8, 0)] } : Die).openQuads.map (·.1) ∧ 9 ∉ ({ erased := 3, openQuads := [(8, 0)] } : Die).openQuads.map (·.1) ∧ (({} : Drift).quad 3 8).opened = false ∧ 2 < 64 ∧ 3 < 16 := by decide +kernel
theorem witness_DieOperations_busy : ({ op := some .erase } : Die).op.isSome = true ∧ ({ critical := 1 } : Die).critical ≠ 0 ∧ 256 < (({ slotTimes := List.replicate 257 5 } : Die).slotTimes.filter (fun z => decide (64000004 < z + 64000000))).length ∧ (({ slotTimes := List.replicate 257 5 } : Die).slotTimes.filter (fun z => decide (64000005 < z + 64000000))).length = 0 := by decide +kernel
-- R379: 257 slots within 64 ms hold an operation back; at 64 ms and 5 ns they are past.
theorem test_die_start : (((after (execNandOperationStart 64000005 2 3 8 true false 9 (died { slotTimes := List.replicate 257 5 } {}))).media.drift 2).die 3).op = some .erase ∧ (((after (execNandOperationStart 64000004 2 3 8 true false 9 (died { slotTimes := List.replicate 257 5 } {}))).media.drift 2).die 3).op = none := by decide +kernel
theorem witness_DieOperations_suspend : ({ op := some .program, suspensions := 7 } : Die).suspensions < DieOp.program.limit ∧ DieOp.program.limit ≤ ({ op := some .program, suspensions := 8 } : Die).suspensions ∧ ({ op := some .program, suspensions := 8 } : Die).limited = false ∧ ({ op := some .erase, suspended := true } : Die).suspended = true ∧ ({ op := some .erase, suspended := true } : Die).critical = 0 := by decide +kernel
-- R377: the ninth suspension of a program is refused and raises SUSPEND_LIMIT, 0306h.
theorem test_suspend_limit : (((after (execNandSuspend 0 2 3 1 (died { op := some .program, suspensions := 8 } {}))).media.drift 2).die 3).suspended = false ∧ (after (execNandSuspend 0 2 3 1 (died { op := some .program, suspensions := 8 } {}))).log.ring.map (·.code) = [0x0306] ∧ (((after (execNandSuspend 0 2 3 1 (died { op := some .erase, suspensions := 15 } {}))).media.drift 2).die 3).suspended = true := by decide +kernel
theorem witness_DieOperations_end : ({ op := some .program, opBlock := 8 } : Die).suspended = false ∧ ({ op := some .program, opBlock := 8 } : Die).opBlock = 8 ∧ 0 < tgetD ((died {} {}).media.drift 2).spares (3 * 4 + 0) 40 ∧ tgetD ((died {} {}).media.drift 2).spares (3 * 4 + 1) 40 = 0 := by decide +kernel
-- R392: a plane with a spare keeps its quad, one without withdraws it.
theorem test_retire : (((after (execNandOperationComplete 0 2 3 4 (some 0) [] (died { op := some .program, opBlock := 8 } {}))).media.drift 2).quad 3 8).withdrawn = false ∧ (((after (execNandOperationComplete 0 2 3 4 (some 1) [] (died { op := some .program, opBlock := 8 } {}))).media.drift 2).quad 3 8).withdrawn = true := by decide +kernel
theorem witness_DieOperations_read : 3 < 4 ∧ 4 ≤ 4 ∧ tget? stored.link.namespaces 7 = some space7 ∧ space7.lbaBytes / 4096 = 1 ∧ 12 / 1 ≠ 9 := by decide +kernel
-- R375: sector 12 of namespace 7 is its LBA 12; the read raises MEDIA_UNCORRECTABLE, 0301h.
theorem test_read_lost : (tget? (after (execNandReadComplete 0 2 3 0 8 0 0 4 false false false (.space 7 12) stored)).link.namespaces 7).bind (fun n => tget? n.blocks 12) = some .lost ∧ (tget? (after (execNandReadComplete 0 2 3 0 8 0 0 4 false false true (.space 7 12) stored)).link.namespaces 7).bind (fun n => tget? n.blocks 12) = none := by decide +kernel

/-- The live state with the media `m`. -/
def upkept (m : Media) : State := { live with media := m }

theorem witness_MediaUpkeep_checkpoint : live.media.ckptRunning = none ∧ live.media.ckptBegan + 64000000 ≤ max live.now 64000000 ∧ max live.now 63999999 < live.media.ckptBegan + 64000000 ∧ stored.media.ckptRunning = some 4 := by decide +kernel
theorem test_checkpoint : (after (execCheckpointBegin 64000000 false live)).media.ckptRunning = some 1 ∧ (after (execCheckpointBegin 63999999 false live)).media.ckptRunning = none ∧ (after (execCheckpointComplete 0 [] stored)).media.ckptDone = 4 := by decide +kernel
theorem witness_MediaUpkeep_patrol : live.media.patrolStart + live.media.patrolHours * 3600000000000 ≤ max live.now (live.media.patrolHours * 3600000000000) ∧ max live.now 0 < live.media.patrolStart + live.media.patrolHours * 3600000000000 := by decide +kernel
theorem witness_MediaUpkeep_refresh : (((died {} { decodedHigh := true, valid := 5 }).media.drift 2).quad 3 8).decodedHigh = true ∧ live.media.readLimit ≤ ({ reads := 200000 } : Quad).reads ∧ ({ reads := 199999 } : Quad).reads < live.media.readLimit ∧ ({} : Quad).writtenNs + live.media.ageDays * 86400000000000 < max live.now (45 * 86400000000000 + 1) ∧ 9 ≠ 8 ∧ ({} : Quad).decodedHigh = false := by decide +kernel
theorem test_refresh : (((after (execRefresh 0 2 3 8 9 0 none (died {} { decodedHigh := true, valid := 5 }))).media.drift 2).quad 3 9).valid = 5 ∧ (((after (execRefresh 0 2 3 8 9 1 none (died {} { valid := 5, reads := 199999 }))).media.drift 2).quad 3 9).valid = 0 ∧ (((after (execRefresh 0 2 3 8 9 1 none (died {} { valid := 5, reads := 200000 }))).media.drift 2).quad 3 9).valid = 5 := by decide +kernel
theorem witness_MediaUpkeep_victim : ((died {} { opened := true, valid := 5 }).media.drift 2).victim 3 9 = some 8 ∧ ((died {} { opened := true, valid := 5 }).media.drift 2).victim 3 8 = none := by decide +kernel
theorem witness_MediaUpkeep_bank : (upkept { live.media with holdupDegr := true }).media.holdupDegr = true ∧ live.media.holdupDegr = false ∧ (upkept { live.media with degrPending := some (2, 9) }).media.degrPending = some (2, 9) ∧ 9 < live.meridian.frame ∧ live.startup.ended.contains .ready = true ∧ live.meridian.frame ≤ 10 ∧ (upkept { live.media with holdupDegr := true, restorePending := some 9 }).media.restorePending = some 9 ∧ live.power.lossDeclared = none ∧ live.power.off = false ∧ live.media.degrPending = none ∧ 100000000 < 100000001 := by decide +kernel
-- R388: 100 percent passes, 99 does not; the voltage may be low for 100 ms.
theorem test_bank : (after (execCapTest 0 true 99 1 1 live)).media.degrPending = some (1, 10) ∧ (after (execCapTest 0 true 100 1 1 live)).media.degrPending = none ∧ (after (execBankVoltageLow 0 100000000 live)).media.degrPending = none ∧ (after (execHoldupDegraded 0 (upkept { live.media with degrPending := some (2, 9) }))).media.holdupDegr = true := by decide +kernel

/-! ### Flash and firmware -/

/-- The live state with the firmware flash `f`. -/
def flashed (f : Flash) : State := { live with power := { live.power with domains := 0xFFF }, flash := f }

/-- A flash that the host owns; slot 1 runs, so that bank 1 is the staging bank. -/
def hostFlash : Flash := { live.flash with hostOwns := true, runningSlot := 1, runningBank := 0 }

theorem witness_FlashBlock_owner : (flashed hostFlash).powered 4 = true ∧ true = hostFlash.hostOwns ∧ false ≠ hostFlash.hostOwns ∧ hostFlash.arm = 0 ∧ ({ hostFlash with arm := 1 } : Flash).arm = 1 ∧ hostFlash.arm ≠ 2 ∧ (0x5A3D : BitVec 16) ≠ 0x5A3C ∧ hostFlash.arm ≠ 1 ∧ hostFlash.staging = 1 := by decide +kernel
theorem test_flash_key : (after (execFwfKey 0 true 0xC3A5 (after (execFwfKey 0 true 0x5A3C (flashed hostFlash))))).flash.arm = 2 ∧ (after (execFwfKey 0 true 0xC3A5 (flashed hostFlash))).flash.errKey = true ∧ (after (execFwfKey 0 false 0x5A3C (flashed hostFlash))).flash.arm = 0 := by decide +kernel
theorem witness_FlashBlock_start : ({ hostFlash with arm := 2, addr := 0x17FFF00 } : Flash).arm = 2 ∧ hostFlash.busy = none ∧ hostFlash.susp = none ∧ 0x17FFF00 < areaBase ∧ 0x17FFF00 % 256 = 0 ∧ 0x17FFF01 % 256 ≠ 0 := by decide +kernel
theorem witness_FlashBlock_run : hostFlash.arm = 0 ∧ ({ hostFlash with busy := some ⟨2, 1, 0, []⟩ } : Flash).busy = some ⟨2, 1, 0, []⟩ ∧ (⟨2, 1, 0, []⟩ : FlashOp).op ≠ 3 ∧ 65536 * ({ hostFlash with win := 383 } : Flash).win + 65536 ≤ areaBase ∧ areaBase ≤ 65536 * ({ hostFlash with win := 384 } : Flash).win ∧ hostFlash.cycles = [] ∧ ({ hostFlash with susp := some ⟨2, 1, 0, []⟩ } : Flash).susp = some ⟨2, 1, 0, []⟩ ∧ hostFlash.cycles ≠ [0xAA, 0x55, 0xA0] ∧ 4 % 4 = 0 ∧ 6 % 4 ≠ 0 := by decide +kernel
-- R526: the last window below the boot area takes the host's array program, the boot area does not.
theorem test_array_program : (after (execArrayProgram 0 true 4 0x04030201 (flashed { hostFlash with win := 383 }))).flash.busy = some ⟨1, 1, 0x17F0004, [1, 2, 3, 4]⟩ ∧ (after (execArrayProgram 0 true 4 1 (flashed { hostFlash with win := 384 }))).flash.errOwn = true ∧ (after (execArrayProgram 0 true 6 1 (flashed { hostFlash with win := 383 }))).flash.errSeq = true := by decide +kernel
theorem test_array_suspend : (after (execArraySuspend 0 true 0 (flashed { hostFlash with busy := some ⟨2, 1, 0, []⟩ }))).flash.susp = some ⟨2, 1, 0, []⟩ ∧ (after (execArrayResume 0 true 0 (flashed { hostFlash with susp := some ⟨2, 1, 0, []⟩ }))).flash.busy = some ⟨2, 1, 0, []⟩ := by decide +kernel

/-- A flash that programs two bytes of bank 1 from 0x1000, where the first holds 0x0F. -/
def programming : Flash := { hostFlash with busy := some ⟨1, 1, 0x1000, [0x3C, 0x55]⟩, banks := [(1, { bytes := [(0x1000, 0xF0)], image := some {} })] }

theorem witness_FlashBlock_end : programming.busy = some ⟨1, 1, 0x1000, [0x3C, 0x55]⟩ ∧ cellsWf (programming.bank 1).bytes = true ∧ 0x1000 < areaBase ∧ hostFlash.busy = none := by decide +kernel
-- R526: 0x0F AND 0x3C is 0x0C; an erased byte takes what is written.
theorem test_flash_and : ((after (execFlashOperationEnd 0 (flashed programming))).flash.bank 1).byte 0x1000 = 0x0C ∧ ((after (execFlashOperationEnd 0 (flashed programming))).flash.bank 1).byte 0x1001 = 0x55 ∧ ((after (execFlashOperationEnd 0 (flashed programming))).flash.bank 1).image = none := by decide +kernel

/-- A flash that firmware owns; slot 1 runs. -/
def ownFlash : Flash := { hostFlash with hostOwns := false }

/-- A Firmware Image Download of 8 bytes at offset 0x17FFFF8, the end of the slot. -/
def lastDwords : Sqe := { sqe0 with d10 := 1, d11 := 0x5FFFFE, data := [1, 2, 3, 4, 5, 6, 7, 8] }

theorem witness_FirmwareImages_own : (flashed ownFlash).takes sqe0 = true ∧ sqe0.fn = 0 ∧ ownFlash.hostOwns = false ∧ (flashed ownFlash).activation.outstanding = false ∧ ownFlash.oldAreas = false ∧ hostFlash.hostOwns = true ∧ (flashed hostFlash).takes sqe0 = true ∧ ({ hostFlash with resetAsked := true } : Flash).resetAsked = true ∧ ownFlash.resetAsked = false := by decide +kernel
theorem witness_FirmwareImages_download : (flashed ownFlash).takes lastDwords = true ∧ (flashed ownFlash).manage.updating = false ∧ 4 * lastDwords.d11.toNat + (lastDwords.data.take (4 * (lastDwords.d10.toNat + 1))).length ≤ areaBase ∧ areaBase < 4 * ({ lastDwords with d11 := 0x5FFFFF } : Sqe).d11.toNat + 8 ∧ cellsWf (ownFlash.bank ownFlash.staging).bytes = true := by decide +kernel
theorem witness_FirmwareImages_commit : (flashed ownFlash).commitSlot { sqe0 with d10 := 2 } = ownFlash.stagingSlot ∧ (flashed ownFlash).commitSlot { sqe0 with d10 := 1 } ≠ ownFlash.stagingSlot ∧ (flashed ownFlash).imageOk { verifies := true } = true ∧ (flashed ownFlash).imageOk {} = false ∧ 2 < (flashed ownFlash).commitSlot { sqe0 with d10 := 3 } ∧ (flashed ownFlash).commitSlot { sqe0 with d10 := 2 } ≤ 2 := by decide +kernel
theorem test_download : ((after (execFirmwareImageDownload lastDwords true (flashed ownFlash))).flash.bank 1).byte 0x17FFFFF = 8 ∧ answered (execFirmwareImageDownload { lastDwords with d11 := 0x5FFFFF } true (flashed ownFlash)) = some (.invalidField, 0) ∧ answered (execFirmwareImageDownload lastDwords true (flashed hostFlash)) = some (.commandSequence, 0) := by decide +kernel
theorem test_commit_image : ((after (execFirmwareCommitReplaceActivateReset { sqe0 with d10 := 2 } { verifies := true } (flashed ownFlash))).flash.bank 0).bootSlot = 2 ∧ answered (execFirmwareCommitReplace { sqe0 with d10 := 1 } { verifies := true } (flashed ownFlash)) = some (.invalidSlot, 0) ∧ answered (execFirmwareCommitReplace { sqe0 with d10 := 2 } {} (flashed ownFlash)) = some (.invalidImage, 0) := by decide +kernel

/-- Slot 2 is being activated, in step `k`, since frame 9. -/
def activating (k : Nat) : State := { flashed ownFlash with activation := { step := k, sqid := 0, cid := 1, slot := 2, since := 9 } }

theorem witness_ActivationSteps : (activating 1).activation.step = 1 ∧ (activating 1).activation.since < live.meridian.frame ∧ (activating 2).activation.step = 2 ∧ (activating 2).contractedOut = false ∧ max live.now 2000000000 ≤ (activating 2).activation.t2 + 2000000000 ∧ (activating 2).activation.t2 + 2000000000 < max live.now 2000000001 ∧ (activating 4).activation.step = 4 ∧ max live.now 2000000000 ≤ (activating 4).activation.t3 + 2000000000 ∧ (activating 4).activation.t3 + 2000000000 < max live.now 2000000001 ∧ (activating 5).activation.step = 5 ∧ live.meridian.frame ≤ 10 := by decide +kernel
theorem test_activation : (after (execActivationAdmissionClose 0 (activating 1))).activation.step = 2 ∧ (after (execActivationStart 2000000000 (activating 2))).activation.step = 4 ∧ (after (execActivationStart 2000000001 (activating 2))).activation.step = 2 ∧ (after (execFwActivated 2000000000 none (activating 4))).flash.runningSlot = 2 ∧ (after (execActivationAdmissionReopen 0 (activating 5))).activation.step = 0 := by decide +kernel
-- R523: a start too late fails the Commit, an end too late is a cold reset from slot 1.
theorem test_activation_late : answered (execActivationTimeout 2000000001 (activating 2)) = some (.maxTimeViolation, 0) ∧ (after (execFwActivateFailed 2000000001 ⟨true, true, []⟩ (activating 4))).flash.runningSlot = 1 ∧ (after (execFwActivateFailed 2000000001 ⟨true, true, []⟩ (activating 4))).activation.failed = some (2, 4) := by decide +kernel

/-! ### Start-up, the supply and the sled -/

/-- Power is on; the stages `l` have ended. -/
def starting (l : List Stage) : State := { State.reset with power := { State.reset.power with off := false }, startup := { ended := l } }

theorem witness_StartUpStages_early : (starting []).power.off = false ∧ (starting []).global.mfault = false ∧ (starting []).done .d0 = false ∧ live.done .d0 = true ∧ (starting [.d0]).done .boot = false ∧ (∀ x ∈ [Stage.d0], (starting [.d0]).done x = true) ∧ (∃ x ∈ [Stage.d0], (starting []).done x = false) ∧ (starting [.d0]).imageOk { verifies := true } = true ∧ (starting [.d0]).imageOk {} = false ∧ (∀ x ∈ [Stage.boot], (starting [.d0, .boot]).done x = true) ∧ (starting [.d0, .boot]).done .count = false := by decide +kernel
theorem witness_StartUpStages_late : (∀ x ∈ [Stage.count], (starting [.d0, .boot, .count]).done x = true) ∧ (starting [.d0, .boot, .count]).done .stewards = false ∧ (∀ x ∈ [Stage.stewards], (starting [.stewards]).done x = true) ∧ (starting [.stewards]).done .tierH = false ∧ (∀ x ∈ [Stage.tierH], (starting [.tierH]).done x = true) ∧ (starting [.tierH]).done .mount = false ∧ (∀ x ∈ [Stage.holdup, Stage.mount], (starting [.holdup, .mount]).done x = true) ∧ (starting [.holdup, .mount]).done .ready = false ∧ (∃ x ∈ [Stage.holdup, Stage.mount], (starting [.holdup]).done x = false) ∧ (∀ x ∈ [Stage.ready], (starting [.ready]).done x = true) ∧ (starting [.ready]).done .residency = false ∧ (starting [.ready]).residencyWhole = true ∧ ({ starting [.ready] with cores := [(0, { bound := 5, ready := false })], power := { (starting [.ready]).power with domains := 0xFFF } } : State).residencyWhole = false := by decide +kernel
theorem witness_StartUpStages_saved : (starting []).saved.quotas = [] ∧ ({ (starting []).saved with quotas := [(1, 9)] } : Saved).quotas ≠ [] ∧ sumNat ([(1, 9)].map (fun (x : Nat × Nat) => x.2)) ≤ (starting []).cage.quotable ∧ (starting []).pair.has = false ∧ (paired {}).pair.has = true ∧ ({ (starting []).saved with orrery := some { period := (starting []).saved.period } } : Saved).orrery = some { period := (starting []).saved.period } := by decide +kernel
theorem test_start_up : (after (execStartUp (starting []))).power.domains = 3 ∧ (after (execStartUp (starting []))).startup.ended = [.d0] ∧ (after (execStartUp (starting []))).pair.detectOut = true := by decide +kernel
-- R535: slot 2 is taken where slot 1 does not verify; where neither does, the PF shows CSTS.CFS.
theorem test_boot : (after (execBoot 0 {} { verifies := true } (starting [.d0]))).flash.runningSlot = 2 ∧ (after (execBoot 0 {} { verifies := true } (starting [.d0]))).startup.fallback = some 2 ∧ ((after (execBoot 0 {} {} (starting [.d0]))).ctrl 0).cfs = true := by decide +kernel
theorem test_boot_count : (after (execBootCountWrite 0 (starting [.d0, .boot]))).meridian.bootCount = 1 ∧ (after (execBootCountWrite 0 (starting [.d0]))).meridian.bootCount = 0 := by decide +kernel
theorem test_stewards_start : (after (execStewardsStart 0 true none { starting [.d0, .boot, .count] with power := { (starting []).power with off := false, domains := 3 } })).power.domains = 0xF9F ∧ (after (execStewardsStart 0 false none (starting [.d0, .boot, .count]))).log.stage = 3 := by decide +kernel
-- R516: stacks that do not train are a module fault of cause 2.
theorem test_tier_h : (after (execTierHPrepare 0 false (starting [.stewards]))).global.cause = 2 ∧ (after (execMount 0 true 0 [] (starting [.tierH]))).media.mounted = true ∧ (after (execStageReady 0 (starting [.holdup, .mount]))).startup.ended = [.holdup, .mount, .ready] := by decide +kernel
-- R322: at the first power-up tenant 0 holds all of STP_QUOTABLE.
theorem test_restore_quotas : ((starting [.stewards]).restoreQuotas).quota 0 = (starting []).cage.quotable ∧ (starting []).cage.quotable = 6291456 - 65536 - (starting []).cage.tailings - (starting []).cage.poolSize := by decide +kernel

/-- Without input power. -/
def unpowered : State := { State.reset with power := { State.reset.power with off := true } }

theorem witness_SupplyInputs : unpowered.power.off = true ∧ unpowered.power.pwrdis = false ∧ live.power.lossDeclared = none ∧ (starting []).power.off = false ∧ (starting []).power.lossDeclared = none ∧ ({ live.power with lossDeclared := some 5 } : Power).lossDeclared = some 5 ∧ max live.now 45000004 < 5 + 45000000 ∧ 5 + 45000000 ≤ max live.now 45000005 ∧ (starting []).power.perst = false ∧ 64 ∈ [16, 32, 64] ∧ 16 ∈ [1, 2, 4, 8, 16] ∧ 11 < 12 := by decide +kernel
-- R616, R619: 10 ms of input power, and PWRDIS low as long.
theorem test_input_power : (after (execInputPowerGood 10000000 10000000 unpowered)).power.off = false ∧ (after (execInputPowerGood 9999999 10000000 unpowered)).power.off = true ∧ (after (execInputPowerGood 10000000 9999999 unpowered)).power.off = true := by decide +kernel
theorem test_power_loss : (after (execInputPowerLoss 5 { live with power := { live.power with off := false, domains := 0xFFF } })).power.domains = 0xE19 ∧ (after (execPwrdis 5 9999 true { live with power := { live.power with off := false } })).power.lossDeclared = none ∧ (after (execPwrdis 5 10000 true { live with power := { live.power with off := false } })).power.lossDeclared = some 5 := by decide +kernel

/-- A loss was declared at 5 ns; the link has trained before. -/
def losing : State := { live with power := { live.power with off := false, lossDeclared := some 5 } }

theorem test_flush_end : (after (execHoldupFlushEnd 45000004 ⟨true, false, []⟩ losing)).power.off = false ∧ (after (execHoldupFlushEnd 45000005 ⟨true, false, []⟩ losing)).power.off = true ∧ (after (execHoldupFlushEnd 6 ⟨true, true, []⟩ losing)).startup.clean = true := by decide +kernel
theorem test_perst : (after (execPerst 0 999 ⟨true, true, []⟩ (starting [.d0]))).startup.ended = [.d0] ∧ (after (execPerst 0 1000 ⟨true, true, []⟩ (starting [.d0]))).startup.ended = [] := by decide +kernel
-- R117: without FLIT mode 64 GT/s becomes 32 GT/s.
theorem test_link_rate : (after (execLinkRateChange 0 64 16 false (starting []))).link.rateGt = 32 ∧ (after (execLinkRateChange 0 64 16 true (starting []))).link.rateGt = 64 ∧ (after (execLinkRateChange 0 64 3 true (starting []))).link.up = false := by decide +kernel
-- R626: 3.5 W is within the limit, 3.6 W is not.
theorem test_cage_assembly : ((after (execCageAssemblyInserted 0 11 35 live)).port 11).state = .training ∧ ((after (execCageAssemblyInserted 0 11 36 live)).port 11).state = .down ∧ (after (execCageAssemblyInserted 0 11 36 live)).log.ring.map (·.code) = [0x0809] := by decide +kernel

/-! ### The block as a whole -/

theorem witness_QueueUntouched : (match exec (.inputPowerGood 10000000 10000000) { unpowered with pending := [.startUp] } with | .next t => t.pending == [.startUp] | _ => false) = true := by decide +kernel
theorem witness_MemoryStaysCanonical : (starting []).ramOk = true ∧ ({ starting [] with coherence := { (starting []).coherence with tierC := [(5, 1), (9, 2)] } } : State).ramOk = true ∧ ({ starting [] with coherence := { (starting []).coherence with tierC := [(9, 2), (5, 1)] } } : State).ramOk = false ∧ ({ starting [] with coherence := { (starting []).coherence with tierC := [(5, 0)] } } : State).ramOk = false := by decide +kernel
theorem test_step : (match step { unpowered with pending := [.inputPowerGood 10000000 10000000, .startUp] } with | .next t => (t.pending, t.power.off) == ([.startUp], false) | _ => false) = true := by decide +kernel
theorem test_step_idle : (match step State.reset with | .next t => t == State.reset | _ => false) = true := by decide +kernel
end Sys2Proof.Tests
end

section
/-!
PROOFS. Feature C0h, the frame period, on the functions of the host link (R55, R56).
-/
namespace Sys2Proof.Machine

/-- The instruction that sets feature C0h runs its own operation. -/
theorem exec_setFeaturesFramePeriod (q : Sqe) (both : Bool) (peer : Option Nat) (s : State) :
    exec (.setFeaturesFramePeriod q both peer) s = execSetFeaturesFramePeriod q both peer s := rfl

/-- The instruction that gets feature C0h runs its own operation. -/
theorem exec_getFeaturesFramePeriod (q : Sqe) (s : State) :
    exec (.getFeaturesFramePeriod q) s = execGetFeaturesFramePeriod q s := rfl

/-- R56: a host's Set of C0h is refused on a VF before any other check, whatever the period and the twin's table. -/
theorem setFeaturesFramePeriod_vf {s : State} {q : Sqe} (both : Bool) (hs : s.fetches q.fn = true) (hf : q.fn ≠ 0) :
    exec (.setFeaturesFramePeriod q both none) s = .next ((s.at q.t).complete q .featureNotChangeable) := by
  rw [exec_setFeaturesFramePeriod]
  simp only [execSetFeaturesFramePeriod, State.command_serves _ hs]
  rw [if_pos hf]

/-- The DW0 that a Get of C0h answers on function `fn` for the Select values 0 to 3: the period in effect with the pending one, the default,
the saved period, and the capabilities, where only the PF can change the feature (R55, R56). -/
def State.framePeriodValue (s : State) (fn : Nat) : Nat → Nat
  | 0 => s.meridian.c0h
  | 1 => 2
  | 2 => s.saved.period
  | _ => capabilities true (fn == 0)

/-- On whatever function it comes, a Get of C0h with a Select value that is not reserved answers that value. -/
theorem getFeaturesFramePeriod_succeeds {s : State} {q : Sqe} (hs : s.fetches q.fn = true) (hsel : selectField q ≤ 3) :
    exec (.getFeaturesFramePeriod q) s =
      .next ((s.at q.t).complete q .success (s.framePeriodValue q.fn (selectField q))) := by
  rw [exec_getFeaturesFramePeriod]
  simp only [execGetFeaturesFramePeriod, State.command_serves _ hs]
  match selectField q, hsel with
  | 0, _ | 1, _ | 2, _ | 3, _ => rfl

/-- Settles O19: the function is looked at first by the Set and, but for the capabilities, not at all by the Get. -/
theorem framePeriodOnVf : Obligations.FramePeriodOnVf := by
  unfold Obligations.FramePeriodOnVf
  intro s q hs
  exact ⟨fun hf both => setFeaturesFramePeriod_vf both hs hf, fun hsel => ⟨_, getFeaturesFramePeriod_succeeds hs hsel⟩⟩

end Sys2Proof.Machine
end

section
/-!
PROOFS. CONTRACT SET on the PF: what it refuses and what a change that it takes leaves waiting (R65, R66).
-/
namespace Sys2Proof.Machine

/-- CONTRACT SET runs its own operation. -/
theorem exec_contractSet (q : Sqe) (s : State) : exec (.contractSet q) s = execContractSet q s := rfl

/-- The class that a descriptor of Table Orrery 1 defines. -/
def describedClass (d : List Byte) : ClassDef :=
  { cfMax := leAt d 0 4, lpdMax := leAt d 4 2, candMax := leAt d 6 4, paramMax := leAt d 10 4 }

/-- A change of class `k` of tenant `n` waits for the next cycle boundary, and CONTRACT_CHANGED tells of it (R66). -/
def State.awaitClass (s : State) (n k : Nat) (x : Option ClassDef) : State :=
  let f := s.orrery.boundaryFrom (s.meridian.frame + 1)
  ({ s with orrery := { s.orrery with changes := s.orrery.changes ++ [{ tick := f, tenant := n, cls := k, deff := x }] } } : State).raise
    0x0107 n ([BitVec.ofNat 8 k, BitVec.ofNat 8 (bit x.isNone)] ++ le 8 f)

/-- A value is outside a range when it is below its first or above its last. -/
theorem outside_eq_true_iff {v lo hi : Nat} : outside v lo hi = true ↔ v < lo ∨ hi < v := decide_eq_true_iff

section
variable {s : State} {q : Sqe} (hs : s.takes q = true) (hf : q.fn = 0)
include hs hf

/-- A deletion is refused where a table names the class, and waits for its boundary otherwise. -/
theorem contractSet_deletes (hdel : bitAt q.d10.toNat 15 = true) :
    exec (.contractSet q) s = .next
      (if s.orrery.names (dwField q.d10 0 6) (dwField q.d10 8 3) then (s.at q.t).complete q .commandSequence
      else ((s.at q.t).awaitClass (dwField q.d10 0 6) (dwField q.d10 8 3) none).complete q .success) := by
  rw [exec_contractSet]
  simp only [execContractSet, State.pfCommand_takes _ hs hf, hdel]
  simp [State.awaitClass]

/-- A definition is refused where a maximum is out of its range, and waits for its boundary otherwise. -/
theorem contractSet_defines (hdef : bitAt q.d10.toNat 15 = false) :
    exec (.contractSet q) s = .next
      (if outside (leAt q.data 0 4) 1 243 ∨ outside (leAt q.data 4 2) 1 208 then (s.at q.t).complete q .invalidField
      else ((s.at q.t).awaitClass (dwField q.d10 0 6) (dwField q.d10 8 3) (some (describedClass q.data))).complete q .success) := by
  rw [exec_contractSet]
  simp only [execContractSet, State.pfCommand_takes _ hs hf, hdef]
  simp [State.awaitClass, describedClass]

end

/-- Settles O17: the range check guards a definition alone and the look into the tables a deletion alone; what passes waits for its boundary. -/
theorem contractSet : Obligations.ContractSet := by
  unfold Obligations.ContractSet
  intro s q hs hf
  refine ⟨fun hdef hcf hcf' hlpd hlpd' => ?_, fun hdef hout => ?_, contractSet_deletes hs hf⟩
  · have hpasses : ¬ (outside (leAt q.data 0 4) 1 243 ∨ outside (leAt q.data 4 2) 1 208) := by
      rw [outside_eq_true_iff, outside_eq_true_iff]; omega
    rw [contractSet_defines hs hf hdef, if_neg hpasses]
    rfl
  · have hrefused : outside (leAt q.data 0 4) 1 243 ∨ outside (leAt q.data 4 2) 1 208 := by
      rw [outside_eq_true_iff, outside_eq_true_iff]; omega
    rw [contractSet_defines hs hf hdef, if_pos hrefused]

end Sys2Proof.Machine
end

section
/-!
PROOFS. REGISTER READ on the management path: what a read of BAR2 without clears can change (R556, R591).
-/
namespace Sys2Proof.Machine

/-- The second state is the first but for the count of free values and for latches of the management path, whose keys lie from 64 × 2^26
up (R556, R591). -/
def State.latchesTo (s s' : State) : Prop :=
  ∃ (k : Nat) (m : Tbl Nat), s' = { s with free := k, global := { s.global with latches := m } } ∧
    ∀ i, i < 64 * 2 ^ 26 → tget? m i = tget? s.global.latches i

theorem State.latchesTo_refl (s : State) : s.latchesTo s := ⟨s.free, s.global.latches, rfl, fun _ _ => rfl⟩

theorem State.latchesTo_trans {s s' s'' : State} (h : s.latchesTo s') (h' : s'.latchesTo s'') : s.latchesTo s'' := by
  obtain ⟨k, m, rfl, hm⟩ := h
  obtain ⟨k', m', rfl, hm'⟩ := h'
  exact ⟨k', m', rfl, fun i hi => (hm' i hi).trans (hm i hi)⟩

/-- Writing a latch of the management path. -/
theorem State.latchesTo_latch (s : State) (off v : Nat) :
    s.latchesTo { s with global := { s.global with latches := tset s.global.latches (latchKey 64 off) v } } :=
  ⟨s.free, _, rfl, fun i hi => tget?_tset_ne _ _ (by unfold latchKey; omega)⟩

/-- A byte of a flash bank draws at most one free value (R530). -/
theorem State.latchesTo_flashByte (s : State) (bank a : Nat) : s.latchesTo (s.flashByte bank a).2 := by
  unfold State.flashByte
  dsimp only
  split
  · exact ⟨s.free + 1, s.global.latches, rfl, fun _ _ => rfl⟩
  · exact s.latchesTo_refl

/-- The bank window is read byte by byte. -/
theorem State.latchesTo_windowRead (s : State) (o : Nat) : s.latchesTo (s.windowRead o).2 := by
  unfold State.windowRead
  dsimp only
  split
  · exact s.latchesTo_refl
  split
  · exact s.latchesTo_refl
  · dsimp only
    refine List.foldlRecOn (motive := fun (acc : List Byte × State) => s.latchesTo acc.2) _ _ s.latchesTo_refl ?_
    exact fun acc hacc _ _ => State.latchesTo_trans hacc (acc.2.latchesTo_flashByte ..)

theorem State.latchesTo_pathValue (s : State) (path off : Nat) : s.latchesTo (s.pathValue path off).2 := by
  unfold State.pathValue
  split
  · exact s.latchesTo_refl
  split
  · exact s.latchesTo_windowRead _
  · exact s.latchesTo_refl

/-- On the management path a dword read latches at most its own high half. -/
theorem State.latchesTo_readDword (s : State) (off : Nat) : s.latchesTo (s.readDword 64 off false).2 := by
  have hvalue := s.latchesTo_pathValue 64 off
  unfold State.readDword
  split
  · exact s.latchesTo_refl
  by_cases hlo : isLo 64 off = true
  · simpa [hlo] using State.latchesTo_trans hvalue (State.latchesTo_latch _ off _)
  · simpa [hlo] using hvalue

theorem State.latchesTo_readDwords (s : State) (off n : Nat) : s.latchesTo (s.readDwords 64 off false n).2 := by
  induction n generalizing s off with
  | zero => exact s.latchesTo_refl
  | succ n ih => exact State.latchesTo_trans (s.latchesTo_readDword off) (ih _ (off + 4))

/-- As many values as dwords are asked for. -/
@[simp] theorem State.length_readDwords (s : State) (path off : Nat) (clears : Bool) (n : Nat) :
    (s.readDwords path off clears n).1.length = n := by
  induction n generalizing s off with
  | zero => rfl
  | succ n ih => exact congrArg Nat.succ (ih _ (off + 4))

/-- A dword of neither half of a latching pair and outside the bank window is the register's own, and its read changes nothing. -/
theorem State.readDword_register (s : State) {off : Nat} (hlo : isLo 64 off = false) (hhi : off < 4 ∨ isLo 64 (off - 4) = false)
    (hwin : off < 0xA10000 ∨ 0xA20000 ≤ off) : s.readDword 64 off false = (s.regNow off, s) := by
  have hlatched : ¬ (4 ≤ off ∧ isLo 64 (off - 4) = true) := by
    rintro ⟨hge, hpair⟩
    rcases hhi with hlt | hnot
    · omega
    · simp [hnot] at hpair
  have hwindow : ¬ (0xA10000 ≤ off ∧ off < 0xA20000) := by omega
  simp [State.readDword, State.pathValue, hlatched, hwindow, hlo]

/-- The endpoint in D0 runs a request at its time while its bus lives (R587, R617). -/
theorem State.mgmtHeld_runs {s : State} (t : Nat) (k : State → State) (h : s.busLives = true) : s.mgmtHeld t k = k (s.at t) := by
  simp only [State.busLives, Bool.and_eq_true, Bool.not_eq_true'] at h
  obtain ⟨⟨⟨hoff, hloss⟩, hvio⟩, hd0⟩ := h
  simp [State.mgmtHeld, hoff, Option.isSome_eq_false_iff.mpr hloss, hvio, List.contains_iff_mem.mp hd0]

/-- A REGISTER READ of 1 to 16 dwords replies with what the dwords hold once the busy counts are brought up to its time; it keeps the state
that reading them before leaves. -/
theorem exec_registerRead {s : State} (t : Nat) {off n : Nat} (hs : s.busLives = true) (hn : 0 < n) (hn' : n ≤ 16) (hoff : off % 4 = 0) :
    exec (.registerRead t off n) s = .next (((s.at t).readDwords 64 off false n).2.reply 0
      ((((s.at t).accrueBusy (fun _ => true)).readDwords 64 off false n).1.flatMap (le 4))) := by
  have hserved : ¬ (n = 0 ∨ 16 < n ∨ off % 4 ≠ 0) := by omega
  change execRegisterRead t off n s = _
  unfold execRegisterRead
  rw [State.mgmtHeld_runs t _ hs, if_neg hserved]

/-- Settles O28: only the bank window draws free values and only a LO register latches, under a key of the management path; a single dword
of neither kind leaves the state as it is. -/
theorem managementRegisterRead : Obligations.ManagementRegisterRead := by
  unfold Obligations.ManagementRegisterRead
  intro s t off n hs hn hn' hoff
  rw [exec_registerRead t hs hn hn' hoff]
  by_cases hone : n = 1 ∧ isLo 64 off = false ∧ (off < 4 ∨ isLo 64 (off - 4) = false) ∧ (off < 0xA10000 ∨ 0xA20000 ≤ off)
  · obtain ⟨rfl, hlo, hhi, hwin⟩ := hone
    simp only [State.readDwords, State.readDword_register _ hlo hhi hwin]
    exact ⟨s.free, s.global.latches, _, rfl, rfl, fun _ _ => rfl, fun _ _ _ _ => ⟨rfl, rfl, rfl⟩⟩
  · obtain ⟨k, m, hstate, hkeeps⟩ := (s.at t).latchesTo_readDwords off n
    exact ⟨k, m, (((s.at t).accrueBusy (fun _ => true)).readDwords 64 off false n).1,
      by rw [hstate]; rfl, State.length_readDwords .., hkeeps,
      fun h1 hlo hhi hwin => absurd ⟨h1, hlo, hhi, hwin⟩ hone⟩

end Sys2Proof.Machine
end
